-- ==== Sys2Proof/Word.lean ====
section
/-! DEFINITION. The plainest types of the model: bytes, byte strings, tables keyed by a unit number, and the two
control ports. Everything the manual stores in memory or in a payload is a string of bytes, little-endian (R8). -/

namespace Sys2Proof

/-- One byte (R8). -/
abbrev Byte := BitVec 8

/-- A string of bytes: a payload, a record, a stored configuration. Byte 0 comes first. -/
abbrev Bytes := List Byte

/-- A table of like units: pairs of a unit's number and its state, in rising order of the number. A unit that is not
listed stands at its reset value, which the reader names (`Tab.get`). -/
abbrev Tab (α : Type) := List (Nat × α)

/-- The two control ports (R37). -/
inductive Port where
  | a
  | b
  deriving DecidableEq, Repr

/-- The number by which registers and records name a port: 0 Port A, 1 Port B (R46). -/
def Port.num : Port → Nat
  | .a => 0
  | .b => 1

/-- The other port. -/
def Port.peer : Port → Port
  | .a => .b
  | .b => .a

end Sys2Proof
end

