-- ==== Sys2Proof/Syntax.lean ====
section
/-! DEFINITION. The commands the block takes: one constructor for each row of the opcode table. -/

namespace Sys2Proof

/-- The registers whose low half captures the whole value (R45, R58). -/
inductive CaptureReg where
  | gen
  | jseq
  | dmaDone (engine : Fin 8)
  deriving DecidableEq, Repr

/-- The causes of a port reset (R64). -/
inductive ResetCause where
  | perst
  | flr
  | hotReset
  | dlDown
  | d3hotToD0
  deriving DecidableEq, Repr

/-- How a line's TRS was found (R147). -/
inductive TrsResult where
  | good
  | corrected
  | bad
  deriving DecidableEq, Repr

/-- How long a line was against the contracted length (R146). -/
inductive LineLength where
  | exact
  | short
  | long
  deriving DecidableEq, Repr

/-- A source line as the Weighbridge finds it: whether it is active picture and in field 2, its line number as received
(none on ST 259 rasters), whether that number follows its predecessor, its TRS, CRC and length, and the codes of its two
planes in the order of R172, `none` where no delivered packet supplied the sample (R160). -/
structure LineFacts where
  active : Bool
  field2 : Bool
  numberFollows : Bool
  trs : TrsResult
  crcOk : Bool
  length : LineLength
  luma : List (Option Nat)
  chroma : List (Option Nat)
  deriving DecidableEq, Repr

/-- What a frame start finds (R139): the descriptor measured over the frame that just ended, whether ST 352 told PsF from
interlace in it, the payload ID in it, whether that disagreed, whether a gang's links were skewed for the whole frame
(R142), and the tile signatures of that frame where the source has a change map (R157). -/
structure FrameFacts where
  measured : Bytes
  pidScan : Option Nat
  pid : Option (BitVec 32)
  pidDisagrees : Bool
  skewed : Bool
  tiles : List Nat := []
  deriving DecidableEq, Repr

/-- What an ST 291-1 packet carries (R152): audio data of a group of four channels, with the sample of each and whether its
BCH code could not be corrected, audio control of a group, a timecode of ATC_LTC (1) or ATC_VITC (2), a payload ID, or
anything else. -/
inductive AncKind where
  | audio (group : Nat) (samples : List (BitVec 24 × Bool))
  | audioControl (group : Nat)
  | timecode (kind : Nat) (field2 : Bool) (value : BitVec 64)
  | payloadId (value : BitVec 32)
  | other
  deriving DecidableEq, Repr

/-- An ST 291-1 packet (R152, R153, R177): its line and place, whether its checksum held and its data count stayed on the
line, its words from DID to checksum, and what it carries. -/
structure AncPacket where
  line : Nat
  place : Nat
  checksumOk : Bool
  fits : Bool
  words : List (BitVec 10)
  kind : AncKind
  deriving DecidableEq, Repr

/-- What a 10 ms meter block finds on a channel (R367): its largest absolute sample in 0.1 dBFS, and the samples that gain
clipped. -/
structure MeterFact where
  dest : Bool
  channel : Nat
  level : Int
  clips : Nat := 0
  deriving DecidableEq, Repr

/-- What is measured of a reference candidate, shared by every engine that names it (R392, R396): its kind, index and PTP
domain, its quality, the phase of its instants against the alignment points of device time in ns, its frequency in 0.01
ppm, a PTP grandmaster's clockClass and a quarter of its Sync rate in 0.1 Hz; of an analog or clock input also whether a
signal is present, its mode, format and noise. -/
structure CandidateFacts where
  kind : Nat
  index : Nat
  domain : Nat := 0
  quality : Nat
  phase : Int := 0
  freq : Int := 0
  ptpClass : Nat := 0
  syncBw : Nat := 20
  present : Bool := true
  mode : Nat := 0
  format : Bytes := []
  noise : Nat := 0
  deriving DecidableEq, Repr

/-- What a servo tick measures of an engine's loop (R399, R400): the phase error in ns and the engine's frequency in 0.001
ppm. -/
structure LoopFact where
  engine : Nat
  phase : Int
  freq : Int
  deriving DecidableEq, Repr

/-- What the control blocks of an Adit period bring (R447, R453): the partner's placement, as tie line, FORMAT and
ANC_QUOTA, the slots it takes, and the mask of our lanes the partner has lost. -/
structure AditPeriod where
  ties : List (Nat × Bytes × Nat)
  slots : Nat
  lost : Nat
  audio : List (Nat × List (List (BitVec 24))) := []
  deriving DecidableEq, Repr

/-- What the deinterlacer measures of one source field (R264): whether it is consistent with a 2:2, and with a 3:2 cadence. -/
structure FieldFact where
  two : Bool
  three : Bool
  deriving DecidableEq, Repr

/-- What closes a frame: the tile signatures of a source with CHANGE_MAP (R157); for a converted frame, the phase q that the fit
of unsteady START_TIMEs gives its instant (R266), whether the motion unit saw a scene cut (R267), the source fields examined since
the last frame and whether the pair that a cadence matches is the two fields of G, and of G + 1 (R264), and the blocks in a
thousand that took the BLEND value (R282). -/
structure CloseFacts where
  tiles : List Nat := []
  phase : Nat := 0
  sceneCut : Bool := false
  fields : List FieldFact := []
  paired : Bool := false
  pairedNext : Bool := false
  fallback : Nat := 0
  deriving DecidableEq, Repr

/-- Who issues requests to the frame store: the holders of reservations (R189) and the five best-effort masters (R195). -/
inductive Holder where
  | system
  | source (i : Nat)
  | output (d : Nat)
  | contextRead (d : Nat)
  | contextWrite (d : Nat)
  | ashlarRead (k : Nat)
  | writeback (k : Nat)
  | pattern (i : Nat)
  | audio
  | bestEffort (master : Fin 5)
  deriving DecidableEq, Repr

/-- A request for one 256-byte granule, by its physical address (R167, R191). -/
structure Request where
  holder : Holder
  addr : Nat
  deriving DecidableEq, Repr

/-- What happens in a scheduler period (R190, R191): the RASTER holders within their lines of active picture, the requests
issued, and how many granules each pseudo-channel has slots for. -/
structure PeriodFacts where
  picture : List Holder := []
  issued : List Request := []
  slots : List Nat := []
  deriving DecidableEq, Repr

/-- A frame a network port receives (R411, R417): its size with the FCS, whether the FCS held, its VLAN, whether it is
IPv4 with a valid header, whether it belongs to the offload engine (R412), and, of an RTP packet over UDP, what the filter
and the flow look at. `seq` is the flow's whole sequence number, `line` the first row it carries (of its field, from 0; an
ancillary packet's raster line number), `lengthOk` whether its length suits the flow (R417 step 6), and `runsPast` whether
samples run past their line (R160). -/
structure NetPacket where
  size : Nat
  fcsOk : Bool
  vlan : Option Nat
  ipv4 : Bool
  ipOk : Bool
  offload : Bool
  udp : Bool
  src : Nat
  dst : Nat
  port : Nat
  ssrc : Nat
  version : Nat
  pt : Nat
  seq : Nat
  timestamp : Nat
  ipBytes : Nat
  line : Nat
  field2 : Bool
  lengthOk : Bool
  runsPast : Bool
  data : Bytes
  deriving DecidableEq, Repr

/-- A packet of the offload engine (R412). -/
inductive OffloadPacket where
  | arpRequest (target : Nat)
  | arpReply (addr mac : Nat)
  | igmpQuery (version : Nat)
  | icmpEcho (dst : Nat)
  | icmpOther
  | ptp
  deriving DecidableEq, Repr

/-- What a running host-to-device job of an engine has written by some instant, from its first byte on (R60). -/
structure Landed where
  port : Port
  engine : Fin 8
  data : Bytes
  deriving DecidableEq, Repr

/-- What the end of a job brings: the bytes it moved, the PORT_EPOCH they carry (R67), and what other running jobs had written by
then, of which a CLOSE may close the frame (R60). -/
structure JobEnd where
  data : Bytes
  epoch : Nat
  landed : List Landed
  deriving DecidableEq, Repr

/-- A HOSTFRAME command: the channel that holds it, and what running jobs had written into the slot that it closes (R60). -/
structure SlotCall where
  ch : Fin 32
  landed : List Landed
  deriving DecidableEq, Repr

/-- A destination at an instant of its frame, and how many whole ancillary packets it leaves out there (R25, R228). -/
structure LeftOut where
  dest : BitVec 16
  packets : Nat
  deriving DecidableEq, Repr

/-- The commands of the block, one for each row of the opcode table. An Axrov command is named by the mailbox channel
that holds it (R51, R68); the other rows carry what the host, a link or a signal brings with them. -/
inductive Instr where
  /-- SEM_ACQUIRE (R48). A port writes ACQUIRE to a semaphore cell's SEM_CTL, and the port takes the cell if it is free. -/
  | semAcquire (p : Port) (cell : Fin 64) (tag : BitVec 16) (rival : Option (BitVec 16))
  /-- SEM_RELEASE (R49). The owning port writes RELEASE to SEM_CTL; this frees the cell and resets the governed channel's CH_CTL. -/
  | semRelease (p : Port) (cell : Fin 64)
  /-- MAILBOX_BUFFER_WRITE (R51). A write to a mailbox channel buffer is accepted and marks the channel WRITTEN, or is ignored and counted in CH_REJECTS. -/
  | mailboxBufferWrite (p : Port) (ch : Fin 32) (off : Nat) (data : Bytes)
  /-- DOORBELL (R53). A doorbell write either posts the channel's command or is rejected, with LAST_REJECT recording why. -/
  | doorbell (p : Port) (ch : Fin 32) (epoch : Nat)
  /-- AWAITED_COMPLETION (R86). A command that waited on an effect, a drain or a named instant writes its response and reaches DONE. -/
  | awaitedCompletion (ch : Fin 32)
  /-- ER_CTL_WRITE (R56). A write to ER_CTL sets the ring controls; setting ENABLE from 0 to 1 copies PRODUCER into CONSUMER. -/
  | erCtlWrite (p : Port) (v : BitVec 32)
  /-- ER_CONSUMER_WRITE (R56). The host moves CONSUMER; a write out of range is ignored and sets CONSUMER_ERR. -/
  | erConsumerWrite (p : Port) (v : BitVec 32)
  /-- MODERATION_TIMER (R55). The MODERATION interval ends and the pending event-ring message is sent. -/
  | moderationTimer (p : Port)
  /-- MSIX_UNMASK (R57). The host unmasks an MSI-X vector, and any pending message on it is sent. -/
  | msixUnmask (p : Port) (v : Fin 32)
  /-- CAPTURE_READ (R45). A read of GEN_LO, JSEQ_LO or DMA_DONE_LO captures the whole 64-bit value for the later high-half read. -/
  | captureRead (p : Port) (reg : CaptureReg)
  /-- REGISTER_WRITE (R9). A write to a register that has no behaviour of its own updates its fields by access type, with reserved bits kept 0. -/
  | registerWrite (p : Port) (off : Nat) (d : BitVec 32) (full : Bool)
  /-- DMA_ENABLE (R62). The host writes DMA_CTL.ENABLE as 1, which clears HALTED and lets the engine fetch descriptors. -/
  | dmaEnable (p : Port) (e : Fin 8) (vector : Fin 32)
  /-- ABORT (R58). A write of ABORT ends the running job ABORTED and clears ENABLE. -/
  | abort (p : Port) (e : Fin 8) (moved : Bytes)
  /-- DMA_TAIL_WRITE (R58). The host advances TAIL; a write more than one ring ahead of HEAD is ignored. -/
  | dmaTailWrite (p : Port) (e : Fin 8) (tail : BitVec 32)
  /-- DMA_JOB_TAKE (R60). An enabled engine fetches the next descriptor and checks the job against the bench state and window rules at that instant. -/
  | dmaJobTake (p : Port) (e : Fin 8) (descriptor : Bytes)
  /-- DESCRIPTOR_FETCH_FAIL (R62). A descriptor fetch fails, so no job is taken, and the engine halts with HOST_MEMORY. -/
  | descriptorFetchFail (p : Port) (e : Fin 8)
  /-- DMA_JOB_END (R61). A job ends: optional close of the slot COMPLETE, firing of the fence, write-back, HEAD increment and message. -/
  | dmaJobEnd (p : Port) (e : Fin 8) (ok : Bool) (x : JobEnd)
  /-- PORT_RESET (R64). PERST#, an FLR, a hot reset, DL_Down or D3hot to D0 resets one port's state and frees its cells. -/
  | portReset (p : Port) (cause : ResetCause) (moved : List (Nat × Bytes))
  /-- PERST_DEASSERT (R66). PERST# is released and link training starts. -/
  | perstDeassert (p : Port)
  /-- LINK_TRAINED (R40). A port's link trains and LINK_STATE reports the speed and width reached. -/
  | linkTrained (p : Port) (speed width : Nat)
  /-- WINDOW_READ (R496). A read through a BAR2 window is checked at issue and returns memory contents, or 0xFF bytes if void. -/
  | windowRead (p : Port) (w : Fin 16) (x n : Nat)
  /-- WINDOW_WRITE (R496). A write through a BAR2 window is admitted into a LANDING host slot or the staging area, or is discarded as void. -/
  | windowWrite (p : Port) (w : Fin 16) (x : Nat) (data : Bytes) (epoch : Nat)
  /-- LOCKED_READ_REQUEST (R489). A PCIe locked read reaching a port is answered Unsupported Request. -/
  | lockedReadRequest (p : Port)
  /-- APPLY (R495). A write of APPLY to WIN_CMD snapshots the staged window values and sets PENDING, or sets APPLY_IGNORED. -/
  | apply (p : Port) (w : Fin 16)
  /-- APPLY_SWITCH (R495). The Foreman checks the APPLY, and accesses issued from then on use the new mapping. -/
  | applySwitch (p : Port) (w : Fin 16)
  /-- APPLY_COMPLETE (R495). The old mapping has drained; RESULT is written, APPLY_COUNT increments and PENDING clears. -/
  | applyComplete (p : Port) (w : Fin 16)
  /-- SYS_IDENTIFY (R97). Command returning the identity and component versions. -/
  | sysIdentify (ch : Fin 32)
  /-- SYS_STATUS (R97). Command returning generation, journal sequence, time source and device counts. -/
  | sysStatus (ch : Fin 32)
  /-- SYS_NOP (R97). Command echoing its payload unchanged. -/
  | sysNop (ch : Fin 32)
  /-- SYS_SUPPLY (R98). Command declaring normal supply or low battery and raising SUPPLY_DECLARED. -/
  | sysSupply (ch : Fin 32)
  /-- CHANNEL_PENDING (R99). Command listing queued changes in admission order. -/
  | channelPending (ch : Fin 32)
  /-- CHANNEL_CANCEL (R101). Command withdrawing a queued change, named by its generation, if it has not begun to take effect. -/
  | channelCancel (ch : Fin 32)
  /-- GPI_EDGE (R225). A level change is sampled on a GPIO named by an armed GPI target. -/
  | gpiEdge (g : Fin 64) (level : Bool)
  /-- GPI_QUALIFIED (R225). The GPIO has held its new level for 20 µs; armed changes then fire and a GPI journal entry is made. -/
  | gpiQualified (g : Fin 64)
  /-- LANE_STATUS (R128). Command returning a lane's state, codes, signature and counters. -/
  | laneStatus (ch : Fin 32)
  /-- LANE_RX_CONFIG (R128). Command setting receive rate, CTLE mode, polarity and tolerance, possibly forcing re-acquisition. -/
  | laneRxConfig (ch : Fin 32)
  /-- LANE_TX_CONFIG (R114). Command setting transmit swing, de-emphasis and polarity. -/
  | laneTxConfig (ch : Fin 32)
  /-- LANE_GROUP_FAMILY (R116). Command changing a transmit group's rate family; the group PLL relocks. -/
  | laneGroupFamily (ch : Fin 32)
  /-- GROUP_PLL_LOCKED (R116). The group PLL has relocked, the lanes resume and LANE.GROUP_FAMILY completes. -/
  | groupPllLocked (g : Fin 16)
  /-- LANE_PRBS (R124). Command turning a lane's PRBS generator or checker on or off. -/
  | lanePrbs (ch : Fin 32)
  /-- LANE_PRBS_READ (R126). Command returning a checker's BITS, ERRORS and sync state. -/
  | lanePrbsRead (ch : Fin 32) (n errors : Nat)
  /-- LANE_SLIP (R127). Command moving an Adit receive lane's block boundary later by 1–63 bits. -/
  | laneSlip (ch : Fin 32)
  /-- LANE_ADAPT (R128). Command discarding the stored record and making a receive lane acquire afresh. -/
  | laneAdapt (ch : Fin 32)
  /-- SIGNAL_DETECTED (R109). The signal at an enabled receive lane rises above the detection threshold, and DARK goes to ACQUIRING. -/
  | signalDetected (id : BitVec 16)
  /-- SIGNAL_LOST (R107). The signal stays below the threshold, and the lane enters DARK. -/
  | signalLost (id : BitVec 16)
  /-- RATE_HUNT_STEP (R108). 200 µs pass without CDR lock, and the lane tries its next rate code. -/
  | rateHuntStep (id : BitVec 16)
  /-- CDR_LOCK (R109). A receive lane's CDR locks at a rate code. -/
  | cdrLock (id : BitVec 16) (family : Fin 2) (ppm : Int)
  /-- CDR_LOCK_LOSS (R107). A LOCKED lane's CDR loses lock, and the lane enters ACQUIRING. -/
  | cdrLockLoss (id : BitVec 16)
  /-- SIGNATURE_MEASURED (R113). The channel signature is measured 40 µs after lock, and the stored code is reused or fresh adaptation starts. -/
  | signatureMeasured (id sig : BitVec 16)
  /-- ADAPTATION_DONE (R109). Fresh adaptation ends, the lane becomes LOCKED and LANE_READAPTED is raised. -/
  | adaptationDone (id : BitVec 16) (code : Fin 41) (margin : Byte)
  /-- TRACKING_STEP (R111). In ADAPT_TRACK, the 10 ms interval passes and the lane may step its code one place, in blanking. -/
  | trackingStep (id : BitVec 16) (step : Option Bool) (margin : Byte)
  /-- PI_LIMIT (R118). A direct-route interpolator reaches its ±300 ppm limit, sets PI_LIMIT and raises LANE_PI_LIMIT. -/
  | piLimit (n : Fin 128) (limit : Bool) (ppm : Int)
  /-- LANE_RECENTRE (R118). The elastic buffer comes within 4 words of full or empty and is re-centred by dropping or repeating words. -/
  | laneRecentre (n : Fin 128) (level : Fin 65)
  /-- PRBS_SYNC (R126). A checker reaches sync after 128 error-free bits. -/
  | prbsSync (id : BitVec 16)
  /-- LANE_PRBS_SYNC_LOST (R126). A checker counts 1,024 errors in 65,536 bits, loses sync and re-seeds. -/
  | lanePrbsSyncLost (id : BitVec 16) (n errors : Nat)
  /-- ALIGN_FOUND (R127). An Adit lane finds two markers one period apart and reports ALIGN 1. -/
  | alignFound (i : Fin 8)
  /-- ALIGN_LOST (R127). Four expected markers are missing in a row, and the lane reports ALIGN 2. -/
  | alignLost (i : Fin 8)
  /-- INPUT_CONTRACT (R136). Command setting a source's ingress contract, which takes effect at its next frame boundary. -/
  | inputContract (ch : Fin 32)
  /-- INPUT_ENABLE (R164). Command enabling or disabling an SDI input or host frame source. -/
  | inputEnable (ch : Fin 32)
  /-- INPUT_STATUS (R164). Command returning a source's state, measured format and timecode. -/
  | inputStatus (ch : Fin 32)
  /-- INPUT_COUNTERS (R164). Command returning a source's Weighbridge counters. -/
  | inputCounters (ch : Fin 32)
  /-- INPUT_GET_CONTRACT (R163). Command returning a source's contract. -/
  | inputGetContract (ch : Fin 32)
  /-- TRS_LOCK (R138). Four consecutive valid EAVs at equal spacing, or an IP marker packet, move a source from LOCKING to LOCKED. -/
  | trsLock (i : BitVec 16)
  /-- SOURCE_FRAME_START (R181). A source frame starts: the contract or format takes effect, measurement completes and the writer takes a slot. -/
  | sourceFrameStart (i : BitVec 16) (m : FrameFacts)
  /-- LINE_RECEIVED (R147). A source line arrives: TRS, line number and CRC are checked and the line is written, padded or truncated. -/
  | lineReceived (i : BitVec 16) (l : LineFacts)
  /-- ANC_PACKET (R152). An ST 291-1 packet is extracted and sorted to audio, timecode, payload ID or the side area under quota. -/
  | ancPacket (i : BitVec 16) (p : AncPacket)
  /-- FRAME_CLOSE (R179). Every write of a frame is acknowledged, and its slot closes COMPLETE or INCOMPLETE. -/
  | frameClose (owner : BitVec 16) (dest : Bool) (facts : CloseFacts)
  /-- TRS_TIMEOUT (R149). 2 TL pass without a valid TRS, and the source goes LOST with cause LOSS_TRS. -/
  | trsTimeout (i : BitVec 16)
  /-- FLOW_SILENT (R149). 8 TL pass with no packet on any leg, and the IP flow goes LOST. -/
  | flowSilent (i : Fin 64)
  /-- RATE_UPDATE (R148). The 10 ms update of a source's rate measurement sets or clears RATE_BREACH. -/
  | rateUpdate (i : BitVec 16) (ppm : Int)
  /-- LOSS_HOLD_EXPIRED (R151). A source's loss-hold timer expires and its readers go to black. -/
  | lossHoldExpired (i : BitVec 16)
  /-- HOST_SOURCE_STALL (R161). HOST_STALL frame periods pass without a COMPLETE slot, and the host source becomes LOST. -/
  | hostSourceStall (i : BitVec 16)
  /-- BENCH_STATUS (R201). Command returning a bench's slots, reservations and counters. -/
  | benchStatus (ch : Fin 32)
  /-- BENCH_SLOTS (R201). Command returning per-slot states and holds. -/
  | benchSlots (ch : Fin 32)
  /-- HOSTFRAME_OPEN (R184). Command opening a host source slot in LANDING with the next frame number. -/
  | hostframeOpen (x : SlotCall)
  /-- HOSTFRAME_CLOSE (R185). Command closing a host source's LANDING slot COMPLETE or INCOMPLETE. -/
  | hostframeClose (x : SlotCall)
  /-- BENCH_FENCE_QUERY (R202). Command returning whether a fence is satisfied. -/
  | benchFenceQuery (ch : Fin 32)
  /-- BENCH_FENCE_NOTIFY (R202). Command asking for FENCE_FIRED when a fence is satisfied. -/
  | benchFenceNotify (ch : Fin 32)
  /-- BENCH_STORE_STATUS (R202). Command returning frame-store reservation, block and temperature figures. -/
  | benchStoreStatus (ch : Fin 32)
  /-- BENCH_STORE_CONFIG (R202). Command setting BE_CAP. -/
  | benchStoreConfig (ch : Fin 32)
  /-- MEM_REFRESH_DOUBLED (R169). A memory die crosses 85 °C, or both return to 83 °C, and the refresh rate changes. -/
  | memRefreshDoubled (stack : Fin 2) (temp0 temp1 : Int)
  /-- SCHEDULER_PERIOD (R190). Each 1.28 µs period, reservations earn credit in granules. -/
  | schedulerPeriod (facts : PeriodFacts)
  /-- BENCH_SHRINK_DONE (R198). No slot above the new bound is held or LANDING, so the shrink completes and its blocks return. -/
  | benchShrinkDone (key : BitVec 16)
  /-- ROUTE_SET (R231). Command committing one route entry as a one-entry salvo. -/
  | routeSet (ch : Fin 32)
  /-- ROUTE_GET (R231). Command returning a destination's committed route and state. -/
  | routeGet (ch : Fin 32)
  /-- ROUTE_LIST (R231). Command listing routed destinations. -/
  | routeList (ch : Fin 32)
  /-- ROUTE_COUNTERS (R231). Command returning a destination's route counters. -/
  | routeCounters (ch : Fin 32)
  /-- ROUTE_TALLY_GPIO (R231). Command mapping or unmapping a GPIO as a tally output. -/
  | routeTallyGpio (ch : Fin 32)
  /-- SALVO_CREATE (R222). Command creating an OPEN salvo. -/
  | salvoCreate (ch : Fin 32)
  /-- SALVO_ADD (R231). Command adding route entries to an OPEN salvo. -/
  | salvoAdd (ch : Fin 32)
  /-- SALVO_REMOVE (R231). Command removing a destination's entry from an OPEN salvo. -/
  | salvoRemove (ch : Fin 32)
  /-- SALVO_COMMIT (R223). Command admitting an OPEN salvo as a whole and arming it for its target. -/
  | salvoCommit (ch : Fin 32)
  /-- SALVO_DISCARD (R221). Command discarding an OPEN salvo. -/
  | salvoDiscard (ch : Fin 32)
  /-- SALVO_STATUS (R231). Command returning a salvo's state. -/
  | salvoStatus (ch : Fin 32)
  /-- SALVO_RESULT (R227). Command returning each destination's frame of effect. -/
  | salvoResult (ch : Fin 32)
  /-- SALVO_TIMEOUT (R221). 600 s pass without a SALVO command naming an OPEN salvo, and it is discarded. -/
  | salvoTimeout (i : BitVec 16)
  /-- SHADOW_WRITE (R290). The Foreman writes a change's descriptors as shadow entries to the units it touches. -/
  | shadowWrite (gen : Nat)
  /-- CLASS_CHANGE (R210). The Foreman decides an automatic class change of an AUTO route, journals it and schedules it at the next switch point. -/
  | classChange (d : BitVec 16)
  /-- RESTORE_TIMER (R212). The direct conditions have held 10 s, and a demoted route is scheduled back to direct. -/
  | restoreTimer (d : BitVec 16)
  /-- HELD_RETRY (R213). When a context, bandwidth or current is released, the Foreman retries held routes and blocked migrations. -/
  | heldRetry
  /-- HELD_LOSS_HOLD_EXPIRED (R213). A route has stayed HELD longer than its source's LOSS_HOLD and sends black. -/
  | heldLossHoldExpired (d : BitVec 16)
  /-- SWITCH_INSTANT (R215). A destination reaches the switch instant on its switching line; new routes and tallies take effect.
  The packets left out are those of a direct destination's new source that had begun before the instant (R228). -/
  | switchInstant (x : LeftOut)
  /-- CRUSHER_POOL_STATUS (R255). Command returning all engines' states and loads. -/
  | crusherPoolStatus (ch : Fin 32)
  /-- CRUSHER_STATUS (R255). Command returning one engine's contexts. -/
  | crusherStatus (ch : Fin 32)
  /-- CRUSHER_COUNTERS (R255). Command returning a destination's conversion counters. -/
  | crusherCounters (ch : Fin 32)
  /-- CRUSHER_POLICY (R255). Command setting the number of spare engines. -/
  | crusherPolicy (ch : Fin 32)
  /-- CRUSHER_MIGRATE (R256). Command scheduling the migration of a converted destination's context. -/
  | crusherMigrate (ch : Fin 32)
  /-- CRUSHER_SERVICE (R256). Command withdrawing an engine from service or returning it. -/
  | crusherService (ch : Fin 32)
  /-- CRUSHER_IDLE_TIMEOUT (R242). An engine has had no context for 10 s and begins power-down. -/
  | crusherIdleTimeout (k : Fin 32)
  /-- CRUSHER_TABLE_LOAD (R277). Command loading a LUT or scaler bank from staging into a table slot. -/
  | crusherTableLoad (ch : Fin 32)
  /-- CRUSHER_TABLE_READ (R281). Command copying a table slot into staging. -/
  | crusherTableRead (ch : Fin 32)
  /-- CRUSHER_PROFILE_SET (R282). Command setting or deleting a conversion profile. -/
  | crusherProfileSet (ch : Fin 32)
  /-- CRUSHER_PROFILE_GET (R282). Command returning a profile, or the derived one for two formats. -/
  | crusherProfileGet (ch : Fin 32)
  /-- CRUSHER_PROC_STATUS (R282). Command returning a conversion's running stages and counters. -/
  | crusherProcStatus (ch : Fin 32)
  /-- TABLE_SWITCH (R277). A context reaches the first work period at least 1 ms after a table or profile change and switches to it. -/
  | tableSwitch (d : BitVec 16)
  /-- OUTPUT_CONFIG (R305). Command enabling, disabling or reconfiguring an output's format, reference, phase and idle mode. -/
  | outputConfig (ch : Fin 32)
  /-- OUTPUT_GET_CONFIG (R304). Command returning an output's committed configuration. -/
  | outputGetConfig (ch : Fin 32)
  /-- OUTPUT_STATUS (R304). Command returning an output's state and frame numbers. -/
  | outputStatus (ch : Fin 32)
  /-- OUTPUT_COUNTERS (R304). Command returning an output's counters. -/
  | outputCounters (ch : Fin 32)
  /-- LATCH_CYCLE (R288). In an output's latch cycle it applies due shadow entries, evaluates fences, selects and holds the next frame and releases the old one. -/
  | latchCycle (d : BitVec 16)
  /-- OUTPUT_FRAME_START (R286). An output frame starts: the frame count advances, a pending enable takes effect and OUTPUT_FRAME_DONE reports the previous frame. -/
  | outputFrameStart (x : LeftOut)
  /-- OUTPUT_BLANK (R302). The EAV of the line after the last active line leaves, and OUTPUT_BLANK is raised. -/
  | outputBlank (d : BitVec 16) (field2 : Bool)
  /-- OUTPUT_LINE (R302). The EAV of MATCH_LINE leaves, and OUTPUT_LINE is raised. -/
  | outputLine (d : BitVec 16)
  /-- OUTPUT_UNDERRUN (R296). A line's picture has not arrived by its SAV and is taken from the newest COMPLETE frame or sent as black. -/
  | outputUnderrun (d : BitVec 16) (line : Nat) (chased : Bool) (layer : Fin 64)
  /-- ASHLAR_CONFIG (R311). Command enabling, disabling or reconfiguring an Ashlar's drive output, writeback and palette. -/
  | ashlarConfig (ch : Fin 32)
  /-- ASHLAR_GET_CONFIG (R328). Command returning an Ashlar's configuration. -/
  | ashlarGetConfig (ch : Fin 32)
  /-- ASHLAR_LAYERS (R321). Command changing layer entries together at a latch cycle, optionally behind fences. -/
  | ashlarLayers (ch : Fin 32)
  /-- ASHLAR_GET_LAYERS (R328). Command returning an Ashlar's layer table. -/
  | ashlarGetLayers (ch : Fin 32)
  /-- ASHLAR_STATUS (R328). Command returning an Ashlar's layer states. -/
  | ashlarStatus (ch : Fin 32)
  /-- AUDIO_MAP (R346). Command setting destination channels' map entries at a chosen instant. -/
  | audioMap (ch : Fin 32)
  /-- AUDIO_GET_MAP (R368). Command returning map entries. -/
  | audioGetMap (ch : Fin 32)
  /-- AUDIO_LEVEL (R347). Command changing channels' gain and polarity with a 2 ms ramp. -/
  | audioLevel (ch : Fin 32)
  /-- AUDIO_EMBED (R341). Command setting an SDI output's embed mode. -/
  | audioEmbed (ch : Fin 32)
  /-- AUDIO_COMPANION (R343). Command setting a video source's companion channels. -/
  | audioCompanion (ch : Fin 32)
  /-- AUDIO_FLOW_MAP (R342). Command binding network or cascade channels to an ST 2110-30 flow or Adit group. -/
  | audioFlowMap (ch : Fin 32)
  /-- AUDIO_TONE (R366). Command setting a tone generator. -/
  | audioTone (ch : Fin 32)
  /-- AUDIO_METERS (R367). Command returning meter levels and peaks. -/
  | audioMeters (ch : Fin 32)
  /-- AUDIO_DEST_STATUS (R368). Command returning a destination channel's state and counters. -/
  | audioDestStatus (ch : Fin 32)
  /-- AUDIO_SOURCE_STATUS (R368). Command returning a source channel's state and counters. -/
  | audioSourceStatus (ch : Fin 32)
  /-- AUDIO_ENGINE_STATUS (R368). Command returning the audio halves' state and usage. -/
  | audioEngineStatus (ch : Fin 32)
  /-- METER_BLOCK (R367). Each 10 ms block, LEVEL and PEAK of every metered channel are updated. -/
  | meterBlock (facts : List MeterFact)
  /-- CROSSFADE_END (R348). A channel's crossfade time runs out and the old reading position is dropped. -/
  | crossfadeEnd (c : BitVec 16)
  /-- SOURCE_LOCK_QUALIFIED (R356). A source channel has been measured 10 s within ±0.02 ppm, and AUTO paths are re-evaluated. -/
  | sourceLockQualified (c : BitVec 16) (clocks : List Nat) (ppm : Int)
  /-- ASRC_RELEASE (R357). An ASRC channel is released, and waiting paths are granted in order. -/
  | asrcRelease (k : Fin 512)
  /-- SAMPLE_SLIP (R359). A PCM path drifts 24 samples from target, and it takes an ASRC or jumps back with a crossfade. -/
  | sampleSlip (c : BitVec 16)
  /-- BURST_SLIP (R362). A non-PCM path drifts half a burst period, and one burst is left out or one period is inserted. -/
  | burstSlip (c : BitVec 16) (fast : Bool)
  /-- RATE_RANGE (R358). A source leaves the ASRC's ±2,000 ppm range and the path goes silent, or it returns within ±1,900 ppm. -/
  | rateRange (c : BitVec 16) (out : Bool)
  /-- PREAMBLE_FOUND (R360). An ST 337 preamble, or the non-audio bit, makes a source channel non-PCM. -/
  | preambleFound (c burst : BitVec 16) (both : Bool)
  /-- NONPCM_TIMEOUT (R360). 100 ms pass without a preamble, and the channel becomes PCM. -/
  | nonpcmTimeout (c : BitVec 16)
  /-- AUDIO_HALF_IDLE_TIMEOUT (R337). An audio half has served no channel for 10 s and begins power-down. -/
  | audioHalfIdleTimeout (h : Fin 2)
  /-- AUDIOPORT_CONFIG (R388). Command configuring a serial audio port. -/
  | audioportConfig (ch : Fin 32)
  /-- AUDIOPORT_GET_CONFIG (R387). Command returning a port's configuration. -/
  | audioportGetConfig (ch : Fin 32)
  /-- AUDIOPORT_STATUS (R387). Command returning a port's state and counters. -/
  | audioportStatus (ch : Fin 32)
  /-- AUDIOPORT_SHARE (R379). Command setting the AFS_SHARE mode. -/
  | audioportShare (ch : Fin 32)
  /-- AUDIOPORT_CAPTURE (R388). Command enabling, changing or disabling a capture stream. -/
  | audioportCapture (ch : Fin 32)
  /-- AUDIOPORT_CAPTURE_STATUS (R388). Command returning a capture stream's state. -/
  | audioportCaptureStatus (ch : Fin 32)
  /-- AUDIO_PORT_FRAME (R376). A port frame completes at an FS edge, is accepted or discarded as malformed, and the port state advances. -/
  | audioPortFrame (p : Fin 16) (bclks : Nat) (frame : List (BitVec 24))
  /-- PORT_CLOCK_LOSS (R375). A slave port sees no BCLK for 10 µs or no FS for 1 ms and enters NO_CLOCK. -/
  | portClockLoss (p : Fin 16)
  /-- PORT_RATE_UPDATE (R378). The 10 ms FS rate update sets REPORTED_PPM or counts a rate change. -/
  | portRateUpdate (p : Fin 16) (ppm : Int) (bclkKhz : Nat) (whole : Bool)
  /-- ALIGN_MEASURE (R380). Every 10 ms in FOLLOW the FS is measured against AFS_SHARE, and after ten offsets over 20 ns it steps. -/
  | alignMeasure (p : Fin 16) (ps : Int)
  /-- AFS_ABSENT (R380). No AFS_SHARE edge arrives for 1 ms, and the port keeps its phase and sets AFS_ABSENT. -/
  | afsAbsent (p : Fin 16)
  /-- CAPTURE_BLOCK (R385). A capture stream completes a block in its ring, dropping the oldest undelivered block if full. -/
  | captureBlock (i : Fin 16) (start : Nat) (samples : List (BitVec 24))
  /-- REFERENCE_CONFIG (R398). Command setting an engine's candidates and loop parameters, effective at the next tick. -/
  | referenceConfig (ch : Fin 32)
  /-- REFERENCE_GET_CONFIG (R407). Command returning an engine's configuration. -/
  | referenceGetConfig (ch : Fin 32)
  /-- REFERENCE_STATUS (R407). Command returning an engine's state and candidates. -/
  | referenceStatus (ch : Fin 32)
  /-- REFERENCE_INPUT (R407). Command configuring an analog or external clock input. -/
  | referenceInput (ch : Fin 32)
  /-- REFERENCE_INPUT_STATUS (R407). Command returning an input's detected state and format. -/
  | referenceInputStatus (ch : Fin 32)
  /-- REFERENCE_TIME_SOURCE (R404). Command naming the engine that device time follows. -/
  | referenceTimeSource (ch : Fin 32)
  /-- REFERENCE_CLKOUT (R405). Command enabling or changing a clean clock output. -/
  | referenceClkout (ch : Fin 32)
  /-- CLKOUT_STARTED (R405). A clock output's PLL has locked and the clock starts, completing REFERENCE.CLKOUT. -/
  | clkoutStarted (k : Fin 2)
  /-- SERVO_TICK (R397). The 1 ms servo tick selects candidates, switches over, corrects phase and moves engine states. -/
  | servoTick (facts : List LoopFact)
  /-- CANDIDATE_QUALITY_CHANGE (R396). A candidate's measured quality changes, for example at loss of sync, Announce timeout or requalification. -/
  | candidateQualityChange (f : CandidateFacts)
  /-- PTP_MESSAGE (R394). A PTP event or general message is received, timestamped and passed to the servo. -/
  | ptpMessage (p : Fin 4) (f : CandidateFacts)
  /-- WTR_EXPIRED (R397). A WAITING candidate has stayed qualified WTR_S seconds and replaces the selected one. -/
  | wtrExpired (e k : Fin 8)
  /-- HOLDOVER_EXPIRED (R403). The holdover timer passes HOLDOVER_S, and REF_STATE is raised with HOLDOVER_EXPIRED. -/
  | holdoverExpired (e : Fin 8)
  /-- NET_PORT_CONFIG (R440). Command enabling, disabling or readdressing a network port. -/
  | netPortConfig (ch : Fin 32)
  /-- NET_PORT_GET_CONFIG (R439). Command returning a port's configuration. -/
  | netPortGetConfig (ch : Fin 32)
  /-- NET_PORT_STATUS (R440). Command returning a port's link and counters. -/
  | netPortStatus (ch : Fin 32)
  /-- NET_RX_FLOW (R441). Command setting, changing, moving or disabling a receive flow. -/
  | netRxFlow (ch : Fin 32)
  /-- NET_TX_FLOW (R442). Command setting, changing, moving or disabling a send flow. -/
  | netTxFlow (ch : Fin 32)
  /-- NET_FLOW_GET (R439). Command returning a flow's configuration. -/
  | netFlowGet (ch : Fin 32)
  /-- NET_FLOW_STATUS (R442). Command returning a flow's state and counters. -/
  | netFlowStatus (ch : Fin 32)
  /-- NET_MODULE_IO (R442). Command reading or writing QSFP module memory over I²C. -/
  | netModuleIo (ch : Fin 32) (acked : Bool) (data : Bytes)
  /-- NET_LINK (R410). A port's link state changes: signal, alignment, faults or UP. -/
  | netLink (p : Fin 4) (goal : Fin 6) (fecCorrected fecUncorrected : Nat)
  /-- QSFP_PRESENT_CHANGE (R413). A module is inserted or removed, or raises its interrupt. -/
  | qsfpPresentChange (p : Fin 4) (present int : Bool)
  /-- PACKET_RECEIVED (R417). A received frame passes through the filter, policing, sequence, lateness and quota checks into the flow buffer or is dropped. -/
  | packetReceived (p : Fin 4) (m : NetPacket)
  /-- LINE_RELEASE (R424). At a line's instant on the virtual raster, the flow buffer releases its samples to the Weighbridge. -/
  | lineRelease (i : Fin 64) (e row : Nat) (field2 supplied : Bool) (l : LineFacts)
  /-- AUDIO_SAMPLE_WRITE (R427). At its playout instant, a received audio sample is written to its history, or concealed if missing. -/
  | audioSampleWrite (i : BitVec 8) (e : Nat)
  /-- NET_LEG (R430). A leg has passed no packet for 8 TL or 8 packet times, or passes one again, and its liveness changes. -/
  | netLeg (kind : Fin 3) (i : BitVec 8) (leg : Fin 2) (live : Bool)
  /-- PACKET_SEND (R432). A send packet reaches its scheduled instant and leaves, or counts in LATE_SENDS or UNRESOLVED. -/
  | packetSend (kind : Fin 3) (i : BitVec 8) (field2 late : Bool)
  /-- ARP_TIMER (R412). The ARP refresh of 60 s or retry of 1 s for a send destination falls due. -/
  | arpTimer (p : Fin 4) (hop : BitVec 32)
  /-- IGMP_REPORT_TIMER (R412). An unsolicited IGMP report falls due after a join. -/
  | igmpReportTimer (p : Fin 4) (group : BitVec 32)
  /-- OFFLOAD_PACKET (R412). An ARP, IGMP, ICMP or PTP packet is handled by the offload engine or dropped over its rate. -/
  | offloadPacket (p : Fin 4) (m : OffloadPacket)
  /-- NET_ADDRESS (R436). A send destination stays unresolved for 1 s, or an ARP conflict is seen. -/
  | netAddress (p : Fin 4) (addr : BitVec 32) (conflict : Bool)
  /-- NET_DROP (R443). Once per second, a record is raised for each drop counter that moved. -/
  | netDrop (p : Fin 4)
  /-- ADIT_CONFIG (R456). Command enabling or disabling the Adit link and setting AUTO_ALIGN and LANE_MASK. -/
  | aditConfig (ch : Fin 32)
  /-- ADIT_STATUS (R456). Command returning link state and slots. -/
  | aditStatus (ch : Fin 32)
  /-- ADIT_TIE (R457). Command allocating or changing a tie line. -/
  | aditTie (ch : Fin 32)
  /-- ADIT_TIE_STATUS (R457). Command returning a tie line's state. -/
  | aditTieStatus (ch : Fin 32)
  /-- ADIT_MARKER (R445). An alignment marker arrives on a lane, loading the descrambler seed and carrying the calendar epoch. -/
  | aditMarker (i : Fin 8) (seed : BitVec 31) (epoch : BitVec 8) (aligned : Bool)
  /-- ADIT_PERIOD (R447). At a period boundary a new calendar placement or lane set takes effect. -/
  | aditPeriod (f : AditPeriod)
  /-- AUTO_ALIGN_SLIP (R446). Under AUTO_ALIGN the Foreman slips an unaligned lane one bit and journals it. -/
  | autoAlignSlip (i : Fin 8)
  /-- LEDGER_STATUS (R484). Command returning per-rail ceilings, predictions and measurements. -/
  | ledgerStatus (ch : Fin 32)
  /-- LEDGER_CEILING (R485). Command setting soft ceilings. -/
  | ledgerCeiling (ch : Fin 32)
  /-- LEDGER_DELTA (R485). Command returning the ledger delta of a generation. -/
  | ledgerDelta (ch : Fin 32)
  /-- POWER_STATUS (R485). Command returning a domain's state and counters. -/
  | powerStatus (ch : Fin 32)
  /-- POWER_DOMAIN (R480). Command setting a domain's mode to AUTO, HELD_ON or FORCED_OFF. -/
  | powerDomain (ch : Fin 32)
  /-- POWER_LIST (R485). Command listing gateable domains. -/
  | powerList (ch : Fin 32)
  /-- RAIL_SAMPLE (R471). Each 1 ms rail sample is counted toward over, clear and drift conditions, and sheds are decided. -/
  | railSample (r : Fin 10) (sample : Nat)
  /-- CUT (R478). DRAIN ends, or its bound passes; power is removed and charges are released. -/
  | cut (d : BitVec 8)
  /-- DOMAIN_OFF (R478). 100 µs after CUT the domain is OFF and the power-down command completes. -/
  | domainOff (d : BitVec 8)
  /-- DOMAIN_WAKE (R481). A powered domain finishes waking with a new epoch and enters QUIET. -/
  | domainWake (d : BitVec 8)
  /-- QUIET_CLEARED (R482). The re-applied committed configuration has taken effect, and the domain becomes ON. -/
  | quietCleared (d : BitVec 8)
  /-- EVENT_ENABLE (R504). Command setting event source settings for the ringing port. -/
  | eventEnable (ch : Fin 32)
  /-- EVENT_GET (R514). Command returning event source settings. -/
  | eventGet (ch : Fin 32)
  /-- EVENT_STATUS (R514). Command returning per-port event counters. -/
  | eventStatus (ch : Fin 32)
  /-- EVENT_PORT (R506). Command setting the port's URGENT_VECTOR. -/
  | eventPort (ch : Fin 32)
  /-- JOURNAL_STATUS (R514). Command returning the journal's extent and boot generation. -/
  | journalStatus (ch : Fin 32)
  /-- JOURNAL_READ (R514). Command returning journal entries from a sequence number. -/
  | journalRead (ch : Fin 32)
  /-- JOURNAL_COPY (R514). Command copying journal entries to staging. -/
  | journalCopy (ch : Fin 32)
  /-- COALESCE_WINDOW_END (R507). A coalesce window ends and the last suppressed occurrence is written with SUPPRESSED. -/
  | coalesceWindowEnd (p : Port) (src : Fin 1536)
  /-- JOURNAL_ADVANCED (R513). At least 1 ms after the previous record, newer entries exist and JOURNAL_ADVANCED is raised. -/
  | journalAdvanced
  /-- FW_STATUS (R539). Command returning firmware slots, state and results. -/
  | fwStatus (ch : Fin 32)
  /-- FW_INSTALL (R526). Command copying a package from staging and installing it in the background. -/
  | fwInstall (ch : Fin 32)
  /-- INSTALL_DONE (R526). Background signature check, erase, write and read-back end, and INSTALLED or INSTALL_FAILED is journalled. -/
  | installDone (flashOk : Bool)
  /-- FW_ACTIVATE (R527). Command starting a hitless or cold activation of the other slot. -/
  | fwActivate (ch : Fin 32)
  /-- STAGE_DONE (R529). An activation stage confirms, is journalled, and the next stage starts. -/
  | stageDone
  /-- STAGE_TIMEOUT (R531). A stage does not confirm within its bound, and the replaced components are restored. -/
  | stageTimeout
  /-- SELF_CHECK_DONE (R532). The new image's self-check passes into AWAIT_CONFIRM, or fails and reverts. -/
  | selfCheckDone (pass : Bool)
  /-- HEALTH_WINDOW_EXPIRED (R532). The trial's health window ends unconfirmed, and the device falls back. -/
  | healthWindowExpired
  /-- FW_CONFIRM (R533). Command confirming the trial image and burning the security version. -/
  | fwConfirm (ch : Fin 32)
  /-- FW_REVERT (R532). Command ending a trial by reverting to the confirmed slot. -/
  | fwRevert (ch : Fin 32)
  /-- FW_LOCK (R538). Command setting the owner lock. -/
  | fwLock (ch : Fin 32)
  /-- FW_UNLOCK (R538). Command clearing the owner lock. -/
  | fwUnlock (ch : Fin 32)
  /-- FW_POLICY (R533). Command setting HEALTH_S. -/
  | fwPolicy (ch : Fin 32)
  /-- FW_SAVE (R536). Command saving a settings snapshot, written at most once per 60 s. -/
  | fwSave (ch : Fin 32)
  /-- SETTINGS_WRITE (R536). The 60 s save interval ends and the waiting snapshot is written to flash. -/
  | settingsWrite
  /-- FW_HOST_DATA (R539). Command copying the snapshot's host data to staging. -/
  | fwHostData (ch : Fin 32)
  /-- NRESET_FALL (R547). nRESET falls and every pin takes its in-reset state at once. -/
  | nresetFall
  /-- NRESET_RISE (R516). nRESET rises, straps are sampled and the boot ROM starts. -/
  | nresetRise (bootSrc : Fin 4) (portA portB quad fuseSense : Bool)
  /-- LOADER_START (R517). The verified loader starts and chooses the slot to run. -/
  | loaderStart (loaderOk ok0 ok1 : Bool)
  /-- READY (R518). Persistent settings are applied, the generation is set, BOOT is journalled and READY is raised. -/
  | ready (derated : BitVec 32)
  /-- START_BLOCK_POLL (R519). While waiting on a port, the ROM checks the start block each 1 ms and starts a supplied loader. -/
  | startBlockPoll (loaderOk ok0 ok1 : Bool)
  /-- FUSE_READ (R553). Command returning the fuse map as burned. -/
  | fuseRead (ch : Fin 32)
  /-- FUSE_PROGRAM (R543). Command burning a board fuse field and then its FIELD_DONE bit. -/
  | fuseProgram (ch : Fin 32) (stuck : Option (Fin 4096))
  /-- FUSE_LOCK (R554). Command setting BOARD_LOCK. -/
  | fuseLock (ch : Fin 32)
  /-- FUSE_STANDBY (R552). Command entering standby: domains are cut and the return note is written. -/
  | fuseStandby (ch : Fin 32)
  /-- FUSE_NOTE (R553). Command returning the return note. -/
  | fuseNote (ch : Fin 32)
  /-- MAIN_PWR_EN_FALL (R552). 20 ms after FUSE.STANDBY completes, MAIN_PWR_EN falls. -/
  | mainPwrEnFall
  /-- NWAKE (R552). nWAKE is held low for 100 µs in standby, and MAIN_PWR_EN rises. -/
  | nwake (early : Bool)
  /-- VSTBY_APPLIED (R546). VSTBY is applied, the island clears the note and drives MAIN_PWR_EN high. -/
  | vstbyApplied
  /-- MAIN_RAIL_LOSS (R580). Main rails fall with nRESET high, and the device stops as at a device reset. -/
  | mainRailLoss
  /-- TAP_RESET (R547). TRST_N low or five TCK cycles with TMS high reset the TAP alone. -/
  | tapReset
  /-- PWR_WARN_CHANGE (R44). The PWR_WARN input changes, and the BAR0 bit and update refusals follow it. -/
  | pwrWarnChange (level : Bool)
  /-- STANDBY_100_MS_MARK (R552). When MAIN_PWR_EN has been low for 100 ms and nWAKE, which fell earlier, is still low, the island raises MAIN_PWR_EN. -/
  | standby100MsMark (low : Bool)
  /-- VSTBY_LOSS (R551). VSTBY is removed, the always-on island loses power, the return note is cleared and MAIN_PWR_EN goes low. -/
  | vstbyLoss
  deriving DecidableEq, Repr

end Sys2Proof
end

