-- ==== Sys2Proof/Config.lean ====
section
/-! DEFINITION. What the manual leaves open: free values, each an opaque constant that nothing evaluates. A step
applies it to the counter `State.free`, and advances the counter, so that no two open values are tied together (log
entry 2). -/

namespace Sys2Proof.Config

/-- A byte the manual does not fix: a converted or composed sample, a content of a module's memory (log entries 2, 12). -/
opaque freeByte : Nat → BitVec 8

/-- A 16-bit value the manual does not fix. -/
opaque freeWord : Nat → BitVec 16

/-- A 32-bit value the manual does not fix. -/
opaque freeLong : Nat → BitVec 32

/-- Whether a quotient that does not come out whole is rounded up, where the manual gives no rounding: numerator and
denominator (log entry 96). -/
opaque roundsUp : Int → Nat → Bool

/-- The fixed decode of the colour stage (R274), whose coefficients and rounding the manual does not write out: COLOUR and
RANGE, then Y′, Cb and Cr on the 16-bit scale; R′, G′ and B′. -/
opaque colourDecode : Nat → Nat → Nat → Nat → Nat → Nat × Nat × Nat

/-- The fixed encode of the colour stage (R274): COLOUR and RANGE, then R′, G′ and B′; Y′, Cb and Cr. -/
opaque colourEncode : Nat → Nat → Nat → Nat → Nat → Nat × Nat × Nat

/-- The built-in tables of a Crusher (R262, R276): byte `i` of built-in table `t`. -/
opaque builtinTable : Nat → Nat → BitVec 8

/-- Field `i` of the split of a derived conversion between two formats into a TABLES profile (R278, R282): three table slots,
nine coefficients, three offsets. -/
opaque derivedProfile : Bytes → Bytes → Nat → BitVec 32

/-- The dither a context adds (R273), before it is brought into range: destination frame, line, column and component. -/
opaque dither : Nat → Nat → Nat → Nat → BitVec 16

/-- The Harbex release key hash held in the boot ROM (R541), byte `i`. -/
opaque releaseKeyHash : Nat → BitVec 8

/-- Whether the Ed25519 signature (RFC 8032) of a message verifies under a key (R523): key, message, signature. The manual
gives the scheme by name alone. -/
opaque signatureVerifies : Bytes → Bytes → Bytes → Bool

end Sys2Proof.Config
end

