-- ==== Sys2Proof/Machine/State.lean ====
section
/-! DEFINITION. The state of the 1288: every register, buffer, queue, counter, mode and pin the manual gives the
device, as plain data. Structures follow the manual's units; a table (`Tab`) lists the units that stand away from
their reset value. Marks: a field the manual does not itself name is marked DESIGN CHOICE with its log entry. -/

namespace Sys2Proof.Machine

/-! ### Host traffic -/

/-- What a control port puts on its link toward the host: the outward half of the PCIe function (log entry 3). -/
inductive ToHost where
  /-- A posted memory write: an event record (R56), a DMA transfer or descriptor write-back (R61). -/
  | write (addr : Nat) (data : Bytes)
  /-- An MSI-X message (R57). -/
  | msix (vector : Nat) (addr : Nat) (data : Nat)
  /-- The completion of a read through a window (R496, R499). -/
  | completion (data : Bytes)
  /-- Unsupported Request, the answer to a locked read (R489). -/
  | unsupportedRequest
  deriving DecidableEq, Repr

/-- The 16-byte refusal record (R72). -/
structure Nack where
  status : Nat
  item : Nat := 0xFFFF
  object : Nat := 0xFFFF
  field : Nat := 0xFFFF
  rail : Nat := 0xFF
  shortfall : Nat := 0
  deriving DecidableEq, Repr

/-- What a response carries beside the echoed OPCODE and CHANNEL_SEQ (R71). `effect = none` is the all-ones EFFECT. -/
structure Reply where
  status : Nat := 0
  gen : Nat := 0
  effect : Option Nat := none
  payload : Bytes := []
  deriving DecidableEq, Repr

/-- What a RUNNING command waits for before it completes (R75, R86, R94). -/
inductive WaitFor where
  /-- AWAIT: the change of this generation in effect on every destination (R86). -/
  | change (gen : Nat)
  /-- A contract or quota at the next frame boundary of a source (R136). -/
  | boundary (source : Nat)
  /-- A bench shrink, by bench key (R198). -/
  | shrink (bench : Nat)
  /-- Power-down of a domain to OFF (R478), or its power-up to ON (R484). -/
  | domainOff (domain : Nat)
  | domainOn (domain : Nat)
  /-- The PLL of a transmit group (R116). -/
  | groupPll (group : Nat)
  /-- The PLL of a clock output (R405). -/
  | clockOut (k : Nat)
  /-- Every context using a table or profile has switched to it (R277). -/
  | tables (gen : Nat)
  /-- The first frame boundary of an audio port (R388). -/
  | audioPort (port : Nat)
  /-- The next servo tick of a reference engine (R398). -/
  | servoTick (engine : Nat)
  /-- The next link period of the Adit link (R457). -/
  | aditPeriod (tie : Nat)
  /-- A flow's change or move (R441, R442). -/
  | flow (key : Nat)
  /-- The background install (R526). -/
  | install
  /-- The settings write of FW.SAVE (R536). -/
  | save
  /-- The spare engines powered (R255). -/
  | spares
  /-- The last context gone from a withdrawn engine (R256). -/
  | service (engine : Nat)
  /-- The standby sequence (R552). -/
  | standby
  deriving DecidableEq, Repr

/-- A command that stays RUNNING: what it waits for, the response it will give, and whether that response is due. -/
structure Waiting where
  cause : WaitFor
  reply : Reply
  ready : Bool := false
  deriving DecidableEq, Repr

/-! ### Semaphores and mailbox channels (02) -/

/-- One semaphore cell (R47). -/
structure SemCell where
  owner : Option Port := none
  tag : BitVec 16 := 0
  acqCount : Nat := 0
  deriving DecidableEq, Repr

/-- STATE of a mailbox channel (R52). -/
inductive ChanState where
  | idle
  | posted
  | running
  | done
  deriving DecidableEq, Repr

/-- One mailbox channel: its control block (R52), its 4 KiB buffer (R51), the WRITTEN mark (R73), whether its cell has
changed hands since the doorbell of its command (R54), and the wait of a RUNNING command. Buffer bytes not listed are 0 (DESIGN CHOICE, log entry 5). -/
structure Channel where
  state : ChanState := .idle
  lastReject : Nat := 0
  rangBy : Port := .a
  cplIrq : Bool := false
  cplVector : Nat := 0
  rejects : Nat := 0
  lastSeq : Nat := 0
  written : Bool := false
  handed : Bool := false
  buffer : List Host.Cell := []
  waiting : Option Waiting := none
  deriving DecidableEq, Repr

/-! ### The control ports (02, 18) -/

/-- LINK_STATE of a port (R40, R46). -/
inductive LinkState where
  | down
  | training
  | l0
  | l1
  deriving DecidableEq, Repr

/-- One open coalesce window of an event source on one port (R507). -/
structure CoalesceWindow where
  source : Nat
  suppressed : Nat := 0
  last : Bytes := []
  deriving DecidableEq, Repr

/-- The event ring of a port: its registers (R55) and, beside them, the counters of EVENT.STATUS (R514), which a port
reset leaves. -/
structure EventRing where
  baseLo : BitVec 32 := 0
  baseHi : BitVec 32 := 0
  enable : Bool := false
  vector : Nat := 0
  moderation : Nat := 0
  producer : BitVec 32 := 0
  consumer : BitVec 32 := 0
  consumerErr : Bool := false
  timerRunning : Bool := false
  messagePending : Bool := false
  deriving DecidableEq, Repr

/-- Per-port event counters and what the next OVERFLOW record will report (R508, R514). -/
structure EventCounts where
  written : Nat := 0
  lost : Nat := 0
  errorLost : Nat := 0
  overflowRecords : Nat := 0
  urgentVector : Nat := 0
  lostSince : Nat := 0
  errorLostSince : Nat := 0
  firstLost : Nat := 0
  lastLost : Nat := 0
  windows : Tab CoalesceWindow := []
  settings : Tab Nat := []
  deriving DecidableEq, Repr

/-- One MSI-X table entry (R57). The mask bit is 1 after reset, as PCIe Base 4.0 has it (PRESUMED, log entry 6). -/
structure MsixEntry where
  addrLo : BitVec 32 := 0
  addrHi : BitVec 32 := 0
  data : BitVec 32 := 0
  masked : Bool := true
  pending : Bool := false
  deriving DecidableEq, Repr

/-- A job a DMA engine is running (R59). `frame` is the frame a job into a slot is bound to (R60); `released` says that
the frame has left LANDING before the job ended, and `written` how many bytes the job had written by then; `order` is its
place in the order in which jobs were taken (R384). -/
structure DmaJob where
  number : Nat
  kind : Nat
  flags : Nat
  object : Nat
  count : Nat
  hostAddr : Nat
  offset : Nat
  slot : Nat
  frame : Nat := 0
  released : Bool := false
  written : Nat := 0
  order : Nat := 0
  deriving DecidableEq, Repr

/-- One host DMA engine (R58). BUSY is `job.isSome`. -/
structure DmaEngine where
  baseLo : BitVec 32 := 0
  baseHi : BitVec 32 := 0
  log2Size : Nat := 4
  enable : Bool := false
  vector : Nat := 0
  tail : BitVec 32 := 0
  head : BitVec 32 := 0
  halted : Bool := false
  lastError : Nat := 0
  done : Nat := 0
  taken : Nat := 0
  job : Option DmaJob := none
  deriving DecidableEq, Repr

/-- A host-window mapping: the fields of WIN_CTL, WIN_OFFSET and WIN_PAGES that an APPLY takes (R493), and, for a bench
window, the incarnation of the bench it was applied to (R497). -/
structure WinMap where
  enable : Bool := false
  writable : Bool := false
  dest : Bool := false
  kind : Nat := 0
  object : Nat := 0
  offset : Nat := 0
  pages : Nat := 0
  cplIrq : Bool := false
  vector : Nat := 0
  bench : Nat := 0
  deriving DecidableEq, Repr

/-- One host window: staged registers, the snapshot of a running APPLY, the mapping in force and the status registers
(R493-R495). -/
structure Window where
  ctl : BitVec 32 := 0
  offset : BitVec 32 := 0
  pages : BitVec 32 := 0
  inForce : WinMap := {}
  snapshot : Option WinMap := none
  verdict : Option Nat := none
  orphaned : Bool := false
  applyIgnored : Bool := false
  result : Nat := 0
  applyCount : Nat := 0
  readsVoid : Nat := 0
  writesVoid : Nat := 0
  deriving DecidableEq, Repr

/-- One control port. -/
structure PortState where
  present : Bool := true
  link : LinkState := .down
  perstLow : Bool := true
  speed : Nat := 0
  width : Nat := 0
  epoch : Nat := 0
  stale : Nat := 0
  genCapture : Nat := 0
  jseqCapture : Nat := 0
  doneCapture : Tab Nat := []
  ring : EventRing := {}
  msix : Tab MsixEntry := []
  dma : Tab DmaEngine := []
  windows : Tab Window := []
  toHost : List ToHost := []
  deriving DecidableEq, Repr

/-! ### The Foreman: generation, queue of changes, journal (03, 19) -/

/-- A queued change (R86, R99): admitted, and not yet in effect on every unit of `remaining`. -/
structure Change where
  gen : Nat
  opcode : Nat := 0
  channel : Nat := 0xFF
  origin : Nat := 0
  targetKind : Nat := 0
  target : Nat := 0
  seq : Nat := 0
  anchor : Nat := 0
  remaining : List Nat := []
  begun : Bool := false
  effect : Option Nat := none
  salvo : Option Nat := none
  armed : Bool := true
  late : Bool := false
  deriving DecidableEq, Repr

/-- One journal entry (R510). -/
structure JEntry where
  seq : Nat
  gen : Nat
  time : Nat
  opcode : Nat
  kind : Nat
  origin : Nat
  channel : Nat
  reason : Nat
  object : Nat
  chSeq : Nat
  ledgerCore : Int := 0
  target : Nat
  effect : Option Nat
  detail : Nat
  targetKind : Nat
  effectRecorded : Bool := false
  settled : Bool := false
  withdrawn : Bool := false
  last : Bool := true
  part : Nat := 0
  deriving DecidableEq, Repr

/-- What a shadow entry changes on its unit (R290): the descriptors the Foreman writes ahead of the instant. -/
inductive ShadowBody where
  /-- A new output configuration, as OUTPUT.CONFIG lays it out (R305). -/
  | output (config : Bytes)
  /-- A route entry of R205 with the class chosen for it. -/
  | route (entry : Bytes) (cls : Nat)
  /-- A class change of an automatic action, with its reason (R210). -/
  | classChange (cls : Nat) (reason : Nat)
  /-- A route that is held, with its cause (R213). -/
  | hold (cause : Nat)
  /-- Shedding of the route (R472). -/
  | shed
  /-- New layer entries of an Ashlar: first layer and the entries (R321). -/
  | layers (ashlar : Nat) (entries : List (Nat × Bytes))
  /-- Audio map entries by destination channel (R346). -/
  | audioMap (entries : List (Nat × Bytes))
  /-- An embed mode of an SDI output (R341). -/
  | embed (mode : Nat) (channels : Nat)
  /-- A new Ashlar configuration (R311). -/
  | ashlar (config : Bytes)
  deriving DecidableEq, Repr

/-- A fence a command waits on (R186, R202): the fence descriptor, the tag of a notification, the port epoch it was
admitted in, and whether FENCE_ORPHANED has been raised for it (R188). -/
structure Notify where
  fence : Bytes
  tag : Nat := 0
  epoch : Nat := 0
  orphaned : Bool := false
  deriving DecidableEq, Repr

/-- A shadow entry: the unit (an object identifier, or a model key of an Ashlar or the audio engine), its tag (R92),
the target, the fences it waits for (R186), whether the Foreman has written it (R290), and whether a latch cycle has
taken it for the switch instant that follows. -/
structure Shadow where
  gen : Nat
  unit : Nat
  tag : Nat := 0
  body : ShadowBody
  targetKind : Nat := 0
  target : Nat := 0
  fences : List Notify := []
  written : Bool := false
  armed : Bool := true
  late : Bool := false
  taken : Bool := false
  wake : Nat := 0
  deriving DecidableEq, Repr

/-- The ledger delta of a generation (R469): its change of W on each rail at admission, in mA, and its change of W so far,
100 times in nA. -/
structure Delta where
  gen : Nat
  admission : List Int := []
  moved : List Int := []
  isSettled : Bool := false
  deriving DecidableEq, Repr

/-- A tag on a descriptor of a unit that the latch cycles of no output serve, with the generation and the destination of the
change that brought it (R92). -/
structure LiveTag where
  gen : Nat
  unit : Nat
  dest : Nat
  tag : Nat
  deriving DecidableEq, Repr

/-- The Foreman's own state. -/
structure Foreman where
  gen : Nat := 0
  bootGen : Nat := 0
  jseq : Nat := 0
  jcount : Nat := 0
  journal : List JEntry := []
  jReported : Nat := 0
  previousLast : Option Nat := none
  doorbells : List Nat := []
  changes : List Change := []
  done : List Nat := []
  withdrawn : List Nat := []
  shadow : List Shadow := []
  tags : Tab Nat := []
  live : List LiveTag := []
  deltas : List Delta := []
  lowBattery : Bool := false
  deriving DecidableEq, Repr

/-! ### Serial lanes (04) -/

/-- State of a receive lane (R106). A transmit lane is `off` or, enabled, reported ON (3). -/
inductive LaneState where
  | off
  | dark
  | acquiring
  | locked
  deriving DecidableEq, Repr

/-- The stored record of a receive lane (R112). -/
structure LaneRecord where
  code : Nat
  signature : BitVec 16
  rate : Nat
  deriving DecidableEq, Repr

/-- A PRBS generator (transmit lane) or checker (receive lane) (R123-R126). -/
structure Prbs where
  on : Bool := false
  pattern : Nat := 0
  invert : Bool := false
  rate : Nat := 0
  inSync : Bool := false
  bits : Nat := 0
  errors : Nat := 0
  syncLosses : Nat := 0
  deriving DecidableEq, Repr

/-- One serial lane, receive or transmit, keyed by its identifier (R102). The receive settings are those of
LANE.RX_CONFIG, the transmit settings those of LANE.TX_CONFIG (R128); `swing` and `deemph` are `none` at the default of
the lane's set (R114). `adapting` says that fresh adaptation is moving the code (R109). -/
structure Lane where
  state : LaneState := .off
  rate : Nat := 0
  family : Nat := 0
  lastLocked : Nat := 0
  tried : List Nat := []
  cdrLocked : Bool := false
  ctleCode : Nat := 0
  adapting : Bool := false
  eyeMargin : Nat := 0
  align : Nat := 0
  signature : BitVec 16 := 0
  record : Option LaneRecord := none
  ppm : Int := 0
  lockLosses : Nat := 0
  readapts : Nat := 0
  reuses : Nat := 0
  cfgRate : Nat := 0
  cfgMode : Nat := 0
  cfgCode : Nat := 0
  invert : Bool := false
  sigTol : Nat := 4
  swing : Option Nat := none
  deemph : Option Nat := none
  piLimit : Bool := false
  buffer : Nat := 32
  recentres : Nat := 0
  boundary : Nat := 0
  prbs : Prbs := {}
  deriving DecidableEq, Repr

/-- One SDI transmit group: its rate family and whether its PLL is relocking (R115, R116). -/
structure TxGroup where
  family : Nat := 0
  relocking : Bool := false
  deriving DecidableEq, Repr

/-! ### The Weighbridge (05) -/

/-- State of a weighed source (R137). -/
inductive SourceState where
  | absent
  | locking
  | locked
  | formatted
  | lost
  deriving DecidableEq, Repr

/-- What the Weighbridge keeps of the frame it is receiving: its number, the slot it lands in (none when the write was
skipped, R181), the active lines received in each field, the rows of an IP frame that were passed over and never came (R160),
the lines the slot held before, for a source with a change map (R157), the ancillary bytes stored and charged, and the first
timecode found. -/
structure FrameIn where
  number : Nat
  slot : Option Nat := none
  field1 : Nat := 0
  field2 : Nat := 0
  missing : List (Bool × Nat) := []
  kept : List (Nat × Bytes × Bytes) := []
  ancBytes : Nat := 0
  ancCharged : Nat := 0
  timecode : Option (BitVec 64) := none
  deriving DecidableEq, Repr

/-- The counters of INPUT.COUNTERS (R164). -/
structure SourceCounts where
  framesComplete : Nat := 0
  framesIncomplete : Nat := 0
  tilesSkipped : Nat := 0
  shortFrames : Nat := 0
  longFrames : Nat := 0
  longFrameLines : Nat := 0
  shortLines : Nat := 0
  longLines : Nat := 0
  crcErrors : Nat := 0
  trsCorrected : Nat := 0
  trsErrors : Nat := 0
  lineNumberErrors : Nat := 0
  pidMismatch : Nat := 0
  ancChecksum : Nat := 0
  ancOverQuota : Nat := 0
  audioOverLimit : Nat := 0
  audioEcc : Nat := 0
  losses : Nat := 0
  rateBreaches : Nat := 0
  demotionTriggers : Nat := 0
  packetsMalformed : Nat := 0
  deriving DecidableEq, Repr

/-- One weighed source, keyed by its object identifier (R130). `contract` is the 40-byte layout of R163; `longFrame` says
that the frame that just closed has run on (R145); `causes` lists the causes of INPUT_FAULT raised in the frame the source
is sending (R165); `draining` names the DMA jobs taken under the contract a host source
has just left, and `leaving` is that contract, which stays charged until they have retired (R136, R164). -/
structure Source where
  contract : Option Bytes := none
  pendingContract : Option Bytes := none
  enabled : Bool := false
  pendingDisable : Bool := false
  state : SourceState := .absent
  rateBreach : Bool := false
  contractBreach : Bool := false
  lossHoldExpired : Bool := false
  pidPresent : Bool := false
  cause : Nat := 0
  formatChanges : Nat := 0
  measured : Bytes := []
  adopted : Bytes := []
  follow : Option Bytes := none
  followCount : Nat := 0
  payloadId : BitVec 32 := 0
  ratePpm : Int := 0
  outCount : Nat := 0
  inCount : Nat := 0
  framesMeasured : Nat := 0
  lastFrame : Nat := 0
  stateSince : Nat := 0
  timecode : BitVec 64 := 0x8000000000000000
  lossHoldEnd : Option Nat := none
  lossHoldRunning : Bool := false
  blackNow : Bool := false
  frameStart : Nat := 0
  frame : Option FrameIn := none
  longFrame : Bool := false
  torn : Bool := false
  causes : List Nat := []
  draining : List Nat := []
  leaving : Option Bytes := none
  counts : SourceCounts := {}
  deriving DecidableEq, Repr

/-! ### Frame store and benches (06) -/

/-- State of a slot (R178). -/
inductive SlotState where
  | released
  | landing
  | complete
  | incomplete
  deriving DecidableEq, Repr

/-- The layout a bench had when a change laid it out anew: the sizes of a slot's parts and its blocks (R199). -/
structure OldLayout where
  frameArea : Nat
  ancArea : Nat
  mapArea : Nat
  proxyArea : Nat
  blocks : List Nat
  deriving DecidableEq, Repr

/-- One slot of a bench: the fields of its header (R176), its holds (R180) and the tile signatures stored for it
(R157). `old` is the layout of a slot still held from before a change of the layout (R199). -/
structure Slot where
  state : SlotState := .released
  frame : Nat := 0
  tcValid : Bool := false
  padded : Bool := false
  mapValid : Bool := false
  proxyValid : Bool := false
  ancBytes : Nat := 0
  timecode : BitVec 64 := 0x8000000000000000
  format : Bytes := []
  start : Nat := 0
  close : Nat := 0
  payloadId : BitVec 32 := 0
  writeCount : Nat := 0
  holds : Nat := 0
  hostHolds : Nat := 0
  old : Option OldLayout := none
  tiles : Tab Nat := []
  placement : Nat := 0
  deriving DecidableEq, Repr

/-- One bench (R174, R175): its slot count and the bound of a running shrink, the sizes of a slot's parts, the blocks
of the pool it holds, and its writer's reservation. `id` tells incarnations of a bench apart (R497); `lastTiles` are the
signatures of the last frame that closed COMPLETE with a change map, and its number (R157). -/
structure Bench where
  id : Nat
  slots : Nat
  pendingSlots : Nat
  frameArea : Nat
  ancArea : Nat
  mapArea : Nat := 0
  proxyArea : Nat := 0
  blocks : List Nat := []
  oldBlocks : List Nat := []
  writeRate : Nat := 0
  flat : Bool := false
  slot : Tab Slot := []
  ending : Bool := false
  lastTiles : Nat × Tab Nat := (0, [])
  deriving DecidableEq, Repr

/-- A DMA job that ended DONE, which satisfies its fence (R61, R187). -/
structure DoneJob where
  port : Nat
  engine : Nat
  job : Nat
  epoch : Nat
  time : Nat
  deriving DecidableEq, Repr

/-- What a reservation has earned and not spent (R190): whole bytes, which are granules with the resolution of 1/256, and the
fraction of a byte that later periods complete. -/
structure Credit where
  bytes : Nat := 0
  part : Nat := 0
  deriving DecidableEq, Repr

/-- The frame store. `mem` is the whole 35-bit byte-addressed store (R166). `closed` lists, by bench, the frames that closed
COMPLETE with their instants, which outlive a bench (R187); `granted` the blocks an admission took for a bench whose change
has not taken effect (R198). Of the scheduler (R190, R191): the credits, the requests that wait, oldest first, what
best-effort traffic may still move under BE_CAP, the master each pseudo-channel served last, and the best-effort and total
bytes of the newest periods. `temps` are the die temperatures last measured (R169). -/
structure Store where
  mem : List Host.Cell := []
  benches : Tab Bench := []
  nextFrame : Tab Nat := []
  skipped : Tab Nat := []
  skippedTotal : Nat := 0
  nextId : Nat := 1
  beCap : Nat := 64
  doubled : Bool := false
  notifies : List Notify := []
  doneJobs : List DoneJob := []
  closed : Tab (List (Nat × Nat)) := []
  granted : Tab (List Nat) := []
  credit : List (Holder × Credit) := []
  requests : List Request := []
  allowance : Nat := 0
  served : Tab Nat := []
  traffic : List (Nat × Nat) := []
  temps : Option (Int × Int) := none
  periods : Nat := 0
  patterns : Tab Bytes := []
  deriving DecidableEq, Repr
/-! ### Routes, salvos, tallies (07) -/

/-- STATE of a route (R231). PENDING is worked out when it is read: a change is admitted and not yet in effect. -/
inductive RouteState where
  | none
  | active
  | held
  | shed
  deriving DecidableEq, Repr

/-- The counters of ROUTE.COUNTERS (R231). -/
structure RouteCounts where
  switches : Nat := 0
  classChanges : Nat := 0
  demotions : Nat := 0
  promotions : Nat := 0
  restores : Nat := 0
  discontinuous : Nat := 0
  holds : Nat := 0
  deriving DecidableEq, Repr

/-- A route change an output has taken in its latch cycle and shows at its switch instant (R215, R288): the generation,
the entry, its class, the reason of an automatic class change (0 for a command), and the cause of one that holds. -/
structure NextRoute where
  gen : Nat
  entry : Bytes
  cls : Nat
  reason : Nat := 0
  cause : Nat := 0
  frame : Nat := 0
  deriving DecidableEq, Repr

/-- The route of one destination (R204, R231): the entry last committed, the entry and class in force, and what the
automatic rules need. `gen`, `effectGen` and `setGen` are the generations of the last change, of the last that has taken
effect, and of the command whose entry is in force; `told` says that the route has answered the triggers that stand for its
source (R218). An empty entry is no route. -/
structure Route where
  committed : Bytes := []
  entry : Bytes := []
  cls : Nat := 0
  state : RouteState := .none
  reason : Nat := 0
  heldCause : Nat := 0
  effectFrame : Nat := 0
  gen : Nat := 0
  effectGen : Nat := 0
  setGen : Nat := 0
  told : Bool := false
  demoted : Bool := false
  heldBlack : Bool := false
  next : List NextRoute := []
  counts : RouteCounts := {}
  deriving DecidableEq, Repr

/-- One entry of a salvo with its result (R231). -/
structure SalvoEntry where
  entry : Bytes
  result : Nat := 0
  cls : Nat := 0
  effect : Option Nat := none
  deriving DecidableEq, Repr

/-- State of a salvo (R220). -/
inductive SalvoState where
  | open
  | armed
  | firing
  | done
  | withdrawn
  | discarded
  deriving DecidableEq, Repr

/-- One salvo (R220-R227). -/
structure Salvo where
  state : SalvoState := .open
  creator : Port := .a
  entries : List SalvoEntry := []
  applied : Nat := 0
  gen : Nat := 0
  target : Nat := 0
  kind : Nat := 0
  deriving DecidableEq, Repr

/-- A GPIO mapped as a tally output (R231). -/
structure TallyMap where
  level : Nat
  source : Nat
  deriving DecidableEq, Repr

/-! ### The Crusher pool (08, 09) -/

/-- A scheduled migration (R251): the engine it goes to, its migration frame, and the generation of its decision (0 when it
is not a command's change). -/
structure Migration where
  engine : Nat
  frame : Nat
  gen : Nat := 0
  deriving DecidableEq, Repr

/-- What a deinterlacer has seen of its source's fields (R264): how many in a row were consistent with a 2:2 and with a 3:2 cadence,
and how many it has examined, each up to ten; and the cadence it is locked to, 2 or 3, or 0. -/
structure Film where
  two : Nat := 0
  three : Nat := 0
  seen : Nat := 0
  lock : Nat := 0
  deriving DecidableEq, Repr

/-- One conversion context, by its destination (R237): the engine, the source in force, the route entry it runs, the
placement generation (R251), the window of its last 100 frames (R250), the number of the frame it works on, a
migration on its way and one that has just moved it (R251, R252), a decision to migrate that an update has deferred (R35),
the source slots it holds (R238), the entries admitted for it (R224), and its processing state (R282): the phase and fallback of
its last frame, what it knows of its source's cadence, the temporal position `aim` of its frame in progress (R266), and the source frame that one selected (R269). `reading` is the source frame G chosen for the
frame in progress (R245), and none when it is made black, `second` the frame G + 1 of an interpolating context; `fresh` holds
until the first frame from a new source is made (R268); `restart` says that the window starts afresh when a route change
takes effect (R253). -/
structure Context where
  engine : Nat
  source : Nat
  entry : Bytes
  placement : Nat := 0
  window : List Bool := []
  working : Option Nat := none
  lastFrame : Nat := 0
  migration : Option Migration := none
  blocked : Bool := false
  deferred : Bool := false
  restart : Bool := false
  arriving : Option Migration := none
  held : List (Nat × Nat) := []
  pendingEntries : List Bytes := []
  motionState : Nat := 1
  lastSource : Nat := 0
  tcValue : Option (BitVec 64) := none
  started : Bool := false
  reading : Option Nat := none
  second : Option Nat := none
  fresh : Bool := true
  lastSelected : Nat := 0
  phase : Nat := 0
  film : Film := {}
  aim : Int := 0
  fallback : Nat := 0
  deriving DecidableEq, Repr

/-- One Crusher: DERATED (R235), its service state (R255), whether it is a spare (R243), and its late frames. -/
structure Crusher where
  derated : Bool := false
  withdrawn : Bool := false
  spare : Bool := false
  late : Nat := 0
  deriving DecidableEq, Repr

/-- The conversion counters of a destination (R255, R282), which outlive its context. -/
structure ConvCounts where
  delivered : Nat := 0
  late : Nat := 0
  stale : Nat := 0
  repeats : Nat := 0
  migrations : Nat := 0
  blocked : Nat := 0
  sceneCuts : Nat := 0
  cadenceBreaks : Nat := 0
  tcReanchors : Nat := 0
  deriving DecidableEq, Repr

/-- A loaded host table (R276): 1D LUT slots 0-63, 3D LUT slots 0x100-0x10F and banks 0x200-0x20F by key; `taps` is a
bank's tap count. -/
structure HostTable where
  taps : Nat
  data : Bytes
  deriving DecidableEq, Repr

/-- A table load or profile setting that its contexts have not all switched to (R277): the new contents (none to delete)
and the destinations still to switch. -/
structure TableChange where
  gen : Nat
  key : Nat
  profile : Bool
  data : Option Bytes
  taps : Nat := 0
  waitingOn : List Nat
  deriving DecidableEq, Repr

/-! ### Outputs (10) -/

/-- State of an output (R298). -/
inductive OutState where
  | off
  | idle
  | active
  deriving DecidableEq, Repr

/-- What an output sends (R294). -/
inductive Sending where
  /-- Nothing: OFF, gated, or IDLE with LANE_OFF. -/
  | nothing
  /-- Safe black or loss black (R300, R151). -/
  | black
  /-- The source stream of a direct route, word for word (R24). -/
  | stream
  /-- A frame of a slot: bench key, slot and frame number. -/
  | frame (bench slot number : Nat)
  /-- The composed frame of an Ashlar (R308). -/
  | ashlar (k : Nat)
  deriving DecidableEq, Repr

/-- The counters of OUTPUT.COUNTERS (R304). -/
structure OutCounts where
  frames : Nat := 0
  black : Nat := 0
  repeats : Nat := 0
  skips : Nat := 0
  frozen : Nat := 0
  mixed : Nat := 0
  underruns : Nat := 0
  underrunLines : Nat := 0
  ancDropped : Nat := 0
  lateApplied : Nat := 0
  notApplied : Nat := 0
  fenceRetries : Nat := 0
  timingSteps : Nat := 0
  deriving DecidableEq, Repr

/-- Flags of the frame being sent (R302), and whether it has underrun (once per frame, R296). -/
structure FrameFlags where
  repeated : Bool := false
  skipped : Bool := false
  mixed : Bool := false
  black : Bool := false
  frozen : Bool := false
  timingStep : Bool := false
  underrun : Bool := false
  deriving DecidableEq, Repr

/-- One output (R283-R305): committed configuration and the one in force (OUTPUT.CONFIG's 32 bytes), its state, its
frame counting, and what it sends. `frame` is the number of the next frame to start; `disabling` says that the output has
gone OFF and its last frame has not ended. -/
structure Output where
  committed : Bytes := []
  config : Bytes := []
  state : OutState := .off
  quiet : Bool := false
  disabling : Bool := false
  following : Bool := false
  stepDue : Bool := false
  frame : Nat := 0
  latched : Nat := 0
  lastLatch : Nat := 0
  nextLatch : Nat := 0
  sending : Sending := .nothing
  next : Sending := .nothing
  source : Nat := 0xFFFF
  nextSource : Nat := 0xFFFF
  sourceFrame : Option Nat := none
  nextSourceFrame : Option Nat := none
  flags : FrameFlags := {}
  nextFlags : FrameFlags := {}
  counts : OutCounts := {}
  deriving DecidableEq, Repr

/-! ### Ashlars (11) -/

/-- What runs of one layer: the slot it holds (bench key, slot, frame), the level it fetches, the alarm state of R324, and
what the latch cycle sampled for it: the tally (R323), or LEVEL, PEAK and non-PCM of each metered channel (R322). -/
structure LayerRun where
  held : Option (Nat × Nat × Nat) := none
  level : Nat := 0xFF
  black : Bool := false
  still : Nat := 0
  frozen : Bool := false
  lost : Bool := false
  tally : Nat := 0
  meters : List (Int × Int × Bool) := []
  deriving DecidableEq, Repr

/-- One Ashlar (R306-R330): its configuration and layers as committed and in force; `missed` lists the layers, and the
picture lines, that an underrun drew black in the frame being composed (R327). -/
structure Ashlar where
  committed : Bytes := []
  config : Bytes := []
  enabled : Bool := false
  quiet : Bool := false
  layers : Tab Bytes := []
  pendingLayers : Tab Bytes := []
  run : Tab LayerRun := []
  lastFrame : Nat := 0
  underrunLines : Nat := 0
  underrunFrame : Option Nat := none
  missed : List (Nat × Nat) := []
  deriving DecidableEq, Repr

/-! ### The audio engine (12) -/

/-- What the engine keeps of an audio source channel (R356, R360, R364, R367): `lockedTo` lists the clocks it is locked
to, `recent` the levels of the last 2 s of meter blocks, `samples` its history, the newest first, `ramp` the samples still to come
of a fade-in, and `lostAt` when its source was lost, since when it carries zeros. -/
structure AudioSource where
  nonPcm : Bool := false
  measured : Bool := false
  lockedTo : List Nat := []
  burst : Nat := 0
  ppm : Int := 0
  concealed : Nat := 0
  changes : Nat := 0
  level : Int := -1000
  recent : List Int := []
  clipped : Bool := false
  samples : List (BitVec 24) := []
  ramp : Nat := 0
  lostAt : Option Nat := none
  deriving DecidableEq, Repr

/-- State of an audio destination channel (R344-R368): the entry last committed and the one in force, the source channel
it reads, and its reading. -/
structure AudioDest where
  committed : Bytes := []
  entry : Bytes := []
  source : Option Nat := none
  fading : Bool := false
  asrc : Option Nat := none
  wanted : Bool := false
  floorHit : Bool := false
  unlocked : Bool := false
  clamped : Bool := false
  rateRange : Bool := false
  latencyNs : Nat := 0
  clips : Nat := 0
  slips : Nat := 0
  burstSlips : Nat := 0
  realigns : Nat := 0
  crossfades : Nat := 0
  jumps : Nat := 0
  level : Int := -1000
  recent : List Int := []
  clipped : Bool := false
  deriving DecidableEq, Repr

/-- A binding of AUDIO.FLOW_MAP, by 256 × KIND + INDEX (R342). -/
structure FlowBind where
  base : Nat
  count : Nat
  deriving DecidableEq, Repr

/-- The audio engine beside its channels. -/
structure Audio where
  sources : Tab AudioSource := []
  dests : Tab AudioDest := []
  embed : Tab Nat := []
  embedForce : Tab Nat := []
  companions : Tab FlowBind := []
  binds : Tab FlowBind := []
  tones : Tab Bytes := []
  lastBlock : Nat := 0
  deriving DecidableEq, Repr

/-! ### Serial audio ports (13) -/

/-- State of an audio port (R375). -/
inductive PortRun where
  | off
  | noClock
  | locking
  | running
  deriving DecidableEq, Repr

/-- One serial audio port: its configuration as AUDIOPORT.CONFIG lays it out, committed and in force, and its state. -/
structure AudioPort where
  committed : Bytes := []
  config : Bytes := []
  state : PortRun := .off
  changeAt : Option Nat := none
  stepDue : Option Int := none
  good : Nat := 0
  bad : Nat := 0
  previous : List (BitVec 24) := []
  ppm : Int := 0
  reported : Option Int := none
  tolRun : Nat := 0
  bclkKhz : Nat := 0
  frameErrors : Nat := 0
  rateChanges : Nat := 0
  alignSteps : Nat := 0
  alignOffset : Int := 0
  alignRun : Nat := 0
  afsAbsent : Bool := false
  aligned : Bool := false
  frames : Nat := 0
  deriving DecidableEq, Repr


/-! ### Host audio capture (13) -/

/-- One capture stream (R383-R386): its configuration as AUDIOPORT.CAPTURE lays it out, the number of the next block's
first frame, the complete blocks not yet delivered (first frame and bytes), and whether frames were lost before the next
block it delivers. -/
structure Capture where
  enabled : Bool := false
  config : Bytes := []
  sampleCount : Nat := 0
  blocks : List (Nat × Bytes) := []
  overruns : Nat := 0
  gap : Bool := false
  deriving DecidableEq, Repr
/-! ### Reference engines (14) -/

/-- State of a reference engine (R401). -/
inductive RefState where
  | freeRun
  | acquiring
  | locked
  | holdover
  | lost
  deriving DecidableEq, Repr

/-- What is measured of one candidate of an engine (R396, R407): `offset` is the phase of its instants against the
alignment points of device time, `syncBw` a quarter of a PTP candidate's Sync rate in 0.1 Hz (R400). -/
structure Candidate where
  quality : Nat := 0
  waiting : Bool := false
  syncBw : Nat := 20
  ptpClass : Nat := 0
  offset : Int := 0
  freq : Int := 0
  losses : Nat := 0
  deriving DecidableEq, Repr

/-- One reference engine: its configuration (REFERENCE.CONFIG's 152 bytes), the one that waits for the next tick, and
the servo's state. `time` is the engine's offset from device time (R390). -/
structure RefEngine where
  config : Bytes := []
  pending : Option Bytes := none
  state : RefState := .freeRun
  selected : Option Nat := none
  candidates : Tab Candidate := []
  holdoverReady : Bool := false
  holdoverExpired : Bool := false
  slewing : Bool := false
  bandwidth : Nat := 0
  freq : Int := 0
  estimate : Int := 0
  phase : Int := 0
  offset : Int := 0
  drift : Int := 0
  shown : Int := 0
  shownDrift : Int := 0
  since : Nat := 0
  trackTicks : Nat := 0
  lockTicks : Nat := 0
  halveTicks : Nat := 0
  history : List Int := []
  lastKind : Nat := 0
  holdoverStart : Nat := 0
  jumps : Nat := 0
  switchovers : Nat := 0
  deriving DecidableEq, Repr

/-- An analog reference input (0, 1) or an external clock input (2, 3): its configuration (REFERENCE.INPUT's 24 bytes)
and what it detects (R407). -/
structure RefInput where
  config : Bytes := []
  state : Nat := 0
  mode : Nat := 0
  format : Bytes := []
  noise : Nat := 0
  losses : Nat := 0
  deriving DecidableEq, Repr

/-- A clean clock output (R405). -/
structure ClkOut where
  enable : Bool := false
  engine : Nat := 0
  freq : Nat := 0
  running : Bool := false
  deriving DecidableEq, Repr

/-- Reference timing as a whole. `measured` holds what was last measured of each candidate, one measurement for all the
engines that name it (R392). -/
structure Refs where
  engines : Tab RefEngine := []
  measured : List CandidateFacts := []
  inputs : Tab RefInput := []
  clkouts : Tab ClkOut := []
  timeSource : Option Nat := none
  pendingSource : Option (Option Nat) := none
  shareMode : Nat := 0
  shareEngine : Nat := 0
  deriving DecidableEq, Repr

/-! ### Network ports and flows (15) -/

/-- Link state of a network port (R410). -/
inductive NetState where
  | down
  | noSignal
  | aligning
  | localFault
  | remoteFault
  | up
  deriving DecidableEq, Repr

/-- An entry of a port's ARP cache (R412), by next-hop address: the MAC address once resolved, and whether NET_ADDRESS has
been raised for it. -/
structure ArpEntry where
  mac : Option Nat := none
  raised : Bool := false
  deriving DecidableEq, Repr

/-- One network port (R409-R413, R440). `reports` lists the groups joined, each with the unsolicited IGMP reports still to
send; `offCount` and `icmpCount` are the packets the offload engine took in device second `offSecond`; `reported` holds the
drop counters as the last NET_DROP records left them. -/
structure NetPort where
  config : Bytes := []
  link : NetState := .down
  present : Bool := false
  intAsserted : Bool := false
  igmpV2 : Bool := false
  linkLosses : Nat := 0
  rx : Nat := 0
  tx : Nat := 0
  fecCorrected : Nat := 0
  fecUncorrected : Nat := 0
  fcs : Nat := 0
  unmatched : Nat := 0
  oversize : Nat := 0
  nonIpv4 : Nat := 0
  malformedIp : Nat := 0
  offloadDrops : Nat := 0
  reported : List Nat := []
  arp : Tab ArpEntry := []
  reports : Tab Nat := []
  offSecond : Nat := 0
  offCount : Nat := 0
  icmpCount : Nat := 0
  resetPin : Bool := true
  lowPower : Bool := false
  deriving DecidableEq, Repr

/-- One leg of a flow: the fill of its token bucket below its depth, in 10⁻¹¹ bytes, at instant `since` (R418), whether
it is live (R430), and the packets it passed or sent. -/
structure Leg where
  used : Nat := 0
  since : Nat := 0
  live : Bool := false
  packets : Nat := 0
  deriving DecidableEq, Repr

/-- A packet held in the flow buffer (R420): its sequence number, extended timestamp, first line, size and samples. -/
structure HeldPacket where
  seq : Nat
  time : Nat
  line : Nat
  field2 : Bool
  bytes : Nat
  data : Bytes
  deriving DecidableEq, Repr

/-- A move on its way (R437): the configuration it brings, the first extended timestamp on the new legs of a receive flow,
or the instant from which a send flow may take it, and its generation. -/
structure FlowMove where
  config : Bytes
  first : Nat
  gen : Nat
  deriving DecidableEq, Repr

/-- One flow, by 1024 × DIR + 256 × KIND + INDEX (R415-R442). `config` is in force, `pending` a rule change that waits for
its boundary (from `pendingAt` on, for a send flow); `legs` is by port; `newest` is H of R419 and `seen` the sequence
numbers held or released; `frameTime` is the extended timestamp of the frame being released, and `released` the newest
sequence number released; `moveFrame` is the timestamp of M of the last move while no gap of it has been counted. -/
structure Flow where
  config : Bytes := []
  pending : Option Bytes := none
  pendingAt : Nat := 0
  moving : Option FlowMove := none
  placement : Nat := 0
  legs : Tab Leg := []
  newest : Option Nat := none
  seen : List Nat := []
  reorderRun : Nat := 0
  held : List HeldPacket := []
  frameTime : Option Nat := none
  released : Option Nat := none
  moveFrame : Option Nat := none
  frameFirst : Option Nat := none
  frameOf : Option Nat := none
  packets : Nat := 0
  duplicates : Nat := 0
  policed : Nat := 0
  quotaDrops : Nat := 0
  reorderDrops : Nat := 0
  late : Nat := 0
  missing : Nat := 0
  malformed : Nat := 0
  jumps : Nat := 0
  stale : Nat := 0
  moveGaps : Nat := 0
  sendFaults : Nat := 0
  resyncs : Nat := 0
  lastTime : Nat := 0
  sendSeq : Nat := 0
  reported : List Nat := []
  deriving DecidableEq, Repr
/-! ### The Adit link (16) -/

/-- State of the link (R446). -/
inductive AditState where
  | down
  | training
  | up
  | spared
  | failed
  deriving DecidableEq, Repr

/-- One tie line in one direction, by 32 × DIR + TIE (R449-R457). `state` is STATE of ADIT.TIE_STATUS. -/
structure Tie where
  config : Bytes := []
  pending : Option Bytes := none
  state : Nat := 0
  ancCharged : Nat := 0
  ancDropped : Nat := 0
  linesLost : Nat := 0
  frames : Nat := 0
  deriving DecidableEq, Repr

/-- The link. `announced` is the partner's allocation of each tie line (FORMAT and ANC_QUOTA), as its control blocks say. -/
structure Adit where
  enable : Bool := false
  autoAlign : Bool := false
  mask : Nat := 0xFF
  link : AditState := .down
  inService : Nat := 0
  partnerAligned : Bool := false
  partnerLost : Nat := 0
  epoch : Nat := 0
  pendingEpoch : Bool := false
  laneLosses : Nat := 0
  periods : Nat := 0
  slotsRx : Nat := 0
  announced : Tab Bytes := []
  rxEpoch : Nat := 0
  ties : Tab Tie := []
  seeds : Tab (BitVec 31) := []
  deriving DecidableEq, Repr


/-! ### Ledger and power domains (17) -/

/-- One rail of the ledger (R459): its soft ceiling, over state and sample counts (R471-R475), and the peaks kept for
each port's LEDGER.STATUS (R484). `state` is STATE of the rail record: 0 normal, 1 over, 2 shedding, 3 exhausted. -/
structure Rail where
  soft : Nat := 0
  softIgnored : Bool := false
  state : Nat := 0
  overRun : List Nat := []
  shedGen : Option Nat := none
  clearRun : Nat := 0
  window : List Nat := []
  drift : Bool := false
  belowRun : Nat := 0
  measured : Nat := 0
  peakA : Nat := 0
  peakB : Nat := 0
  deriving DecidableEq, Repr

/-- State of a gateable domain (R476). -/
inductive DomainState where
  | off
  | waking
  | quiet
  | on
  | close
  | drain
  deriving DecidableEq, Repr

/-- One gateable domain (R476-R482). `cut` is set from CUT to OFF (R478); `idle` while a delayed power-down is pending
(R477). -/
structure Domain where
  state : DomainState := .off
  mode : Nat := 0
  epoch : Nat := 0
  spoil : Nat := 0
  stale : Nat := 0
  powerUps : Nat := 0
  since : Nat := 0
  cut : Bool := false
  idle : Bool := false
  deriving DecidableEq, Repr
/-! ### Start-up, firmware, fuses, standby (20, 21, 22) -/

/-- Straps as sampled, fuse overrides applied (R515). -/
structure Straps where
  bootSrc : Nat := 0
  portA : Bool := true
  portB : Bool := true
  quad : Bool := true
  fuseSense : Bool := false
  deriving DecidableEq, Repr

/-- One firmware slot of the QSPI flash (R521, R539): the package last written to it, and what the boot record says. -/
structure FwSlot where
  valid : Bool := false
  written : Bool := false
  retired : Bool := false
  erases : Nat := 0
  package : Bytes := []
  deriving DecidableEq, Repr

/-- One item of a settings snapshot (R518, R535): a soft ceiling, a command that sets a committed configuration, the
contents of a host table, or the power-up routes. -/
inductive SavedItem where
  | soft (rail value : Nat)
  | command (opcode : Nat) (payload : Bytes)
  | table (key taps : Nat) (data : Bytes)
  | routes (entries : List Bytes)
  deriving DecidableEq, Repr

/-- A settings snapshot (R535): its format and sequence number, its items in the order of R518, and the host data. -/
structure Snapshot where
  format : Nat := 0
  seq : Nat := 0
  items : List SavedItem := []
  host : Bytes := []
  deriving DecidableEq, Repr

/-- STATE of FW.STATUS (R539). -/
inductive FwState where
  | idle
  | installing
  | activating
  | updating
  | selfCheck
  | awaitConfirm
  | reverting
  deriving DecidableEq, Repr

/-- Where start-up stands (R516, R519, R544). -/
inductive BootPhase where
  | inReset
  | rom
  | portWait (port : Port)
  | foreman
  | running
  | fuseSense
  | halted
  deriving DecidableEq, Repr

/-- What the stages that are running bring about (R527, R531, R532): an activation, the restoration after a stage that
did not confirm, or a fallback with its result code. -/
inductive FwPlan where
  | none
  | activate
  | restore
  | revert (result : Nat)
  deriving DecidableEq, Repr

/-- The always-on island (R550): whether VSTBY is present, the 256 bytes of the return note (unlisted bytes are 0),
MAIN_PWR_EN, and an nWAKE that fell before MAIN_PWR_EN had been low for 100 ms (R552). -/
structure Island where
  powered : Bool := true
  note : Bytes := []
  mainPwrEn : Bool := true
  wakePending : Bool := false
  deriving DecidableEq, Repr

/-- What the release 3.1 package of the boot slot is at reset (DESIGN CHOICE, log entry 45): header, four components of
version 3.1 and of no bytes, each running beside any other, and a signature field. -/
def factoryPackage : Bytes :=
  let entry := fun (kind : Byte) => ([kind, 0, 0, 0, 0, 0, 1, 3, 0, 1, 0, 0, 0, 0, 0, 0] : Bytes) ++
    (List.replicate 4 ([0, 0, 0, 0, 255, 255, 255, 255] : Bytes)).flatten
  [0x47, 0x4E, 0x4F, 0x4C, 1, 0, 4, 0, 0x40, 1, 0, 0, 0, 0, 0, 0, 0, 0, 1, 3, 3, 0, 0xB0, 0, 1, 0, 1, 0, 1, 0, 1, 0] ++
    List.replicate 32 0 ++ entry 1 ++ entry 2 ++ entry 3 ++ entry 4 ++ List.replicate 64 0

/-- What the QSPI flash keeps (R520-R522, R535, R536, R538): the boot record, whose newest entry has SEQUENCE `record`, the two
slots and the two settings areas. -/
structure Flash where
  genFloor : Nat := 0
  confirmed : Option Nat := some 0
  trial : Option Nat := none
  bootOnce : Bool := false
  locked : Bool := false
  lockDigest : Bytes := []
  healthS : Nat := 300
  slot0 : FwSlot := { valid := true, written := true, package := factoryPackage }
  slot1 : FwSlot := {}
  record : Nat := 0
  erase0 : Nat := 0
  erase1 : Nat := 0
  retired0 : Bool := false
  retired1 : Bool := false
  area0 : Option Snapshot := none
  area1 : Option Snapshot := none
  deriving DecidableEq, Repr

/-- Firmware as it runs: lost at a device reset. `header` is that of the running package, `versions` the versions of the
four running components by kind; `target`, `stages` and `replaced` are of the stages that run (R527); `install` is the
package that is being installed, with its slot and the generation of its command (R526); `planGen` and `saveGens` are the
generations of the commands whose stages, or whose save, are not over; `fuseMap` is the fuse map as the ROM read it at this
start-up (R542); `stageAt` is the uptime at which the running stage started. -/
structure Firmware where
  phase : BootPhase := .inReset
  fuseMap : List Host.Cell := []
  straps : Straps := {}
  remap : Bool := false
  running : Option Nat := none
  header : Bytes := []
  versions : List Nat := []
  state : FwState := .idle
  plan : FwPlan := .none
  target : Nat := 0
  targetHeader : Bytes := []
  stages : List Nat := []
  stageAt : Nat := 0
  replaced : List Nat := []
  lastResult : Nat := 0
  fallback : Bool := false
  cold : Bool := false
  windowEnd : Option Nat := none
  install : Option (Nat × Nat × Bytes) := none
  planGen : Nat := 0
  saveGens : List Nat := []
  resetDue : Bool := false
  snapshot : Option Snapshot := none
  waitingSave : Option Snapshot := none
  saveInterval : Bool := false
  defaulted : Bool := false
  skipped : Nat := 0
  lastSave : Nat := 0
  standby : Option (Nat × Bytes × Nat × Nat) := none
  noteWritten : Bool := false
  mainRails : Bool := true
  deriving DecidableEq, Repr


/-! ### The TAP (R547, R572) -/

/-- The states of the TAP controller of IEEE 1149.1. -/
inductive TapState where
  | testLogicReset | runTestIdle
  | selectDr | captureDr | shiftDr | exit1Dr | pauseDr | exit2Dr | updateDr
  | selectIr | captureIr | shiftIr | exit1Ir | pauseIr | exit2Ir | updateIr
  deriving DecidableEq, Repr

/-- Instructions of IEEE 1149.1 and 1149.6 by name: the manual gives no codes (log entry 51). -/
inductive TapInstruction where
  | bypass | samplePreload | extest | extestPulse | extestTrain
  deriving DecidableEq, Repr

/-- The boundary-scan TAP: its controller, its instruction, the bypass register, and the instruction and boundary registers as
lists of bits, the one nearest TDO first. -/
structure Tap where
  state : TapState := .testLogicReset
  instruction : TapInstruction := .bypass
  bypass : Bool := false
  ir : List Bool := []
  boundary : List Bool := []
  deriving DecidableEq, Repr

/-! ### The machine -/

/-- The family's ordering codes (R1). -/
inductive Product where
  | cb
  | eb
  | p1264
  deriving DecidableEq, Repr

/-- The whole machine: the model's queue of commands first, then every unit of the manual. -/
structure State where
  /-- Commands that wait, first in first out (the model's own). -/
  pending : List Instr := []
  /-- Which free value comes next: the model's own counter, read and advanced where the manual leaves a value open
  (log entry 2). -/
  free : Nat := 0
  /-- Device time in nanoseconds (R84), its value at READY, and the time since READY, which no step of device time moves
  (R97). -/
  now : Nat := 0
  readyAt : Nat := 0
  uptime : Nat := 0
  product : Product := .cb
  ready : Bool := false
  updating : Bool := false
  pwrWarn : Bool := false
  bootWait : Bool := false
  fuseSense : Bool := false
  fm : Foreman := {}
  portA : PortState := {}
  portB : PortState := {}
  eventsA : EventCounts := {}
  eventsB : EventCounts := {}
  tieFirst : Port := .a
  sems : Tab SemCell := []
  channels : Tab Channel := []
  lanes : Tab Lane := []
  groups : Tab TxGroup := []
  sources : Tab Source := []
  store : Store := {}
  captures : Tab Capture := []
  triggers : List (Nat × Nat) := []
  gpioEdge : Tab Bool := []
  routes : Tab Route := []
  salvos : Tab Salvo := []
  finishedSalvos : List Nat := []
  nextSalvo : Nat := 0
  tally : Tab TallyMap := []
  gpioIn : Tab Bool := []
  gpioOut : List Nat := []
  spares : Nat := 1
  crushers : Tab Crusher := []
  contexts : Tab Context := []
  conv : Tab ConvCounts := []
  tables : Tab HostTable := []
  profiles : Tab Bytes := []
  tableChanges : List TableChange := []
  outputs : Tab Output := []
  ashlars : Tab Ashlar := []
  audio : Audio := {}
  aports : Tab AudioPort := []
  refs : Refs := {}
  netPorts : Tab NetPort := []
  flows : Tab Flow := []
  adit : Adit := {}
  island : Island := {}
  fw : Firmware := {}
  flash : Flash := {}
  rails : Tab Rail := []
  domains : Tab Domain := []
  fuses : List Host.Cell := []
  tap : Tap := {}
  deriving DecidableEq, Repr

/-- The machine in a device reset (R546): nRESET is low, and the boot ROM starts when it rises (NRESET_RISE). -/
def State.reset : State := {}

/-- Why the machine stops with a fault. -/
inductive Fault where
  /-- The machine has no fault of its own: every error of the manual is a status, an event or a counter (R96). No
  command raises it; safe. -/
  | none
  deriving DecidableEq, Repr

/-- Why a command has no meaning. -/
inductive Refusal where
  /-- The command has no meaning in the model yet; raised by `exec` alone, and safe. -/
  | notModelled (mnemonic : String)
  deriving DecidableEq, Repr

end Sys2Proof.Machine
end

