-- ==== Sys2Proof/Machine/Table.lean ====
section
/-! DEFINITION. Operations on tables and on byte memories: reading a unit of a table at its reset value when it is not
listed, writing it, and the byte memory in its canonical form (addresses strictly rising, no listed byte equal to what
an unlisted address reads as). -/

namespace Sys2Proof.Machine

/-- The entry of unit `k`, or `d` (its reset value) when the table does not list it. -/
def Tab.get {α : Type} : Tab α → Nat → α → α
  | [], _, d => d
  | (j, v) :: t, k, d => if j = k then v else if k < j then d else Tab.get t k d

/-- Whether the table lists unit `k`. -/
def Tab.has {α : Type} : Tab α → Nat → Bool
  | [], _ => false
  | (j, _) :: t, k => if j = k then true else if k < j then false else Tab.has t k

/-- The table with unit `k` standing at `v`. -/
def Tab.set {α : Type} : Tab α → Nat → α → Tab α
  | [], k, v => [(k, v)]
  | (j, w) :: t, k, v =>
    if j = k then (k, v) :: t else if k < j then (k, v) :: (j, w) :: t else (j, w) :: Tab.set t k v

/-- The table without unit `k`, which then stands at its reset value. -/
def Tab.erase {α : Type} (t : Tab α) (k : Nat) : Tab α := t.filter fun p => p.1 != k

/-- The numbers a table lists. -/
def Tab.keys {α : Type} (t : Tab α) : List Nat := t.map (·.1)

/-- The table with every listed unit changed by `f`. -/
def Tab.mapAll {α : Type} (t : Tab α) (f : Nat → α → α) : Tab α := t.map (fun p => (p.1, f p.1 p.2))

/-! ### Byte memory -/

/-- What a byte of memory that nothing has written reads as: 0 (DESIGN CHOICE, log entry 5: the manual gives RAM no
contents at reset). -/
def memDefault : Byte := 0

/-- The byte at address `a`. -/
def Memory.read : List Host.Cell → Nat → Byte
  | [], _ => memDefault
  | (b, v) :: m, a => if b = a then v else if a < b then memDefault else Memory.read m a

/-- The memory with byte `v` at address `a`, in canonical form. -/
def Memory.write : List Host.Cell → Nat → Byte → List Host.Cell
  | [], a, v => if v = memDefault then [] else [(a, v)]
  | (b, w) :: m, a, v =>
    if b = a then (if v = memDefault then m else (a, v) :: m)
    else if a < b then (if v = memDefault then (b, w) :: m else (a, v) :: (b, w) :: m)
    else (b, w) :: Memory.write m a v

/-- The string of `n` bytes from address `a`. -/
def Memory.readBytes (m : List Host.Cell) (a : Nat) : Nat → Bytes
  | 0 => []
  | n + 1 => Memory.read m a :: Memory.readBytes m (a + 1) n

/-- The memory with the string stored from address `a`. -/
def Memory.writeBytes (m : List Host.Cell) (a : Nat) : Bytes → List Host.Cell
  | [] => m
  | v :: bs => Memory.writeBytes (Memory.write m a v) (a + 1) bs

/-- Every listed address is above `lo` and rises from there, and no listed byte is the default. -/
def Memory.wfFrom : Nat → List Host.Cell → Bool
  | _, [] => true
  | lo, (a, v) :: m => decide (lo ≤ a) && decide (v ≠ memDefault) && Memory.wfFrom (a + 1) m

/-- The canonical form of a byte memory. -/
def Memory.wf (m : List Host.Cell) : Bool := Memory.wfFrom 0 m

end Sys2Proof.Machine
end

