-- ==== Sys2Proof/Machine/Flags.lean ====
section
/-! DEFINITION. Bit fields, byte order, saturation and the header flags of a command (R8, R69, R91). -/

namespace Sys2Proof.Machine

/-- Bit `i` of a word. -/
def bit (n i : Nat) : Bool := n / 2 ^ i % 2 == 1

/-- Bits `hi` down to `lo` of a word. -/
def bits (n hi lo : Nat) : Nat := n / 2 ^ lo % 2 ^ (hi + 1 - lo)

/-- A Boolean as a bit. -/
def flag (b : Bool) : Nat := if b then 1 else 0

/-- One more, saturating at the top of an `n`-bit counter. -/
def satInc (n v : Nat) : Nat := min (v + 1) (2 ^ n - 1)

/-- A sum that saturates at the top of an `n`-bit counter. -/
def satAdd (n v d : Nat) : Nat := min (v + d) (2 ^ n - 1)

/-- Serial-number distance of R90 and R91: (b − a) mod 2ⁿ. -/
def serialDist (n a b : Nat) : Nat := (b + 2 ^ n - a % 2 ^ n) % 2 ^ n

/-- R91: `b` is later than `a`. -/
def serialLater (n a b : Nat) : Bool := 1 ≤ serialDist n a b && serialDist n a b ≤ 2 ^ (n - 1) - 1

/-- The value of byte `i` of a string; a byte beyond its end is 0. -/
def u8 (b : Bytes) (i : Nat) : Nat := (b.getD i 0).toNat

/-- Little-endian fields of 2, 4, 6 and 8 bytes at offset `i` (R8). -/
def u16 (b : Bytes) (i : Nat) : Nat := u8 b i + 256 * u8 b (i + 1)

def u32 (b : Bytes) (i : Nat) : Nat := u16 b i + 65536 * u16 b (i + 2)

def u48 (b : Bytes) (i : Nat) : Nat := u32 b i + 4294967296 * u16 b (i + 4)

def u64 (b : Bytes) (i : Nat) : Nat := u32 b i + 4294967296 * u32 b (i + 4)

/-- A field of `n` bytes read as a signed number. -/
def signed (n v : Nat) : Int := if v < 2 ^ (8 * n - 1) then (v : Int) else (v : Int) - (2 ^ (8 * n) : Nat)

/-- The `n` bytes of a number, least significant first (R8). -/
def le : Nat → Nat → Bytes
  | 0, _ => []
  | n + 1, v => BitVec.ofNat 8 v :: le n (v / 256)

/-- The `n` bytes of a signed number, in two's complement. -/
def leInt (n : Nat) (v : Int) : Bytes := le n (v % ((2 ^ (8 * n) : Nat) : Int)).toNat

/-- `n` zero bytes: a reserved field of a response. -/
def zeros (n : Nat) : Bytes := List.replicate n 0

/-- `n` bytes of a string from offset `i`; bytes beyond its end are 0. -/
def sub (b : Bytes) (i : Nat) : Nat → Bytes
  | 0 => []
  | n + 1 => b.getD i 0 :: sub b (i + 1) n

/-- Whether `n` bytes from offset `i` are all 0: the test of a reserved field (R11). -/
def zeroAt (b : Bytes) (i : Nat) : Nat → Bool
  | 0 => true
  | n + 1 => u8 b i == 0 && zeroAt b (i + 1) n

/-- The all-ones EFFECT (R71). -/
def noEffect : Nat := 0xFFFFFFFFFFFFFFFF

/-- A 64-bit field that is all ones when there is no value (R71, R510). -/
def orOnes : Option Nat → Nat
  | some v => v
  | none => noEffect

/-- Header flags (R69). -/
def flagGenCheck : Nat := 0x01
def flagTarget : Nat := 0x06
def flagStrict : Nat := 0x08
def flagAwait : Nat := 0x10
def flagForce : Nat := 0x20
def flagValidate : Nat := 0x40

/-- What every state-changing command accepts (R69). -/
def flagsChange : Nat := 0x51

/-- FORCE beside them. -/
def flagsForce : Nat := 0x71

/-- A change that takes a target (R83): TARGET_KIND and STRICT beside the flags of every change. -/
def flagsTarget : Nat := 0x5F

/-- Target and FORCE both. -/
def flagsAll : Nat := 0x7F

/-- Status codes (R96, R597). -/
def stOK : Nat := 0x0000
def stQUEUED : Nat := 0x0001
def stLATE : Nat := 0x0002
def stSTALE : Nat := 0x0101
def stNOT_OWNER : Nat := 0x0102
def stNO_BANDWIDTH : Nat := 0x0103
def stNO_ENGINE : Nat := 0x0104
def stNO_CURRENT : Nat := 0x0105
def stFORMAT_MISMATCH : Nat := 0x0106
def stROUTED : Nat := 0x0107
def stREFUSED_LIVE : Nat := 0x0108
def stREFUSED_SUPPLY : Nat := 0x0109
def stREFUSED_LOCK : Nat := 0x010A
def stFUSES_SPENT : Nat := 0x010B
def stCANCELLED : Nat := 0x010C
def stBAD_OPCODE : Nat := 0x0201
def stBAD_ARGUMENT : Nat := 0x0202
def stUPDATING : Nat := 0x0301
def stBUSY_DRAIN : Nat := 0x0302
def stINTERNAL_FAULT : Nat := 0x0303

end Sys2Proof.Machine
end

