-- ==== Sys2Proof/Machine/Operands.lean ====
section
/-! DEFINITION. The operand forms of the manual: object, lane and domain identifiers (R12, R102, R30), the format
descriptor and everything that follows from it (R132, R598, R171-R175), fence descriptors (R186), refusal records (R72)
and the header of a command (R68). -/

namespace Sys2Proof.Machine

/-! ### Refusal records -/

/-- BAD_ARGUMENT naming the field at payload offset `off` (R72 counts from the start of the command). -/
def badArg (off : Nat) : Nack := { status := stBAD_ARGUMENT, field := 32 + off }

/-- BAD_ARGUMENT naming an item and its field. -/
def badItem (item off : Nat) : Nack := { status := stBAD_ARGUMENT, item := item, field := 32 + off }

/-- BAD_ARGUMENT as a whole, with ITEM and FIELD 0xFFFF. -/
def badWhole : Nack := { status := stBAD_ARGUMENT }

/-- A refusal with a status and the object it concerns. -/
def refuse (status object : Nat) : Nack := { status := status, object := object }

/-- The first refusal of a list of checks (R74: the first check that fails). -/
def firstOf : List (Option Nack) → Option Nack
  | [] => none
  | some n :: _ => some n
  | none :: t => firstOf t

/-- A refusal when a condition fails. -/
def need (ok : Bool) (n : Nack) : Option Nack := if ok then none else some n

/-- The 16 bytes of a refusal record (R72). -/
def nackBytes (n : Nack) : Bytes :=
  le 2 n.item ++ le 2 n.object ++ le 2 n.field ++ le 1 n.rail ++ zeros 1 ++ le 4 n.shortfall ++ zeros 4

/-! ### Products and identifiers -/

/-- Whether the product is the 1264 (R2). -/
def isSmall (p : Product) : Bool := p == .p1264

/-- How many units of a kind the product has: the 1288's count, or half of it on a 1264 (R2, R3). -/
def unitCount (p : Product) (full : Nat) : Nat := if isSmall p then full / 2 else full

/-- SDI inputs, and SDI outputs, of the product. -/
def sdiCount (p : Product) : Nat := unitCount p 128

/-- A source identifier that is assigned and present (R4, R12, R13). -/
def validSource (p : Product) (i : Nat) : Bool :=
  decide (i < sdiCount p) || (decide (0x80 ≤ i) && decide (i < 0x80 + unitCount p 64)) ||
  (decide (0xC0 ≤ i) && decide (i < 0xC0 + unitCount p 8)) || (decide (0xC8 ≤ i) && decide (i < 0xE0)) ||
  (decide (0x100 ≤ i) && decide (i < 0x120))

/-- A destination identifier that is assigned and present. -/
def validDest (p : Product) (i : Nat) : Bool :=
  decide (i < sdiCount p) || (decide (0x80 ≤ i) && decide (i < 0x80 + unitCount p 64)) ||
  (decide (0xC0 ≤ i) && decide (i < 0xC0 + unitCount p 8)) || (decide (0x100 ≤ i) && decide (i < 0x120))

/-- The kinds of source. -/
def isSdi (i : Nat) : Bool := decide (i < 0x80)
def isIp (i : Nat) : Bool := decide (0x80 ≤ i) && decide (i < 0xC0)
def isAshlarObj (i : Nat) : Bool := decide (0xC0 ≤ i) && decide (i < 0xC8)
def isPattern (i : Nat) : Bool := decide (0xC8 ≤ i) && decide (i < 0xD0)
def isHostSource (i : Nat) : Bool := decide (0xD0 ≤ i) && decide (i < 0xE0)
def isTie (i : Nat) : Bool := decide (0x100 ≤ i) && decide (i < 0x120)

/-- A source the Weighbridge weighs (R130). -/
def isWeighed (p : Product) (i : Nat) : Bool := validSource p i && (isSdi i || isIp i || isHostSource i)

/-- The set of a lane identifier and its index (R102). -/
def laneSet (id : Nat) : Nat := id / 256
def laneIndex (id : Nat) : Nat := id % 256

/-- A lane identifier that is assigned and present (R102, R4). -/
def validLane (p : Product) (id : Nat) : Bool :=
  match laneSet id with
  | 0 => decide (laneIndex id < sdiCount p)
  | 1 => decide (laneIndex id < sdiCount p)
  | 2 => decide (laneIndex id < unitCount p 16)
  | 3 => decide (laneIndex id < unitCount p 16)
  | 4 => decide (laneIndex id < 8)
  | 5 => decide (laneIndex id < 8)
  | _ => false

/-- Receive lanes are the even sets. -/
def isRxLane (id : Nat) : Bool := laneSet id % 2 == 0

/-- The power domain of a lane (R102). -/
def laneDomain (id : Nat) : Nat :=
  match laneSet id with
  | 0 => 0x10 + laneIndex id / 8
  | 1 => 0x10 + laneIndex id / 8
  | 2 => 0x48 + laneIndex id / 4
  | 3 => 0x48 + laneIndex id / 4
  | _ => 0x4E

/-- A gateable domain that is present (R30, R31, R4). -/
def validDomain (p : Product) (d : Nat) : Bool :=
  (decide (0x10 ≤ d) && decide (d < 0x10 + unitCount p 16)) ||
  (decide (0x20 ≤ d) && decide (d < 0x20 + unitCount p 32)) ||
  (decide (0x40 ≤ d) && decide (d < 0x40 + unitCount p 8)) ||
  (decide (0x48 ≤ d) && decide (d < 0x48 + unitCount p 4)) || (decide (0x4C ≤ d) && decide (d < 0x4F))

/-- The key of a bench: its owner, with bit 15 set for a destination bench (R174, as in BENCH_SKIP's instance). -/
def benchKey (owner : Nat) (dest : Bool) : Nat := owner + (if dest then 0x8000 else 0)

/-! ### The format descriptor (R132) -/

def fmtWidth (f : Bytes) : Nat := u16 f 0
def fmtHeight (f : Bytes) : Nat := u16 f 2
def fmtRate (f : Bytes) : Nat := u8 f 4
def fmtScan (f : Bytes) : Nat := u8 f 5
def fmtSampling (f : Bytes) : Nat := u8 f 6
def fmtDepth (f : Bytes) : Nat := u8 f 7
def fmtColour (f : Bytes) : Nat := u8 f 8
def fmtTransfer (f : Bytes) : Nat := u8 f 9
def fmtRange (f : Bytes) : Nat := u8 f 10
def fmtLink (f : Bytes) : Nat := u8 f 11

/-- The offset, within the descriptor, of the first field outside its values; `none` when every field is in range. -/
def fmtBadField (f : Bytes) : Option Nat :=
  if !([720, 1280, 1920, 3840, 7680].contains (fmtWidth f)) then some 0
  else if !([486, 576, 720, 1080, 2160, 4320].contains (fmtHeight f)) then some 2
  else if fmtRate f = 0 ∨ 13 < fmtRate f then some 4
  else if 2 < fmtScan f then some 5
  else if 2 < fmtSampling f then some 6
  else if fmtDepth f ≠ 10 ∧ fmtDepth f ≠ 12 then some 7
  else if 2 < fmtColour f then some 8
  else if 2 < fmtTransfer f then some 9
  else if 1 < fmtRange f then some 10
  else if 3 < fmtLink f then some 11
  else if !(zeroAt f 12 4) then some 12
  else none

/-- RATE as a fraction: frames or fields per second, numerator and denominator. -/
def rateNum : Nat → Nat
  | 1 => 24000
  | 2 => 24
  | 3 => 25
  | 4 => 30000
  | 5 => 30
  | 6 => 48000
  | 7 => 48
  | 8 => 50
  | 9 => 60000
  | 10 => 60
  | 11 => 100
  | 12 => 120000
  | 13 => 120
  | _ => 0

def rateDen : Nat → Nat
  | 1 => 1001
  | 4 => 1001
  | 6 => 1001
  | 9 => 1001
  | 12 => 1001
  | _ => 1

/-- Frames per second as a fraction: half of RATE when interlaced (R132). -/
def fpsNum (f : Bytes) : Nat := rateNum (fmtRate f)
def fpsDen (f : Bytes) : Nat := rateDen (fmtRate f) * (if fmtScan f = 1 then 2 else 1)

/-- `n` units in each frame as a rate per second, rounded up. -/
def perSecond (f : Bytes) (n : Nat) : Nat := (n * fpsNum f + fpsDen f - 1) / fpsDen f

/-- TF in nanoseconds (R7), rounded down; 0 for a descriptor without a rate. -/
def frameNs (f : Bytes) : Nat := 1000000000 * fpsDen f / fpsNum f

/-- Total lines per frame (R132); a 4320-line format takes those of its link raster. -/
def totalLines (f : Bytes) : Nat :=
  match fmtHeight f with
  | 486 => 525
  | 576 => 625
  | 720 => 750
  | 1080 => 1125
  | _ => 2250

/-- Active lines of the line raster: those of the link for a 4320-line format. -/
def rasterLines (f : Bytes) : Nat := if fmtHeight f = 4320 then 2160 else fmtHeight f

/-- TL in nanoseconds, rounded down. -/
def lineNs (f : Bytes) : Nat := frameNs f / totalLines f

/-- The rate family of a format: 1 for the /1.001 rates, but 0 for the 525-line raster (R105). -/
def fmtFamily (f : Bytes) : Nat := if fmtHeight f = 486 then 0 else if rateDen (fmtRate f) = 1001 then 1 else 0

/-- Twice the data of 4:2:2 10-bit: 4:4:4, or 12 bits (R598). -/
def fmtWide (f : Bytes) : Bool := fmtSampling f == 1 || fmtDepth f == 12

/-- RATE between two codes. -/
def rateIn (f : Bytes) (lo hi : Nat) : Bool := decide (lo ≤ fmtRate f) && decide (fmtRate f ≤ hi)

/-- The rate code of the 4:2:2 10-bit format of a raster and rate, 0 when the table of R598 does not list it. 1080i is
listed without rates and is taken at 47.95 to 60 fields (DEDUCED, log entry 10). -/
def rateCodeNarrow (f : Bytes) : Nat :=
  match fmtWidth f, fmtHeight f, fmtScan f with
  | 720, 486, 1 => if fmtRate f = 9 then 1 else 0
  | 720, 576, 1 => if fmtRate f = 8 then 1 else 0
  | 1280, 720, 0 => if rateIn f 1 10 then 2 else 0
  | 1920, 1080, 0 => if rateIn f 1 5 then 2 else if rateIn f 6 10 then 3 else 4
  | 1920, 1080, 1 => if rateIn f 6 10 then 2 else 0
  | 1920, 1080, 2 => if rateIn f 1 5 then 2 else 0
  | 3840, 2160, 0 => if rateIn f 1 5 then 4 else if rateIn f 6 10 then 5 else 0
  | 7680, 4320, 0 => if rateIn f 1 5 then 4 else if rateIn f 6 10 then 5 else 0
  | _, _, _ => 0

/-- The SDI rate code that carries a format; 0 when none does (R104, R598). -/
def rateCode (f : Bytes) : Nat :=
  let n := rateCodeNarrow f
  if fmtSampling f = 2 ∨ n = 0 then 0
  else if !fmtWide f then n
  else if n = 1 ∨ n = 5 ∨ fmtHeight f = 4320 then 0
  else n + 1

/-- Whether LINK suits the format on SDI: 3 for a quad-link gang alone, 2 where R598 names level B, else 1. -/
def linkOk (f : Bytes) : Bool :=
  if fmtHeight f = 4320 then fmtLink f == 3
  else fmtLink f == 1 || (fmtLink f == 2 && rateCode f == 3)

/-- A descriptor that SDI carries (R132, R598). -/
def sdiFormat (f : Bytes) : Bool := (fmtBadField f).isNone && decide (rateCode f ≠ 0) && linkOk f

/-- Two descriptors alike in everything but LINK: the formats of a synchronised route (R206). -/
def sameFormat (f g : Bytes) : Bool := sub f 0 11 == sub g 0 11

/-- R133: `f` is no larger than `g` in WIDTH, HEIGHT, RATE, SAMPLING and DEPTH. -/
def withinCeiling (f g : Bytes) : Bool :=
  decide (fmtWidth f ≤ fmtWidth g) && decide (fmtHeight f ≤ fmtHeight g) && decide (fmtRate f ≤ fmtRate g) &&
  decide (fmtSampling f ≤ fmtSampling g) && decide (fmtDepth f ≤ fmtDepth g)

/-! ### Sizes in memory (R171-R175, R156, R159) -/

def roundUp (n m : Nat) : Nat := (n + m - 1) / m * m
def ceilDiv (n m : Nat) : Nat := (n + m - 1) / m

/-- Byte length of a line of `n` samples (R172). -/
def linePitch (depth n : Nat) : Nat := if depth = 12 then roundUp (2 * n) 256 else roundUp (4 * ceilDiv n 3) 256

/-- Pitches and lines of the two planes (R171). -/
def lumaPitch (f : Bytes) : Nat := linePitch (fmtDepth f) (fmtWidth f)
def chromaPitch (f : Bytes) : Nat :=
  linePitch (fmtDepth f) (if fmtSampling f = 1 then 2 * fmtWidth f else fmtWidth f)
def chromaLines (f : Bytes) : Nat := if fmtSampling f = 2 then fmtHeight f / 2 else fmtHeight f

/-- Frame bytes (R171-R173). -/
def frameBytes (f : Bytes) : Nat := lumaPitch f * fmtHeight f + chromaPitch f * chromaLines f

/-- Active pixels per second (R156, R465). -/
def pixelRate (f : Bytes) : Nat := perSecond f (fmtWidth f * fmtHeight f)

/-- One proxy level at 1/k (R156): bytes of its two planes, 4:2:2 10-bit. -/
def proxyLevel (f : Bytes) (k : Nat) : Nat :=
  2 * linePitch 10 (roundUp (ceilDiv (fmtWidth f) k) 2) * ceilDiv (fmtHeight f) k

def proxyBytes (f : Bytes) : Nat := proxyLevel f 2 + proxyLevel f 4 + proxyLevel f 8

/-- Tiles of a change map (R157). -/
def tileCount (f : Bytes) : Nat :=
  ceilDiv (fmtWidth f) 128 *
    (if fmtScan f = 1 then 2 * ceilDiv (fmtHeight f / 2) 32 else ceilDiv (fmtHeight f) 32)

/-- Change-map bytes of a slot (R159). -/
def mapBytes (f : Bytes) : Nat := roundUp (8 * tileCount f + ceilDiv (tileCount f) 8) 256

/-- Blocks of the bench pool (R166). -/
def poolBlocks : Nat := 13696
def blockSize : Nat := 0x200000
def poolBase : Nat := 0x150000000

/-! ### Contracts (R163) -/

def ctObject (c : Bytes) : Nat := u16 c 0
def ctFollow (c : Bytes) : Bool := u8 c 2 == 1
def ctPad (c : Bytes) : Bool := u8 c 3 == 1
def ctFormat (c : Bytes) : Bytes := sub c 4 16
def ctRateTol (c : Bytes) : Nat := if u16 c 20 = 0 then 50 else u16 c 20
def ctSlots (c : Bytes) : Nat := u8 c 22
def ctAudioLimit (c : Bytes) : Nat := u8 c 23
def ctAncQuota (c : Bytes) : Nat := u32 c 24
def ctLossHold (c : Bytes) : Option Nat :=
  if u16 c 28 = 0xFFFF then none else some (10000000 * (if u16 c 28 = 0 then 200 else u16 c 28))
def ctTcSource (c : Bytes) : Nat := u8 c 30
def ctProxy (c : Bytes) : Bool := bit (u8 c 31) 0
def ctChangeMap (c : Bytes) : Bool := bit (u8 c 31) 1
def ctHostStall (c : Bytes) : Nat := u16 c 32

/-- Sizes of the side area of a contract's slot (R175). -/
def ctAncArea (c : Bytes) : Nat := roundUp (2 * ctAncQuota c) 256
def ctMapArea (c : Bytes) : Nat := if ctChangeMap c then mapBytes (ctFormat c) else 0
def ctProxyArea (c : Bytes) : Nat := if ctProxy c then proxyBytes (ctFormat c) else 0
def ctPitch (c : Bytes) : Nat :=
  frameBytes (ctFormat c) + 256 + ctAncArea c + ctMapArea c + ctProxyArea c

/-- Write reservation of a contract in bytes per second (R135, R189): frame bytes, ancillary quota, proxies, and the
change map read and written (R159). -/
def ctWriteRate (c : Bytes) : Nat :=
  perSecond (ctFormat c) (frameBytes (ctFormat c) + ctAncQuota c + ctProxyArea c + 2 * ctMapArea c)

/-! ### Fence descriptors (R186) -/

def fenceKind (d : Bytes) : Nat := u8 d 0
def fenceDest (d : Bytes) : Bool := bit (u8 d 1) 0
def fenceObject (d : Bytes) : Nat := u16 d 2
def fenceNumber (d : Bytes) : Nat := u64 d 8
def fencePort (d : Bytes) : Nat := fenceObject d % 2
def fenceEngine (d : Bytes) : Nat := fenceObject d / 2 % 8

/-- The offset of the first field of a descriptor outside its values (R186). -/
def fenceBadField (d : Bytes) : Option Nat :=
  match fenceKind d with
  | 0 => if u8 d 1 ≠ 0 then some 1 else if fenceObject d ≠ 0 then some 2 else if !zeroAt d 4 4 then some 4
         else if zeroAt d 8 8 then none else some 8
  | 1 => if 1 < u8 d 1 then some 1 else if zeroAt d 4 4 then none else some 4
  | 2 => if u8 d 1 ≠ 0 then some 1 else if 15 < fenceObject d then some 2
         else if zeroAt d 4 4 then none else some 4
  | _ => some 0

/-! ### The command in a channel (R68) -/

/-- A posted command as the Foreman reads it from its channel: header fields and payload. -/
structure Cmd where
  ch : Nat
  port : Port
  opcode : Nat
  flags : Nat
  seq : Nat
  expected : Nat
  target : Nat
  len : Nat
  reserved : Nat
  p : Bytes

/-- Header flags of a command (R69). -/
def Cmd.kind (c : Cmd) : Nat := bits c.flags 2 1
def Cmd.strict (c : Cmd) : Bool := bit c.flags 3
def Cmd.await (c : Cmd) : Bool := bit c.flags 4
def Cmd.force (c : Cmd) : Bool := bit c.flags 5
def Cmd.validate (c : Cmd) : Bool := bit c.flags 6

/-- TARGET kinds (R83). -/
def kindNext : Nat := 0
def kindFrame : Nat := 1
def kindPtp : Nat := 2
def kindGpi : Nat := 3

end Sys2Proof.Machine
end

