-- ==== Sys2Proof/Machine/Ops.lean ====
section
/-! DEFINITION. The named operations on the state: ports, channels, messages, events, the journal, the generation, the
queue of changes, the byte memory of the frame store and free values. Every meaning is written over these. -/

namespace Sys2Proof.Machine

/-- A next state: the outcome of every command that runs. -/
abbrev Result := Host.Outcome State Fault Refusal

/-! ### Units -/

def getPort (s : State) : Port → PortState
  | .a => s.portA
  | .b => s.portB

def setPort (s : State) (p : Port) (v : PortState) : State :=
  match p with
  | .a => { s with portA := v }
  | .b => { s with portB := v }

def getSem (s : State) (c : Nat) : SemCell := Tab.get s.sems c {}
def setSem (s : State) (c : Nat) (v : SemCell) : State := { s with sems := Tab.set s.sems c v }
def getChan (s : State) (c : Nat) : Channel := Tab.get s.channels c {}
def setChan (s : State) (c : Nat) (v : Channel) : State := { s with channels := Tab.set s.channels c v }
def getLane (s : State) (i : Nat) : Lane := Tab.get s.lanes i {}
def setLane (s : State) (i : Nat) (v : Lane) : State := { s with lanes := Tab.set s.lanes i v }
def getGroup (s : State) (g : Nat) : TxGroup := Tab.get s.groups g {}
def setGroup (s : State) (g : Nat) (v : TxGroup) : State := { s with groups := Tab.set s.groups g v }
def getSource (s : State) (i : Nat) : Source := Tab.get s.sources i {}
def setSource (s : State) (i : Nat) (v : Source) : State := { s with sources := Tab.set s.sources i v }
def getEngine (s : State) (p : Port) (e : Nat) : DmaEngine := Tab.get (getPort s p).dma e {}
def setEngine (s : State) (p : Port) (e : Nat) (v : DmaEngine) : State :=
  setPort s p { getPort s p with dma := Tab.set (getPort s p).dma e v }
def getWindow (s : State) (p : Port) (w : Nat) : Window := Tab.get (getPort s p).windows w {}
def setWindow (s : State) (p : Port) (w : Nat) (v : Window) : State :=
  setPort s p { getPort s p with windows := Tab.set (getPort s p).windows w v }
def getMsix (s : State) (p : Port) (v : Nat) : MsixEntry := Tab.get (getPort s p).msix v {}
def setMsix (s : State) (p : Port) (v : Nat) (e : MsixEntry) : State :=
  setPort s p { getPort s p with msix := Tab.set (getPort s p).msix v e }

/-- The foreman with `f` applied. -/
def onFm (s : State) (f : Foreman → Foreman) : State := { s with fm := f s.fm }

/-! ### Free values -/

/-- The next free byte, and the state that has used it (log entry 2). -/
def takeByte (s : State) : BitVec 8 × State := (Config.freeByte s.free, { s with free := s.free + 1 })

/-- The next free 16-bit value. -/
def takeWord (s : State) : BitVec 16 × State := (Config.freeWord s.free, { s with free := s.free + 1 })

/-- The next free 32-bit value. -/
def takeLong (s : State) : BitVec 32 × State := (Config.freeLong s.free, { s with free := s.free + 1 })

/-- `n` free bytes from counter value `k`. -/
def freeBytes (k : Nat) : Nat → Bytes
  | 0 => []
  | n + 1 => Config.freeByte k :: freeBytes (k + 1) n

/-- Eight bytes of a number, free where there is none and the spec states no value, and the state that has used them. -/
def orFree (s : State) : Option Nat → Bytes × State
  | some n => (le 8 n, s)
  | none => (freeBytes s.free 8, { s with free := s.free + 8 })

/-! ### Toward the host -/

/-- Put something on port `p`'s link toward its host. -/
def emit (s : State) (p : Port) (x : ToHost) : State :=
  setPort s p { getPort s p with toHost := (getPort s p).toHost ++ [x] }

/-- The message address of a vector, both words together (R57). -/
def msixAddr (e : MsixEntry) : Nat := e.addrLo.toNat + 4294967296 * e.addrHi.toNat

/-- Signal vector `v` of port `p` (R57): nothing when the entry is not programmed, its pending bit when it is masked,
and the message otherwise. -/
def sendMsix (s : State) (p : Port) (v : Nat) : State :=
  let e := getMsix s p v
  if msixAddr e = 0 then s
  else if e.masked then setMsix s p v { e with pending := true }
  else emit s p (.msix v (msixAddr e) e.data.toNat)

/-! ### Events (19) -/

/-- System classes of an error class (R502). -/
def errorSystem : List Nat :=
  [0x100, 0x101, 0x103, 0x108, 0x111, 0x112, 0x118, 0x120, 0x122, 0x129, 0x138, 0x139, 0x13C, 0x140, 0x148, 0x150,
   0x151, 0x152, 0x153]

/-- Whether an event source is of an error class (R501, R502). -/
def errorSource (i : Nat) : Bool :=
  if i < 768 then i % 4 == 3
  else if i < 1152 then i % 2 == 1
  else if i < 1216 then i % 2 == 0
  else if i < 1240 then (i - 1216) % 3 == 1
  else if i < 1272 then true
  else if i < 1288 then i % 2 == 0
  else if i < 1304 then true
  else errorSystem.contains (i - 1304 + 0x100)

/-- The event source of a class and instance (R501, R502). -/
def eventSource (cls inst : Nat) : Nat :=
  if cls ≤ 4 then 4 * inst + cls - 1
  else if cls ≤ 0x11 then 768 + 2 * inst + (cls - 0x10)
  else if cls ≤ 0x21 then 1152 + 2 * inst + (cls - 0x20)
  else if cls ≤ 0x32 then 1216 + 3 * inst + (cls - 0x30)
  else if cls ≤ 0x41 then 1240 + 2 * inst + (cls - 0x40)
  else if cls ≤ 0x51 then 1272 + 2 * inst + (cls - 0x50)
  else if cls ≤ 0x63 then 1288 + 4 * inst + (cls - 0x60)
  else 1304 + (cls - 0x100)

/-- The event counters of a port, which a port reset leaves (R65, R514). -/
def getCounts (s : State) : Port → EventCounts
  | .a => s.eventsA
  | .b => s.eventsB

def setCounts (s : State) (p : Port) (v : EventCounts) : State :=
  match p with
  | .a => { s with eventsA := v }
  | .b => { s with eventsB := v }

/-- The setting byte of an event source on a port: error classes are enabled from device reset (R504). -/
def settingOf (s : State) (p : Port) (i : Nat) : Nat :=
  Tab.get (getCounts s p).settings i (flag (errorSource i))

/-- The 32 bytes of an event record (R503); DATA is filled with zeros to 16 bytes. -/
def eventRecord (cls inst time aux : Nat) (data : Bytes) : Bytes :=
  le 2 inst ++ le 2 cls ++ le 8 time ++ le 4 aux ++ sub data 0 16

/-- Whether a ring has no room (R55 FULL). -/
def ringFull (r : EventRing) : Bool := r.producer - r.consumer == 4096#32

/-- Address of record `i` of a ring (R56). -/
def ringAddr (r : EventRing) (i : BitVec 32) : Nat :=
  r.baseLo.toNat + 4294967296 * r.baseHi.toNat + 32 * (i.toNat % 4096)

/-- Signal ER_CTL.VECTOR under MODERATION (R55, R506). -/
def signalRing (s : State) (p : Port) : State :=
  let r := (getPort s p).ring
  if r.moderation = 0 then sendMsix s p r.vector
  else if r.timerRunning then setPort s p { getPort s p with ring := { r with messagePending := true } }
  else sendMsix (setPort s p { getPort s p with ring := { r with timerRunning := true } }) p r.vector

/-- Write a record to a ring that has room: the record, PRODUCER, then the message (R56, R506). -/
def writeRecord (s : State) (p : Port) (rec : Bytes) (urgent : Bool) : State :=
  let r := (getPort s p).ring
  let s := emit s p (.write (ringAddr r r.producer) rec)
  let s := setPort s p { getPort s p with ring := { r with producer := r.producer + 1#32 } }
  let s := setCounts s p { getCounts s p with written := (getCounts s p).written + 1 }
  if urgent then sendMsix s p (getCounts s p).urgentVector else signalRing s p

/-- A record for a ring: written when there is room, and otherwise lost and counted (R508). `time` is the instant of
the event. -/
def deliver (s : State) (p : Port) (src time : Nat) (rec : Bytes) (urgent : Bool) : State :=
  if ringFull (getPort s p).ring then
    let k := getCounts s p
    setCounts s p { k with
      lost := k.lost + 1
      errorLost := k.errorLost + flag (errorSource src)
      lostSince := k.lostSince + 1
      errorLostSince := k.errorLostSince + flag (errorSource src)
      firstLost := if k.lostSince = 0 then time else k.firstLost
      lastLost := time }
  else writeRecord s p rec urgent

/-- The classes COALESCE does not touch (R507). -/
def neverCoalesced (cls : Nat) : Bool := cls == 0x104 || cls == 0x105 || cls == 0x123

/-- One event toward one port (R505, R507): nothing unless the ring and the source are enabled; suppressed and counted
inside an open coalesce window; otherwise delivered, which opens a window when COALESCE is set. -/
def raiseOn (s : State) (p : Port) (cls inst aux : Nat) (data : Bytes) : State :=
  let src := eventSource cls inst
  let set := settingOf s p src
  if !(getPort s p).ring.enable || !bit set 0 then s
  else
    let record := eventRecord cls inst s.now aux data
    if bits set 7 2 = 0 ∨ neverCoalesced cls then deliver s p src s.now record (bit set 1)
    else
      let k := getCounts s p
      if Tab.has k.windows src then
        let w := Tab.get k.windows src { source := src }
        setCounts s p { k with
          windows := Tab.set k.windows src { w with suppressed := w.suppressed + 1, last := record } }
      else
        deliver (setCounts s p { k with windows := Tab.set k.windows src { source := src } }) p src s.now record
          (bit set 1)

/-- An event toward both ports, by class and instance (R500). -/
def raise (s : State) (cls inst : Nat) (data : Bytes) (aux : Nat := 0) : State :=
  raiseOn (raiseOn s .a cls inst aux data) .b cls inst aux data

/-- The OVERFLOW record of an enabled ring that has room again (R55, R508): urgent, and no event source. -/
def writeOverflow (s : State) (p : Port) : State :=
  let k := getCounts s p
  if k.lostSince = 0 ∨ ringFull (getPort s p).ring ∨ !(getPort s p).ring.enable then s
  else
    let record := eventRecord 0xFFFF p.num k.firstLost 0 (le 4 k.lostSince ++ le 4 k.errorLostSince ++ le 8 k.lastLost)
    let s := setCounts s p { k with
      lostSince := 0, errorLostSince := 0, firstLost := 0, lastLost := 0
      overflowRecords := satInc 32 k.overflowRecords }
    writeRecord s p record true

/-! ### Frame-store bytes -/

/-- Read `n` bytes of the store from physical address `a` (R166). -/
def storeRead (s : State) (a n : Nat) : Bytes := Memory.readBytes s.store.mem a n

/-- Write bytes to the store at physical address `a`. -/
def storeWrite (s : State) (a : Nat) (b : Bytes) : State :=
  { s with store := { s.store with mem := Memory.writeBytes s.store.mem a b } }

/-- The regions of the frame store (R166). -/
inductive Region where
  | foreman
  | staging (p : Port)
  | journal
  | audio
  | pool
  deriving DecidableEq, Repr

/-- Base and size of a region (R166). -/
def regionBase : Region → Nat
  | .foreman => 0
  | .staging .a => 0x04000000
  | .staging .b => 0x08000000
  | .journal => 0x0C000000
  | .audio => 0x10000000
  | .pool => poolBase

def regionSize : Region → Nat
  | .audio => 0x140000000
  | .pool => 0x6B0000000
  | _ => 0x04000000

/-- The region of a physical address; none beyond the 35 bits of the store (R166). -/
def regionOf (a : Nat) : Option Region :=
  ([.foreman, .staging .a, .staging .b, .journal, .audio, .pool] : List Region).find? fun r =>
    decide (regionBase r ≤ a) && decide (a < regionBase r + regionSize r)

/-- The pseudo-channel that a physical address goes to (R167). -/
def pseudoChannel (a : Nat) : Nat := (a / 256 % 64) ^^^ (a / 16384 % 64)

/-- The stack of a physical address: bit 5 of its pseudo-channel (R167). -/
def stackOf (a : Nat) : Nat := pseudoChannel a / 32

/-- Base of a port's staging area and its size (R166). -/
def stagingBase (p : Port) : Nat := regionBase (.staging p)

def stagingSize : Nat := 0x04000000

/-! ### Generation and journal (03, 19) -/

/-- FLAGS of the boot record (R521). -/
def recordFlags (f : Flash) : Nat :=
  flag f.bootOnce + 2 * flag f.locked + 4 * flag f.slot0.retired + 8 * flag f.slot1.retired + 16 * flag f.slot0.valid +
  32 * flag f.slot1.valid

/-- Bytes 8 to 77 of the boot-record entry that stands for the flash as it is (R521). -/
@[irreducible] def recordBody (f : Flash) : Bytes :=
  le 8 f.genFloor ++ le 1 (f.confirmed.getD 0xFF) ++ le 1 (f.trial.getD 0xFF) ++ le 1 (recordFlags f) ++ zeros 1 ++
  le 4 f.slot0.erases ++ le 4 f.slot1.erases ++ le 4 f.erase0 ++ le 4 f.erase1 ++ le 4 f.slot0.package.length ++
  le 4 f.slot1.package.length ++ sub f.lockDigest 0 32 ++ le 2 f.healthS

/-- The flash after a change: a change of anything the boot record holds appends an entry to it (R521). -/
def appendRecord (old new : Flash) : Flash :=
  { new with record := if recordBody new = recordBody old then old.record else old.record + 1 }

/-- Change the flash. -/
def onFlash (s : State) (f : Flash → Flash) : State := { s with flash := appendRecord s.flash (f s.flash) }

/-- Whether update stage `k` holds its unit's work now, `bound` nanoseconds being the longest it may (R527, log entry 130). -/
def stageHolds (s : State) (k bound : Nat) : Bool := s.fw.stages.head? == some k && decide (s.uptime < s.fw.stageAt + bound)

/-- Stage 1 holds the servo, stage 2 adaptation and acquisition, stage 3 the offload engine. -/
def servoHeld (s : State) : Bool := stageHolds s 1 10000000
def adaptationHeld (s : State) : Bool := stageHolds s 2 50000000
def offloadHeld (s : State) : Bool := stageHolds s 3 200000000

/-- One more on the state generation (R79); a multiple of 2³² is written as the floor of the boot record (R81). -/
def advance (s : State) : State :=
  let g := s.fm.gen + 1
  let s := onFm s fun f => { f with gen := g }
  if g % 4294967296 = 0 then onFlash s fun f => { f with genFloor := g } else s

/-- The journal keeps its newest 1,048,576 entries (R512). -/
def journalKeep : Nat := 1048576

/-- Where entry `n` lies in the change-journal region (R166, R512). -/
def journalAddr (n : Nat) : Nat := regionBase .journal + 64 * (n % journalKeep)

/-- Append an entry: it takes the next SEQUENCE, and the oldest entry beyond the ring's size goes (R512, R513). -/
def addEntry (s : State) (e : JEntry) : State :=
  onFm s fun f =>
    { f with
      jseq := f.jcount
      jcount := f.jcount + 1
      journal := (f.journal ++ [{ e with seq := f.jcount }]).drop (f.journal.length + 1 - journalKeep) }

/-- Origins of an entry or a queued change (R99, R510). -/
def originGpi : Nat := 2
def originForeman : Nat := 3
def originLoader : Nat := 4

/-- The COMMAND entry of the generation just produced (R511). -/
def commandEntry (s : State) (c : Cmd) (object detail : Nat) (effect : Option Nat) (now : Bool) : JEntry :=
  { seq := 0, gen := s.fm.gen, time := s.now, opcode := c.opcode, kind := 1, origin := c.port.num, channel := c.ch
    reason := 0, object := object, chSeq := c.seq, target := if c.opcode = 0x0202 then u64 c.p 0 else c.target
    effect := effect, detail := detail, targetKind := c.kind, effectRecorded := now, settled := now }

/-- An admitted command that takes effect at once: the generation advances and the journal gets its one entry, with
its EFFECT recorded (R79, R509). -/
def commit (s : State) (c : Cmd) (object : Nat) (detail : Nat := 0) : State :=
  let s := advance s
  addEntry s (commandEntry s c object detail (some s.now) true)

/-- An admitted command whose effect comes later: the entry's EFFECT is still unknown. -/
def commitLater (s : State) (c : Cmd) (object : Nat) (detail : Nat := 0) : State :=
  let s := advance s
  addEntry s (commandEntry s c object detail none false)

/-- An automatic action of the Foreman (R36, R79): the generation advances and the journal gets one entry. -/
def autoEntry (s : State) (kind reason object detail : Nat) (effect : Option Nat := none)
    (origin : Nat := originForeman) (opcode : Nat := 0) : State :=
  let s := advance s
  addEntry s
    { seq := 0, gen := s.fm.gen, time := s.now, opcode := opcode, kind := kind, origin := origin, channel := 0xFF
      reason := reason, object := object, chSeq := 0, target := 0, effect := effect, detail := detail, targetKind := 0
      effectRecorded := effect.isSome, settled := true }

/-- Record EFFECT on the entries of a generation that name `object` (R513). -/
def journalEffect (s : State) (gen object effect : Nat) : State :=
  onFm s fun f =>
    { f with
      journal := f.journal.map fun e =>
        if e.gen = gen ∧ e.object = object ∧ !e.effectRecorded then
          { e with effect := some effect, effectRecorded := true }
        else e }

/-- Record EFFECT, as device time, on the entries of a generation whose OBJECT is no destination (R510). -/
def journalDone (s : State) (gen : Nat) : State :=
  onFm s fun f =>
    { f with
      journal := f.journal.map fun e =>
        if e.gen = gen ∧ e.object = 0xFFFF ∧ !e.effectRecorded then
          { e with effect := some s.now, effectRecorded := true }
        else e }

/-- Mark the entries of a generation withdrawn (R513). -/
def journalWithdrawn (s : State) (gen : Nat) : State :=
  onFm s fun f => { f with journal := f.journal.map fun e => if e.gen = gen then { e with withdrawn := true } else e }

/-- The 64 bytes of an entry (R510). -/
def entryBytes (e : JEntry) : Bytes :=
  le 8 e.seq ++ le 8 e.gen ++ le 8 e.time ++ le 2 e.opcode ++ le 1 e.kind ++ le 1 e.origin ++ le 1 e.channel ++
  le 1 e.reason ++ le 2 e.object ++ le 4 e.chSeq ++ leInt 4 e.ledgerCore ++ le 8 e.target ++ le 8 (orOnes e.effect) ++
  le 4 e.detail ++ le 1 e.targetKind ++
  le 1 (flag e.effectRecorded + 2 * flag e.settled + 4 * flag e.withdrawn + 8 * flag e.last) ++ le 2 e.part

/-- A byte of the store by physical address (R166): the change-journal region holds the entries. -/
def storeByte (s : State) (a : Nat) : Byte :=
  if regionOf a = some .journal then
    ((s.fm.journal.find? fun e => journalAddr e.seq == a / 64 * 64).map fun e => (entryBytes e).getD (a % 64) 0).getD
      (Memory.read s.store.mem a)
  else Memory.read s.store.mem a

/-! ### Waiting commands -/

/-- Record EFFECT on the entries of a generation that have none yet (R513). -/
def journalRest (s : State) (gen effect : Nat) : State :=
  onFm s fun f =>
    { f with
      journal := f.journal.map fun e =>
        if e.gen = gen ∧ !e.effectRecorded then { e with effect := some effect, effectRecorded := true } else e }

/-- Generations of the RUNNING commands that wait for `w`. -/
def waitingGens (s : State) (w : WaitFor) : List Nat :=
  s.channels.filterMap fun p =>
    match p.2.waiting with
    | some x => if x.cause = w then some x.reply.gen else none
    | none => none

/-- Every RUNNING command that waits for `w` has its response due, with EFFECT `eff` where one is given, which its
journal entries then show. -/
def wake (s : State) (w : WaitFor) (eff : Option Nat := none) : State :=
  let s := match eff with
    | some v => (waitingGens s w).foldl (fun s g => journalRest s g v) s
    | none => s
  { s with
    channels := s.channels.map fun p =>
      match p.2.waiting with
      | some x =>
        if x.cause = w then
          (p.1, { p.2 with waiting := some { x with
                    ready := true
                    reply := match eff with
                      | some v => { x.reply with effect := some v }
                      | none => x.reply } })
        else p
      | none => p }

/-- A waiting command that will complete with another status (CANCELLED, R101), and the refusal record of its class (R72). -/
def wakeWith (s : State) (w : WaitFor) (status : Nat) : State :=
  { s with
    channels := s.channels.map fun p =>
      match p.2.waiting with
      | some x =>
        if x.cause = w then
          (p.1, { p.2 with waiting := some { x with
                    ready := true, reply := { x.reply with status := status, effect := none, payload := List.replicate 7 0xFF ++ zeros 9 } } })
        else p
      | none => p }

/-! ### Queued changes (03) -/

/-- The queued change of a generation. -/
def findChange (s : State) (gen : Nat) : Option Change := s.fm.changes.find? fun c => c.gen == gen

/-- Instance of COMMAND_APPLIED and COMMAND_CANCELLED (R502). -/
def changeInstance (c : Change) : Nat :=
  if c.origin = originGpi ∨ originForeman ≤ c.origin then 0xFFFF else c.channel + 32 * c.origin

/-- A queued change has taken effect on unit `unit` at instant `eff` (R87): its entry's EFFECT is recorded, and when it
was the last unit the change leaves the queue, COMMAND_APPLIED is raised and a waiting command completes. -/
def appliedOn (s : State) (gen unit eff : Nat) : State :=
  match findChange s gen with
  | none => s
  | some c =>
    let c' := { c with
      begun := true
      remaining := c.remaining.filter (· != unit)
      effect := if c.anchor = unit then some eff else c.effect }
    let s := journalEffect s gen unit eff
    if c'.remaining.isEmpty then
      let s := onFm (journalDone s gen) fun f =>
        { f with changes := f.changes.filter (fun x => x.gen != gen), done := gen :: f.done }
      let s := if c'.origin ≤ 1 then
          raise s 0x104 (changeInstance c') (le 8 gen ++ le 8 (orOnes c'.effect)) c'.seq else s
      wake s (.change gen) c'.effect
    else onFm s fun f => { f with changes := f.changes.map fun x => if x.gen = gen then c' else x }

/-- Put a change on the queue. -/
def enqueue (s : State) (c : Change) : State := onFm s fun f => { f with changes := f.changes ++ [c] }

/-- R89: the queue holds 1,024 changes. -/
def queueFull (s : State) : Bool := decide (1024 ≤ s.fm.changes.length)

/-- Key of a Crusher among the units that take descriptors. -/
def crusherUnit (k : Nat) : Nat := 0x30000 + k

/-- A tag is live while its change has still to take effect on its destination (R92). -/
def tagLive (s : State) (t : LiveTag) : Bool := s.fm.changes.any fun c => c.gen == t.gen && c.remaining.contains t.dest

/-- The oldest live tag of a unit: on a shadow entry, or on a descriptor of a Crusher. -/
def oldestTag (s : State) (unit : Nat) : Option Nat :=
  match s.fm.shadow.find? (fun x => x.unit == unit) with
  | some x => some x.tag
  | none => (s.fm.live.find? fun t => t.unit == unit && tagLive s t).map (·.tag)

/-- R92: the newest tag of a unit is later than its oldest live tag by 120 or more. Lanes, benches and flows take a descriptor
at once, or refuse a second one while the first still waits (R95, R441), so that theirs never spread so far. -/
def tagsBlocked (s : State) (unit : Nat) : Bool :=
  match oldestTag s unit with
  | none => false
  | some t => decide (120 ≤ serialDist 8 t (Tab.get s.fm.tags unit 0))

/-- A commit of generation `s.fm.gen` gives unit `unit` a descriptor for destination `d`, with the unit's next tag (R92). -/
def tagUnit (s : State) (unit d : Nat) : State :=
  let again := s.fm.live.any fun t => t.unit == unit && t.gen == s.fm.gen
  let t := if again then Tab.get s.fm.tags unit 0 else (Tab.get s.fm.tags unit 0 + 1) % 256
  onFm s fun f => { f with
    live := (f.live.filter (tagLive s)) ++ [{ gen := f.gen, unit := unit, dest := d, tag := t }], tags := Tab.set f.tags unit t }

/-- The gateable domain of a unit that takes descriptors: of an SDI output its lane group, of an Ashlar output its Ashlar's. -/
def unitDomain (u : Nat) : Option Nat :=
  if isSdi u then some (0x10 + u / 8) else if isAshlarObj u then some (0x40 + (u - 0xC0)) else none

/-- The wake epoch a unit's domain is in (R481). -/
def wakeEpoch (s : State) (u : Nat) : Nat :=
  match unitDomain u with
  | some d => (Tab.get s.domains d {}).epoch
  | none => 0

/-- Put a descriptor for a unit among the shadow entries (R290), with the unit's next tag: one commit advances the tag of
each unit it touches by one (R92). It carries the wake epoch in force (R481). -/
def addShadow (s : State) (x : Shadow) : State :=
  let t := if s.fm.shadow.any fun y => y.unit == x.unit && y.gen == x.gen then Tab.get s.fm.tags x.unit 0
    else (Tab.get s.fm.tags x.unit 0 + 1) % 256
  onFm s fun f => { f with shadow := f.shadow ++ [{ x with tag := t, wake := wakeEpoch s x.unit }], tags := Tab.set f.tags x.unit t }

end Sys2Proof.Machine
end

