-- ==== Sys2Proof/Machine/Units.lean ====
section
/-! DEFINITION. The units beyond the ports: their state, the fields of the configurations they keep (route entries,
R204; output, Ashlar, audio, port and flow configurations), the formats that joined units have (R206), and the load of a
conversion (R234). -/

namespace Sys2Proof.Machine

/-! ### State of each unit -/

def getRoute (s : State) (d : Nat) : Route := Tab.get s.routes d {}
def setRoute (s : State) (d : Nat) (v : Route) : State := { s with routes := Tab.set s.routes d v }
def getSalvo (s : State) (i : Nat) : Salvo := Tab.get s.salvos i {}
def setSalvo (s : State) (i : Nat) (v : Salvo) : State := { s with salvos := Tab.set s.salvos i v }
def getCrusher (s : State) (k : Nat) : Crusher := Tab.get s.crushers k {}
def setCrusher (s : State) (k : Nat) (v : Crusher) : State := { s with crushers := Tab.set s.crushers k v }
def getConv (s : State) (d : Nat) : ConvCounts := Tab.get s.conv d {}
def setConv (s : State) (d : Nat) (v : ConvCounts) : State := { s with conv := Tab.set s.conv d v }
def getOutput (s : State) (d : Nat) : Output := Tab.get s.outputs d {}
def setOutput (s : State) (d : Nat) (v : Output) : State := { s with outputs := Tab.set s.outputs d v }
def getAshlar (s : State) (k : Nat) : Ashlar := Tab.get s.ashlars k {}
def setAshlar (s : State) (k : Nat) (v : Ashlar) : State := { s with ashlars := Tab.set s.ashlars k v }
def getAsrc (s : State) (c : Nat) : AudioSource := Tab.get s.audio.sources c {}
def setAsrc (s : State) (c : Nat) (v : AudioSource) : State :=
  { s with audio := { s.audio with sources := Tab.set s.audio.sources c v } }
def getAdest (s : State) (c : Nat) : AudioDest := Tab.get s.audio.dests c {}
def setAdest (s : State) (c : Nat) (v : AudioDest) : State :=
  { s with audio := { s.audio with dests := Tab.set s.audio.dests c v } }
def getAport (s : State) (p : Nat) : AudioPort := Tab.get s.aports p {}
def setAport (s : State) (p : Nat) (v : AudioPort) : State := { s with aports := Tab.set s.aports p v }
def getRef (s : State) (e : Nat) : RefEngine := Tab.get s.refs.engines e {}
def setRef (s : State) (e : Nat) (v : RefEngine) : State :=
  { s with refs := { s.refs with engines := Tab.set s.refs.engines e v } }
def getRefInput (s : State) (i : Nat) : RefInput := Tab.get s.refs.inputs i {}
def setRefInput (s : State) (i : Nat) (v : RefInput) : State :=
  { s with refs := { s.refs with inputs := Tab.set s.refs.inputs i v } }
def getClk (s : State) (k : Nat) : ClkOut := Tab.get s.refs.clkouts k {}
def setClk (s : State) (k : Nat) (v : ClkOut) : State :=
  { s with refs := { s.refs with clkouts := Tab.set s.refs.clkouts k v } }
def getNet (s : State) (p : Nat) : NetPort := Tab.get s.netPorts p {}
def setNet (s : State) (p : Nat) (v : NetPort) : State := { s with netPorts := Tab.set s.netPorts p v }
def getFlow (s : State) (k : Nat) : Flow := Tab.get s.flows k {}
def setFlow (s : State) (k : Nat) (v : Flow) : State := { s with flows := Tab.set s.flows k v }
def getTie (s : State) (k : Nat) : Tie := Tab.get s.adit.ties k {}
def setTie (s : State) (k : Nat) (v : Tie) : State := { s with adit := { s.adit with ties := Tab.set s.adit.ties k v } }

def getContext (s : State) (d : Nat) : Option Context := (s.contexts.find? fun p => p.1 == d).map (·.2)
def setContext (s : State) (d : Nat) (v : Context) : State := { s with contexts := Tab.set s.contexts d v }

/-! ### Route entries (R204) -/

def reDest (e : Bytes) : Nat := u16 e 0
def reSource (e : Bytes) : Nat := u16 e 2
def reClass (e : Bytes) : Nat := u8 e 4
def reDelay (e : Bytes) : Nat := u8 e 5
def reStable (e : Bytes) : Bool := u8 e 6 == 1
def reFrc (e : Bytes) : Nat := u8 e 7
def reTaps (e : Bytes) : Nat := if u8 e 8 = 0 then 8 else u8 e 8
def reEnergy (e : Bytes) : Nat := u8 e 9
def rePriority (e : Bytes) : Nat := u8 e 10
def reTally (e : Bytes) : Nat := u8 e 11
def reLive (e : Bytes) : Bool := bit (u8 e 12) 0
def reJoin (e : Bytes) : Bool := bit (u8 e 12) 1
def reNoRestore (e : Bytes) : Bool := bit (u8 e 12) 2
def reFade (e : Bytes) : Nat := if u8 e 13 = 255 then 1 else u8 e 13
def reProfile (e : Bytes) : Nat := u16 e 14

/-- An entry that removes the route (R205), or no entry at all. -/
def reRemoves (e : Bytes) : Bool := e.isEmpty || reSource e == 0xFFFF

/-- An entry as it is stored and reported: TAPS 0 as 8 (R204); a removal keeps DEST and SOURCE alone (R205). -/
def storedEntry (e : Bytes) : Bytes :=
  if reRemoves e then le 2 (reDest e) ++ le 2 0xFFFF ++ zeros 28
  else sub e 0 8 ++ le 1 (reTaps e) ++ sub e 9 7 ++ zeros 16

/-- Classes (R231): 1 direct, 2 synchronised, 3 converted. -/
def clsDirect : Nat := 1
def clsSync : Nat := 2
def clsConv : Nat := 3

/-! ### Output configurations (R304) -/

def ocEnable (c : Bytes) : Bool := u8 c 2 == 1
def ocEngine (c : Bytes) : Nat := u8 c 3
def ocFormat (c : Bytes) : Bytes := sub c 4 16
def ocPhase (c : Bytes) : Nat := u32 c 20
def ocLaneOff (c : Bytes) : Bool := u8 c 24 == 1
def ocMatch (c : Bytes) : Nat := u16 c 26

/-- Destinations with a timing generator (R283). -/
def isTimed (d : Nat) : Bool := isSdi d || isIp d

/-- The output whose configuration stands for `d`: the first of its quad-link gang, or itself (R305). -/
def gangOf (s : State) (d : Nat) : Nat :=
  if isSdi d && fmtLink (ocFormat (getOutput s (d / 4 * 4)).committed) == 3 then d / 4 * 4 else d

/-- Whether `d` is lane 4j + 1, 4j + 2 or 4j + 3 of a quad-link destination gang. -/
def gangTail (s : State) (d : Nat) : Bool := gangOf s d != d

/-- An output that is enabled in its committed configuration (R205). -/
def outputOn (s : State) (d : Nat) : Bool := ocEnable (getOutput s d).committed

/-- An output drawing its charges: enabled as committed, or still as in force. -/
def outputCharged (s : State) (d : Nat) : Bool := outputOn s d || ocEnable (getOutput s d).config

/-! ### Ashlars (R328, R313) -/

def acEnable (c : Bytes) : Bool := u8 c 1 == 1
def acSlots (c : Bytes) : Nat := if u8 c 2 = 0 then 3 else u8 c 2
def acDrive (c : Bytes) : Nat := u16 c 4
def acPalette (c : Bytes) (i : Nat) : Nat := u32 c (8 + 4 * i)

/-- Whether Ashlar `k` is enabled as committed. -/
def ashlarOn (s : State) (k : Nat) : Bool := acEnable (getAshlar s k).committed

/-- Its canvas: the configured format of its drive output (R306). -/
def canvasOf (s : State) (k : Nat) : Bytes := ocFormat (getOutput s (acDrive (getAshlar s k).committed)).committed

/-- The enabled Ashlar that destination `d` is the drive output of. -/
def ashlarDriving (s : State) (d : Nat) : Option Nat :=
  (Tab.keys s.ashlars).find? fun k => ashlarOn s k && acDrive (getAshlar s k).committed == d

/-- R308: the route from `src` to `d` is fed by an Ashlar. -/
def fedByAshlar (s : State) (src d : Nat) : Bool :=
  isAshlarObj src && ashlarOn s (src - 0xC0) && acDrive (getAshlar s (src - 0xC0)).committed == d

/-! ### Tie lines (R456) and network (R439) -/

def tieSendKey (t : Nat) : Nat := t
def tieRecvKey (t : Nat) : Nat := 32 + t
def tcEnable (c : Bytes) : Bool := u8 c 2 == 1
def tcFormat (c : Bytes) : Bytes := sub c 4 16

/-- The contract a receive tie line gives its source (R451): FIXED, in the layout of R163. -/
def tieContract (t : Nat) (c : Bytes) : Bytes :=
  le 2 (0x100 + t) ++ le 1 0 ++ le 1 (u8 c 21) ++ tcFormat c ++ le 2 0 ++ le 1 (u8 c 20) ++ le 1 0 ++ le 4 (u32 c 24) ++
  le 2 (u16 c 22) ++ zeros 10

def ncEnable (c : Bytes) : Bool := u8 c 1 == 1
def netLaneOn (s : State) (p : Nat) : Bool := ncEnable (getNet s p).config
def aditOn (s : State) : Bool := s.adit.enable

/-- Key of a flow (R415): direction 0 receive, 1 send. -/
def flowKey (dir kind index : Nat) : Nat := 1024 * dir + 256 * kind + index
def fcEnable (c : Bytes) : Bool := u8 c 2 == 1
def fcPorts (c : Bytes) : Nat := u8 c 3

/-! ### Formats of joined units (R206) -/

/-- The format of a source for R206: the measured one while FORMATTED, else the contract's or ceiling; of a writeback its
canvas, and of a pattern generator the one it adopted (R600). -/
def routeFormat (s : State) (src : Nat) : Bytes :=
  if isAshlarObj src then canvasOf s (src - 0xC0)
  else if isPattern src then Tab.get s.store.patterns src []
  else
    let x := getSource s src
    match x.contract with
    | none => []
    | some c => if ctFollow c ∧ x.state = .formatted ∧ !x.adopted.isEmpty then x.adopted else ctFormat c

/-- Configured format of a destination; of an Ashlar output none of its own (R309). -/
def destFormat (s : State) (d : Nat) : Bytes :=
  if isTie d then tcFormat (getTie s (tieSendKey (d - 0x100))).config
  else ocFormat (getOutput s d).committed

/-- Of two formats, the one with the higher pixel rate. -/
def heavierFormat (a b : Bytes) : Bytes := if pixelRate a < pixelRate b then b else a

/-- Format a destination is charged at: while a change waits, the heavier of the one in force and the committed one, since
old and new charges both count at admission (R469, log entry 11). -/
def chargedFormat (s : State) (d : Nat) : Bytes :=
  if isTie d then destFormat s d
  else
    let o := getOutput s d
    if ocEnable o.config then
      (if ocEnable o.committed then heavierFormat (ocFormat o.config) (ocFormat o.committed) else ocFormat o.config)
    else ocFormat o.committed

/-- An Ashlar is charged from the admission of its enable until its disable takes effect. -/
def ashlarCharged (s : State) (k : Nat) : Bool := ashlarOn s k || (getAshlar s k).enabled

/-- The canvas an Ashlar is charged at. -/
def chargedCanvas (s : State) (k : Nat) : Bytes :=
  let a := getAshlar s k
  heavierFormat (if a.enabled then chargedFormat s (acDrive a.config) else [])
    (if ashlarOn s k then chargedFormat s (acDrive a.committed) else [])

/-- Ancillary area of a source's slots, in bytes. -/
def sourceAnc (s : State) (src : Nat) : Nat :=
  match (getSource s src).contract with
  | some c => ctAncArea c
  | none => 0

/-! ### Conversion (R234, R264) -/

/-- Frame rates differ. -/
def ratesDiffer (f g : Bytes) : Bool := fpsNum f * fpsDen g != fpsNum g * fpsDen f

/-- R264: whether a conversion deinterlaces. -/
def deinterlaces (src dst : Bytes) : Bool :=
  fmtScan src != 0 && !(fmtHeight src == fmtHeight dst && fmtScan src == fmtScan dst && fmtRate src == fmtRate dst)

/-- R234: whether an assignment is interpolating. -/
def interpolating (src dst : Bytes) (frc : Nat) : Bool := deinterlaces src dst || (ratesDiffer src dst && frc != 0)

/-- 100 f of R234. -/
def loadFactor (src dst : Bytes) (frc : Nat) : Nat :=
  let base := if !ratesDiffer src dst || frc == 0 then 100 else if frc = 1 then 105 else 120
  if deinterlaces src dst then base * 120 else base * 100

/-- Output load, pixels a second (R234). -/
def outLoad (src dst : Bytes) (frc : Nat) : Nat :=
  fmtWidth dst * fmtHeight dst * fpsNum dst * loadFactor src dst frc / (fpsDen dst * 10000)

/-- Source frames read for each frame made: k of R234. -/
def readsOf (src dst : Bytes) (frc : Nat) : Nat := if interpolating src dst frc then 2 else 1

/-- Input load, pixels a second (R234). -/
def inLoad (src dst : Bytes) (frc : Nat) : Nat :=
  readsOf src dst frc * fmtWidth src * fmtHeight src * fpsNum dst / fpsDen dst

/-- Whether the motion unit runs for a conversion (R236). -/
def motionUnit (src dst : Bytes) (frc : Nat) : Bool :=
  deinterlaces src dst || (ratesDiffer src dst && frc == 2)

/-- Capacity of an engine, output and input, pixels a second (R233). -/
def outCapacity (s : State) (k : Nat) : Nat := if (getCrusher s k).derated then 450000000 else 600000000
def inCapacity (s : State) (k : Nat) : Nat := if (getCrusher s k).derated then 1350000000 else 1800000000

/-- Number of engines of the product (R2). -/
def engineCount (s : State) : Nat := unitCount s.product 32

/-- The contexts on an engine, with those scheduled to move there (R250: the new context is admitted beside the old). -/
def contextsOn (s : State) (k : Nat) : List (Nat × Context) :=
  s.contexts.filter fun p => p.2.engine == k || (p.2.migration.map (·.engine)) == some k

/-- The source format a conversion works from (R206, R234). -/
def contextSource (s : State) (src : Nat) : Bytes := routeFormat s src

/-- What a conversion of a source is charged for: its format, and the frame bytes and ancillary area of its bench, which are
those of the ceiling under FOLLOW (R237). A contract change that waits counts beside the contract in force (R241). -/
def contextBenches (s : State) (src : Nat) : List (Bytes × Nat × Nat) :=
  let bench := match (getSource s src).contract with
    | some c => frameBytes (ctFormat c)
    | none => frameBytes (routeFormat s src)
  (contextSource s src, bench, sourceAnc s src) ::
    (getSource s src).pendingContract.toList.map fun c => (ctFormat c, frameBytes (ctFormat c), ctAncArea c)

/-- Load of an assignment, output and input (R234): the heavier, where a contract change waits. -/
def entryLoad (s : State) (d : Nat) (e : Bytes) : Nat × Nat :=
  (contextBenches s (reSource e)).foldl (fun a p =>
    (max a.1 (outLoad p.1 (destFormat s d) (reFrc e)), max a.2 (inLoad p.1 (destFormat s d) (reFrc e)))) (0, 0)

/-- Load of one context, output and input: the heaviest of the entry it runs and those that are to replace it (R241). -/
def contextLoad (s : State) (d : Nat) (c : Context) : Nat × Nat :=
  (c.entry :: c.pendingEntries).foldl (fun a e => (max a.1 (entryLoad s d e).1, max a.2 (entryLoad s d e).2)) (0, 0)

/-- Summed loads of an engine. -/
def engineLoad (s : State) (k : Nat) : Nat × Nat :=
  (contextsOn s k).foldl (fun n p => (n.1 + (contextLoad s p.1 p.2).1, n.2 + (contextLoad s p.1 p.2).2)) (0, 0)

/-- Whether the motion unit of an engine runs, or is charged for a change that waits (R236, R224). -/
def engineMotion (s : State) (k : Nat) : Bool :=
  (contextsOn s k).any fun p => (p.2.entry :: p.2.pendingEntries).any fun e =>
    (contextBenches s (reSource e)).any fun b => motionUnit b.1 (destFormat s p.1) (reFrc e)

/-! ### What each destination's route claims (R207, R224) -/

/-- Route entries with their classes that a destination has, or is to have by changes that wait: the one in force, those latched
for their switch instant, and those admitted and not yet in effect (R224). -/
def baseClaims (s : State) (d : Nat) : List (Bytes × Nat) :=
  let r := getRoute s d
  let now := if reRemoves r.entry || r.state == .shed then [] else [(r.entry, r.cls)]
  let next := r.next.map fun n => (n.entry, n.cls)
  let coming := (s.fm.shadow.filter fun x => x.unit == d).flatMap fun x =>
    match x.body with
    | .route e c => [(e, c)]
    | .classChange c _ => [(r.entry, c)]
    | .hold _ => []
    | _ => []
  (now ++ next ++ coming).filter fun p => !reRemoves p.1

/-- What a destination is charged for: those, and the conversion that an admitted contract change of its source will bring
(R135). -/
def routeClaims (s : State) (d : Nat) : List (Bytes × Nat) :=
  let base := baseClaims s d
  match getContext s d with
  | some x => if base.any fun p => p.2 == 3 then base else base ++ [(x.entry, 3)]
  | none => base

end Sys2Proof.Machine
end

