-- ==== Sys2Proof/Machine/Candidates.lean ====
section
/-! DEFINITION. Candidates of the reference engines (R392-R397): the fields of a configuration, the quality and the state of a
candidate, and what a change of either raises and counts. -/

namespace Sys2Proof.Machine

/-! ### Configuration fields (R407) -/

def rcRevertive (c : Bytes) : Bool := bit (u8 c 1) 0
def rcSlew (c : Bytes) : Bool := bit (u8 c 1) 1
def rcMinQuality (c : Bytes) : Nat := if u8 c 2 = 0 then 2 else u8 c 2
/-- SLEW_PPM, in 0.1 ppm. -/
def rcSlewPpm (c : Bytes) : Nat := if u8 c 3 = 0 then 100 else u8 c 3
def rcTrackBw (c : Bytes) : Nat := if u16 c 4 = 0 then 5 else u16 c 4
def rcHoldover (c : Bytes) : Nat := if u32 c 8 = 0 then 600 else u32 c 8
def rcOffset (c : Bytes) : Int := signed 4 (u32 c 12)
def rcSlewLimit (c : Bytes) : Nat := if u32 c 16 = 0 then 100000 else u32 c 16
def rcEntry (c : Bytes) (k : Nat) : Bytes := sub c (24 + 16 * k) 16
def ceKind (e : Bytes) : Nat := u8 e 0
def cePriority (e : Bytes) : Nat := u8 e 1
def ceIndex (e : Bytes) : Nat := u16 e 2
def ceDomain (e : Bytes) : Nat := u8 e 4
def ceDelay (e : Bytes) : Int := signed 4 (u32 e 8)

def slots : List Nat := [0, 1, 2, 3, 4, 5, 6, 7]

def getCand (x : RefEngine) (k : Nat) : Candidate := Tab.get x.candidates k {}

/-- Enabled reference input, 0-3 (R407). -/
def inputEnabled (s : State) (i : Nat) : Bool := u8 (getRefInput s i).config 1 == 1

/-- Reference input of a candidate entry, if it is one. -/
def ceInput (e : Bytes) : Option Nat :=
  match ceKind e with
  | 1 => some (ceIndex e)
  | 4 => some (2 + ceIndex e)
  | _ => none

/-- Quality of an SDI candidate (R395, R396): 0 beyond the capture range of 50 ppm against the oscillator. -/
def sdiQuality (s : State) (i : Nat) : Nat :=
  let x := getSource s i
  if x.state != .formatted || decide (5000 < (getLane s i).ppm.natAbs) then 0 else if x.rateBreach then 1 else 3

/-- Quality of a candidate as it stands: 0 while its input is disabled, its ports are down, or its SDI input is not
FORMATTED (R394, R395). -/
def candQuality (s : State) (x : RefEngine) (k : Nat) : Nat :=
  let e := rcEntry x.config k
  let q := (getCand x k).quality
  match ceKind e with
  | 0 => 0
  | 2 => if ([0, 1, 2, 3] : List Nat).any fun p => bit (ceIndex e) p && (getNet s p).link == .up then q else 0
  | 3 => sdiQuality s (ceIndex e)
  | _ =>
    match ceInput e with
    | some i => if inputEnabled s i then q else 0
    | none => 0

def qualified (s : State) (x : RefEngine) (k : Nat) : Bool := decide (rcMinQuality x.config ≤ candQuality s x k)

/-- A quotient whose rounding the manual does not give: exact where it comes out whole, else the neighbour below or above
(log entry 96). -/
def openDiv (n : Int) (d : Nat) : Int := n / d + (if n % d ≠ 0 ∧ Config.roundsUp n d then 1 else 0)

/-- The frequency offset of the time source's engine while it is LOCKED, in 0.001 ppm: rates measured against the oscillator are
corrected by it (R148, R378, R404). -/
def timeOffset (s : State) : Int :=
  match s.refs.timeSource with
  | some e => if (getRef s e).state = .locked then (getRef s e).freq else 0
  | none => 0

/-- A rate measured against the oscillator, in 0.01 ppm, against device time. -/
def deviceRate (s : State) (ppm : Int) : Int := openDiv (10 * ppm - timeOffset s) 10

/-- CAND_STATE of a slot (R407). -/
def candState (s : State) (x : RefEngine) (k : Nat) : Nat :=
  if ceKind (rcEntry x.config k) = 0 then 0
  else if x.selected = some k then 3
  else if !qualified s x k then 1
  else if (getCand x k).waiting then 4 else 2

/-- REF_CANDIDATE of a slot whose quality was `old` (R408). -/
def candEvent (s : State) (e k old : Nat) : State :=
  let x := getRef s e
  raise s 0x51 e (le 1 k ++ le 1 (ceKind (rcEntry x.config k)) ++ le 1 old ++ le 1 (candQuality s x k) ++ le 1 (candState s x k))

/-- A slot before and after a change (R396, R397, R408): a loss of qualification that no configuration brought is counted and
ends a wait; a PTP candidate whose ports are all down has to requalify; a change of quality or of CAND_STATE is reported. -/
def slotChanges (before s : State) (e k : Nat) : State :=
  let a := getRef before e
  let b := getRef s e
  let same := rcEntry a.config k == rcEntry b.config k && rcMinQuality a.config == rcMinQuality b.config
  let lost := same && qualified before a k && !qualified s b k
  let c := getCand b k
  let dark := ceKind (rcEntry b.config k) == 2 && candQuality s b k == 0
  let c' := { c with
    quality := if dark then 0 else c.quality, waiting := c.waiting && !lost
    losses := if lost then satInc 32 c.losses else c.losses }
  let s := if c' = c then s else setRef s e { b with candidates := Tab.set b.candidates k c' }
  if candQuality before a k = candQuality s (getRef s e) k ∧ candState before a k = candState s (getRef s e) k then s
  else candEvent s e k (candQuality before a k)

/-- A measurement of a PTP candidate whose ports are all down counts for nothing (R394, R396). -/
def ptpDown (s : State) : State :=
  { s with refs := { s.refs with measured := s.refs.measured.map fun g =>
      if g.kind = 2 ∧ !(([0, 1, 2, 3] : List Nat).any fun p => bit g.index p && (getNet s p).link == .up) then { g with quality := 0 } else g } }

/-- What a change means for the candidates of every engine. -/
def candChanges (before s : State) : State :=
  (Tab.keys s.refs.engines).foldl (fun s e => slots.foldl (fun s k => slotChanges before s e k) s) s

end Sys2Proof.Machine
end

