-- ==== Sys2Proof/Machine/Layers.lean ====
section
/-! DEFINITION. Ashlar layers (R313-R319): their fields, which level of a source a layer fetches, coverage, and the
reservations of an Ashlar. -/

namespace Sys2Proof.Machine

/-! ### Layer entries (R313) -/

def leLayer (e : Bytes) : Nat := u8 e 0
def leKind (e : Bytes) : Nat := u8 e 1
def leFollow (e : Bytes) : Bool := bit (u8 e 2) 0
def lePin (e : Bytes) : Bool := bit (u8 e 2) 1
def leAlarm (e : Bytes) : Bool := bit (u8 e 2) 3
def leDestChannels (e : Bytes) : Bool := bit (u8 e 2) 4
def leOpacity (e : Bytes) : Nat := u8 e 3
def leX (e : Bytes) : Nat := u16 e 4
def leY (e : Bytes) : Nat := u16 e 6
def leW (e : Bytes) : Nat := u16 e 8
def leH (e : Bytes) : Nat := u16 e 10
def leSource (e : Bytes) : Nat := u16 e 12
def leCropX (e : Bytes) : Nat := u16 e 16
def leCropY (e : Bytes) : Nat := u16 e 18
def leCropW (e : Bytes) : Nat := u16 e 20
def leCropH (e : Bytes) : Nat := u16 e 22
def lePinFrame (e : Bytes) : Nat := u64 e 24
def leAlpha (e : Bytes) : Nat := u8 e 32
def leFreeze (e : Bytes) : Nat := u16 e 34

def kindNone : Nat := 0
def kindPicture : Nat := 1
def kindImage : Nat := 2
def kindFill : Nat := 3
def kindMeter : Nat := 4
def kindTally : Nat := 5

/-- Whether a layer fetches from the frame store (R314). -/
def leFetches (e : Bytes) : Bool := leKind e == 1 || leKind e == 2

/-- Whether a layer is opaque (R314). -/
def leOpaque (e : Bytes) : Bool :=
  leOpacity e == 255 && (leKind e == 1 || leKind e == 3 || (leKind e == 2 && leAlpha e == 0))

/-- The source of a layer: with FOLLOW, that of the route to the Ashlar output (R309). -/
def layerSource (s : State) (k : Nat) (e : Bytes) : Nat :=
  if leFollow e then
    let r := getRoute s (0xC0 + k)
    if reRemoves r.entry then 0xFFFF else reSource r.entry
  else leSource e

/-! ### Coverage (R319) -/

/-- A rectangle: left, top, right, bottom; right and bottom lie outside it. -/
structure Rect where
  x0 : Nat
  y0 : Nat
  x1 : Nat
  y1 : Nat
  deriving DecidableEq, Repr

def Rect.isEmpty (r : Rect) : Bool := decide (r.x1 ≤ r.x0) || decide (r.y1 ≤ r.y0)

/-- A layer's rectangle clipped to the canvas (R314). -/
def layerRect (canvas e : Bytes) : Rect :=
  { x0 := leX e, y0 := leY e, x1 := min (leX e + leW e) (fmtWidth canvas), y1 := min (leY e + leH e) (fmtHeight canvas) }

/-- What is left of `r` outside `q`: above, below, left and right of it. -/
def Rect.minus (r q : Rect) : List Rect :=
  let top := max r.y0 q.y0
  let bot := min r.y1 q.y1
  let left := max r.x0 q.x0
  let right := min r.x1 q.x1
  if right ≤ left ∨ bot ≤ top then [r]
  else
    ([{ r with y1 := top }, { r with y0 := bot }, { x0 := r.x0, y0 := top, x1 := left, y1 := bot },
      { x0 := right, y0 := top, x1 := r.x1, y1 := bot }] : List Rect).filter fun x => !x.isEmpty

/-- What is left of a list of rectangles outside another list. -/
def uncovered (rs : List Rect) : List Rect → List Rect
  | [] => rs
  | q :: qs => uncovered (rs.flatMap fun r => r.minus q) qs

/-- R319: whether layer `i` of a layer table is covered on a canvas. -/
def layerCovered (canvas : Bytes) (layers : Tab Bytes) (i : Nat) (e : Bytes) : Bool :=
  leOpacity e == 0 && leKind e != 4 && leKind e != 5 ||
  (uncovered (if (layerRect canvas e).isEmpty then [] else [layerRect canvas e])
    ((layers.filter fun p => decide (i < p.1) && leOpaque p.2).map fun p => layerRect canvas p.2)).isEmpty

/-! ### Levels and reservations (R317, R318) -/

/-- The crop of a layer on a frame of format `f`: width, height and top line. -/
def cropOf (f e : Bytes) : Nat × Nat × Nat :=
  if leCropW e = 0 then (fmtWidth f, fmtHeight f, 0) else (leCropW e, leCropH e, leCropY e)

/-- Level fetched (R317): 8, 4 or 2 for a proxy, 1 for the full frame. -/
def levelOf (f e : Bytes) (proxy : Bool) : Nat :=
  let c := cropOf f e
  if !proxy then 1
  else if leW e * 8 ≤ c.1 ∧ leH e * 8 ≤ c.2.1 then 8
  else if leW e * 4 ≤ c.1 ∧ leH e * 4 ≤ c.2.1 then 4
  else if leW e * 2 ≤ c.1 ∧ leH e * 2 ≤ c.2.1 then 2
  else 1

/-- Code of a level (R328): 0 full, 1, 2, 3 for ½, ¼, ⅛. -/
def levelCode : Nat → Nat
  | 2 => 1
  | 4 => 2
  | 8 => 3
  | _ => 0

/-- B of R318 on one format: bytes of the level that the crop spans, in whole lines of the level. -/
def levelBytes (f e : Bytes) (proxy : Bool) : Nat :=
  let k := levelOf f e proxy
  let c := cropOf f e
  let lines := fun (total step : Nat) => min total (ceilDiv (c.2.2 + c.2.1) step) - c.2.2 / step
  if k = 1 then
    lumaPitch f * lines (fmtHeight f) 1 +
      chromaPitch f * (if fmtSampling f = 2 then lines (fmtHeight f / 2) 2 else lines (fmtHeight f) 1)
  else 2 * linePitch 10 (roundUp (ceilDiv (fmtWidth f) k) 2) * lines (ceilDiv (fmtHeight f) k) k

/-- The sizes of the rasters that SDI carries (R132, R598). -/
def sdiSizes : List (Nat × Nat) := [(720, 486), (720, 576), (1280, 720), (1920, 1080), (3840, 2160), (7680, 4320)]

/-- The formats a ceiling admits, as far as sizes go: FOLLOW stands on SDI inputs alone, so SDI carries each at some rate that the
ceiling admits (R133, R134). -/
def ceilingFormats (c : Bytes) : List Bytes :=
  ((sdiSizes.filter fun z => decide (z.1 ≤ fmtWidth c) && decide (z.2 ≤ fmtHeight c)).flatMap fun z =>
    (([0, 1] : List Nat).filter fun m => decide (m ≤ fmtSampling c)).flatMap fun m =>
      (([10, 12] : List Nat).filter fun d => decide (d ≤ fmtDepth c)).filterMap fun d =>
        let f := fun (rate scan : Nat) => le 2 z.1 ++ le 2 z.2 ++ le 1 rate ++ le 1 scan ++ le 1 m ++ le 1 d ++ sub c 8 8
        if (List.range (fmtRate c)).any fun r => ([0, 1, 2] : List Nat).any fun k => rateCode (f (r + 1) k) != 0 then
          some (f (fmtRate c) (fmtScan c))
        else none)

/-- The largest of a list. -/
def maxOf (l : List Nat) : Nat := l.foldl max 0

/-- B of a layer under a contract (R318): under FOLLOW the largest over the formats its ceiling admits. -/
def contractBytes (c e : Bytes) : Nat :=
  if ctFollow c then maxOf ((ceilingFormats (ctFormat c)).map fun f => levelBytes f e (ctProxy c))
  else levelBytes (ctFormat c) e (ctProxy c)

/-- The formats a source without a contract has, or is to have by a change that waits. -/
def plainFormats (s : State) (src : Nat) : List Bytes :=
  routeFormat s src ::
    (if isAshlarObj src && (getAshlar s (src - 0xC0)).enabled then
      [ocFormat (getOutput s (acDrive (getAshlar s (src - 0xC0)).config)).config] else [])

/-- B of a layer as admission sizes it (R318): the largest, where a change of the source's format waits. -/
def layerBytes (s : State) (src : Nat) (e : Bytes) : Nat :=
  if src = 0xFFFF then 0
  else
    match (getSource s src).contract.toList ++ (getSource s src).pendingContract.toList with
    | [] => maxOf ((plainFormats s src).map fun f => levelBytes f e false)
    | cs => maxOf (cs.map fun c => contractBytes c e)

/-- (bytes) × F × (T / A) of the canvas, rounded up (R318). -/
def canvasRate (canvas : Bytes) (n : Nat) : Nat :=
  ceilDiv (n * fpsNum canvas * totalLines canvas) (fpsDen canvas * rasterLines canvas)

/-- A layer table with changes made to it: an empty entry removes the layer. -/
def changeLayers (t : Tab Bytes) (es : List (Nat × Bytes)) : Tab Bytes :=
  es.foldl (fun t p => if p.2.isEmpty then Tab.erase t p.1 else Tab.set t p.1 p.2) t

/-- The layer tables of an Ashlar: the one in force, and after each admitted change that has not taken effect. -/
def layerTables (s : State) (k : Nat) : List (Tab Bytes) :=
  s.fm.shadow.foldl (fun l x => match x.body with
    | .layers j es => if j = k then l ++ [changeLayers (l.getLast?.getD []) es] else l
    | _ => l) [(getAshlar s k).layers]

/-- The sources its FOLLOW layers read, by the route in force and the routes admitted and not yet in effect; 0xFFFF for none. -/
def followSources (s : State) (k : Nat) : List Nat :=
  let e := (getRoute s (0xC0 + k)).entry
  ((if reRemoves e then 0xFFFF else reSource e) :: (baseClaims s (0xC0 + k)).map fun p => reSource p.1).eraseDups

/-- The layers of a table that are fetched, each with its entry and source, FOLLOW layers reading `follow` (R318, R319). -/
def tableReads (s : State) (canvas : Bytes) (layers : Tab Bytes) (follow : Nat) : List (Nat × Bytes × Nat) :=
  layers.filterMap fun p =>
    let src := if leFollow p.2 then follow else leSource p.2
    if leFetches p.2 && !layerCovered canvas layers p.1 p.2 && layerBytes s src p.2 != 0 then some (p.1, p.2, src) else none

/-- All read reservations of an Ashlar, with the source each reads: each layer once for every entry and source it has, or is to
have by an admitted change of the layers or of the route that has not taken effect (R318). -/
def readsAt (s : State) (k : Nat) (canvas : Bytes) : List (Nat × Nat) :=
  (((layerTables s k).flatMap fun t => (followSources s k).flatMap (tableReads s canvas t)).eraseDups).map fun r =>
    (r.2.2, canvasRate canvas (layerBytes s r.2.2 r.2.1 + 256))

/-- The same on its canvas; none of a disabled Ashlar. -/
def ashlarReads (s : State) (k : Nat) : List (Nat × Nat) := if ashlarOn s k then readsAt s k (canvasOf s k) else []

/-- Write reservation of the writeback (R318). -/
def writebackRate (s : State) (k : Nat) : Nat := canvasRate (canvasOf s k) (frameBytes (canvasOf s k) + 256)

def sumOf (l : List Nat) : Nat := l.foldl (· + ·) 0

end Sys2Proof.Machine
end

