-- ==== Sys2Proof/Machine/Channels.lean ====
section
/-! DEFINITION. Audio channels (R331-R346): which source channels are active, which destination channels are served, the
halves that serve them, and map entries. -/

namespace Sys2Proof.Machine

/-! ### Map entries (R344) -/

def meDest (e : Bytes) : Nat := u16 e 0
def meSource (e : Bytes) : Nat := u16 e 2
def meMode (e : Bytes) : Nat := u8 e 4
def meInvert (e : Bytes) : Bool := bit (u8 e 5) 0
def meFollow (e : Bytes) : Bool := bit (u8 e 5) 1
def mePair (e : Bytes) : Bool := bit (u8 e 5) 2
def meAsrc (e : Bytes) : Nat := bits (u8 e 5) 4 3
def meGain (e : Bytes) : Int := signed 2 (u16 e 6)
def meFade (e : Bytes) : Nat := u8 e 10
def meDelay (e : Bytes) : Int := signed 4 (u32 e 12)

/-- FOLLOW_DEST: for an embedded channel, 0xFFFF stands for its output (R344). -/
def meFollowDest (e : Bytes) : Option Nat :=
  if u16 e 8 ≠ 0xFFFF then some (u16 e 8) else if meDest e < 0x1000 then some (meDest e / 32) else none

/-- Channel spaces of the product (R2, R14, R331, R332). -/
def validSrcCh (p : Product) (c : Nat) : Bool :=
  if c < 0x1000 then decide (c < 32 * sdiCount p) else if c < 0x1800 then decide (c < 0x1000 + unitCount p 2048)
  else decide (c < 0x1A00)

def validDstCh (p : Product) (c : Nat) : Bool := validSrcCh p c

/-- The half that serves a destination channel (R337). -/
def halfOf (c : Nat) : Nat :=
  if c < 0x1000 then (if c < 0x800 then 0 else 1)
  else if c < 0x1800 then (if c < 0x1400 then 0 else 1)
  else if c < 0x1900 then (if c < 0x1880 then 0 else 1)
  else if c < 0x1980 then 0 else 1

/-! ### Embedding (R341) -/

/-- Embed mode word of an output: 0 DEFAULT, else CHANNELS of MAPPED. -/
def embedOf (s : State) (n : Nat) : Nat := Tab.get s.audio.embed n 0

/-- Channels an enabled SDI output is charged for (R341). -/
def chargedChannels (s : State) (n : Nat) : Nat := if embedOf s n = 0 then 32 else embedOf s n

/-- SDI outputs that embed: enabled, and not lanes 2-4 of a gang (R333). -/
def embedders (s : State) : List Nat :=
  (Tab.keys s.outputs).filter fun d => isSdi d && outputOn s d && !gangTail s d

/-- Whether a destination channel is within the charged channels of an enabled output. -/
def channelCharged (s : State) (c : Nat) : Bool :=
  decide (c < 0x1000) && outputOn s (c / 32) && isSdi (c / 32) && !gangTail s (c / 32) &&
  decide (c % 32 < chargedChannels s (c / 32))

/-- R335: whether a destination channel is served. -/
def channelServed (s : State) (c : Nat) : Bool :=
  meMode (getAdest s c).committed != 0 || channelCharged s c

/-- Served destination channels of a half, counted. -/
def servedIn (s : State) (half : Nat) : Nat :=
  sumOf ((embedders s).map fun n => if halfOf (32 * n) = half then chargedChannels s n else 0) +
    ((Tab.keys s.audio.dests).filter fun c =>
      halfOf c == half && !channelCharged s c && meMode (getAdest s c).committed != 0).length

/-- ASRC channels in use in a half. -/
def asrcUsed (s : State) (half : Nat) : List Nat :=
  s.audio.dests.flatMap fun p =>
    match p.2.asrc with
    | some k => if k / 256 = half then [k] else []
    | none => []

/-! ### Active source channels (R334) -/

/-- Binding of a flow or group, by 256 × KIND + INDEX (R342). -/
def bindOf (s : State) (kind index : Nat) : Option FlowBind :=
  (s.audio.binds.find? fun p => p.1 == 256 * kind + index).map (·.2)

/-- Whether a binding's object is enabled: its flow, or for Adit groups the link. -/
def bindActive (s : State) (key : Nat) : Bool :=
  match key / 256 with
  | 0 => fcEnable (getFlow s (flowKey 0 1 (key % 256))).config
  | 1 => fcEnable (getFlow s (flowKey 1 1 (key % 256))).config
  | _ => aditOn s

/-- Fields of an audio port's configuration (R387). -/
def pcEnable (c : Bytes) : Bool := u8 c 1 == 1
def pcOutput (c : Bytes) : Bool := u8 c 2 == 1
def pcTdm (c : Bytes) : Bool := u8 c 3 == 1
def pcSlots (c : Bytes) : Nat := u8 c 4
def pcMaster (c : Bytes) : Bool := u8 c 5 == 1
def pcEngine (c : Bytes) : Nat := u8 c 6
def pcAlign (c : Bytes) : Bool := bit (u8 c 7) 5
def pcMask (c : Bytes) : Nat := u16 c 8
def pcRateTol (c : Bytes) : Nat := if u16 c 10 = 0 then 100 else u16 c 10
def pcPhase (c : Bytes) : Nat := u32 c 12

/-- Active slots of a port configuration. -/
def pcActive (c : Bytes) : List Nat := (List.range (pcSlots c)).filter fun i => bit (pcMask c) i

/-- Test sources some map entry reads (R334). -/
def testSources (s : State) : List Nat :=
  ((s.audio.dests.filterMap fun p =>
    if meMode p.2.committed = 1 ∧ 0x1941 ≤ meSource p.2.committed then some (meSource p.2.committed) else none)).eraseDups

/-- Active source channels, counted (R334). -/
def activeSources (s : State) : Nat :=
  sumOf (s.sources.map fun p => if isSdi p.1 && p.2.enabled then ctAudioLimit (p.2.contract.getD []) else 0) +
    sumOf (s.audio.binds.map fun p => if p.1 / 256 % 2 = 0 ∧ bindActive s p.1 then p.2.count else 0) +
    sumOf (s.aports.map fun p =>
      if pcEnable p.2.committed && !pcOutput p.2.committed then (pcActive p.2.committed).length else 0) +
    (s.audio.tones.filter fun p => u8 p.2 1 != 0).length + (testSources s).length

/-- R334: whether one source channel is active. -/
def sourceActive (s : State) (c : Nat) : Bool :=
  if c < 0x1000 then
    (getSource s (c / 32)).enabled && decide (c % 32 < ctAudioLimit (contractBytes s (c / 32)))
  else if c < 0x1800 then
    s.audio.binds.any fun p =>
      p.1 / 256 % 2 == 0 && bindActive s p.1 && decide (0x1000 + p.2.base ≤ c) && decide (c < 0x1000 + p.2.base + p.2.count)
  else if c < 0x1900 then
    let cfg := (getAport s ((c - 0x1800) / 16)).committed
    pcEnable cfg && !pcOutput cfg && bit (pcMask cfg) (c % 16)
  else if c < 0x1940 then u8 (Tab.get s.audio.tones (c - 0x1900) []) 1 != 0
  else if c = 0x1940 then false
  else (testSources s).contains c
where
  /-- The contract of an SDI input. -/
  contractBytes (s : State) (n : Nat) : Bytes := (getSource s n).contract.getD []

/-! ### Histories (R334, R360-R364) -/

/-- Samples a history holds. -/
def historyDepth : Nat := 192000

/-- A sample enters a channel's history. While the channel fades in it is a free value, since the manual does not give the shape of
its ramps (log entry 120). -/
def pushSample (s : State) (k : Nat) (v : BitVec 24) : State :=
  let x := getAsrc s k
  if x.ramp = 0 then setAsrc s k { x with samples := (v :: x.samples).take historyDepth }
  else
    let r := takeLong s
    setAsrc r.2 k { x with samples := (r.1.setWidth 24 :: x.samples).take historyDepth, ramp := x.ramp - 1 }

/-- A channel loses its source (R363, R377): a PCM channel is ramped to zero over 5 ms, 240 samples, and zeros follow; a non-PCM one
takes zeros at once. -/
def rampDown (s : State) (k : Nat) : State :=
  let x := getAsrc s k
  if x.lostAt.isSome then s
  else if x.nonPcm then setAsrc s k { x with lostAt := some s.now, ramp := 0, measured := false, lockedTo := [] }
  else
    let fall := (List.range 240).map fun i => (Config.freeLong (s.free + 239 - i)).setWidth 24
    setAsrc { s with free := s.free + 240 } k { x with
      lostAt := some s.now, ramp := 0, measured := false, lockedTo := [], samples := (fall ++ x.samples).take historyDepth }

/-- Its source is back: the zeros written meanwhile stand in the history, and a PCM channel fades in over 5 ms. It counts as
measured for 10 s no more (R356). -/
def rampUp (s : State) (k : Nat) : State :=
  let x := getAsrc s k
  match x.lostAt with
  | none => s
  | some t =>
    let n := (s.now - t) * 48 / 1000000 - (if x.nonPcm then 0 else 240)
    setAsrc s k { x with
      lostAt := none, ramp := if x.nonPcm then 0 else 240
      samples := (List.replicate (min n historyDepth) 0 ++ x.samples).take historyDepth }

/-- The channels de-embedded from SDI input `n` (R331, R333). -/
def inputChannels (s : State) (n : Nat) : List Nat :=
  if isSdi n then (List.range (ctAudioLimit ((getSource s n).contract.getD []))).map (· + 32 * n) else []

/-- The channels of a network binding (R342). -/
def bindChannels (b : FlowBind) : List Nat := (List.range b.count).map fun i => 0x1000 + b.base + i

end Sys2Proof.Machine
end

