-- ==== Sys2Proof/Machine/Ledger.lean ====
section
/-! DEFINITION. The ledger's model (17): what every unit draws on every rail, the worst-case prediction W, the frame
store's reservations, and the admission checks of bandwidth, blocks and current. Charges are in nanoamperes and are
derived from the state, so what is charged is always what is configured (log entry 8). -/

namespace Sys2Proof.Machine

/-- A list of charges: rail and nanoamperes. -/
abbrev Charges := List (Nat × Nat)

/-- Milliamperes as nanoamperes. -/
def mA (n : Nat) : Nat := n * 1000000

/-- What a list of charges puts on a rail. -/
def onRail (cs : Charges) (r : Nat) : Nat := cs.foldl (fun n c => if c.1 = r then n + c.2 else n) 0

/-! ### Fuses and ceilings (R459-R461, R541) -/

/-- A byte of the fuse array as burned: an unburned fuse is 0. -/
def burnedByte (s : State) (i : Nat) : Nat := (Memory.read s.fuses i).toNat

/-- A byte of the fuse map (R541) as the ROM read it at this start-up, and at no other time (R542). -/
def fuseByte (s : State) (i : Nat) : Nat := (Memory.read s.fw.fuseMap i).toNat

/-- Whether board field `i` has been programmed (R542, R543). -/
def fieldDone (s : State) (i : Nat) : Bool := bit (fuseByte s (0x1FC + i / 8)) (i % 8)

/-- A board field of `n` bytes at `off`, read as 0 while it is not programmed (R542). -/
def fuseField (s : State) (field off n : Nat) : Nat :=
  if fieldDone s field then
    match n with
    | 1 => fuseByte s off
    | 2 => fuseByte s off + 256 * fuseByte s (off + 1)
    | _ => u48 (Memory.readBytes s.fw.fuseMap off 6) 0
  else 0

/-- Rail maxima in 0.1 A (R459). -/
def railMax : Nat → Nat
  | 0 => 800
  | 1 => 60
  | 2 => 140
  | 3 => 60
  | 4 => 140
  | 5 => 10
  | 6 => 15
  | 7 => 3
  | 8 => 8
  | 9 => 2
  | _ => 0

def getRail (s : State) (r : Nat) : Rail := Tab.get s.rails r {}
def setRail (s : State) (r : Nat) (v : Rail) : State := { s with rails := Tab.set s.rails r v }

/-- Hard ceiling in 0.1 A (R460). -/
def hardCeiling (s : State) (r : Nat) : Nat :=
  let f := fuseField s (3 + r) (0x10C + 2 * r) 2
  if f = 0 ∨ railMax r < f then railMax r else f

/-- Effective ceiling in 0.1 A (R461). -/
def ceiling (s : State) (r : Nat) : Nat :=
  let x := getRail s r
  if x.soft = 0 ∨ x.softIgnored then hardCeiling s r else x.soft

/-! ### Domains -/

def getDomain (s : State) (d : Nat) : Domain := Tab.get s.domains d {}
def setDomain (s : State) (d : Nat) (v : Domain) : State := { s with domains := Tab.set s.domains d v }

/-- A domain that draws current: every state but OFF, until CUT (R476, R478). -/
def powered (s : State) (d : Nat) : Bool := (getDomain s d).state != .off && !(getDomain s d).cut

/-- A domain between CLOSE and CUT: its edge accepts nothing (R478). -/
def closing (s : State) (d : Nat) : Bool := (getDomain s d).state == .close || (getDomain s d).state == .drain

/-- An item dropped at the edge of a closing domain (R478). -/
def spoilItem (s : State) (d : Nat) : State :=
  let x := getDomain s d
  setDomain s d { x with spoil := (x.spoil + 1) % 2 ^ 64 }

/-- A FORCED_OFF domain whose power is removed: its units keep their configuration and draw nothing (R476, R480). -/
def gated (s : State) (d : Nat) : Bool := (getDomain s d).mode == 2 && !powered s d

/-- Leakage adder of a domain (R466). -/
def adderOf (d : Nat) : Charges :=
  if d < 0x10 then [(0, mA 5200), (1, mA 900), (8, mA 20)]
  else if d < 0x20 then [(0, mA 40), (2, mA 30)]
  else if d < 0x40 then [(0, mA 110), (1, mA 20)]
  else if d < 0x48 then [(0, mA 60), (1, mA 15)]
  else if d < 0x4C then [(0, mA 150), (1, mA 30), (2, mA 20)]
  else if d < 0x4E then [(0, mA 40), (1, mA 15)]
  else [(0, mA 40), (2, mA 20)]

/-- Adders in force on a rail; HX1288-EB charges each at 1.25 (R462). -/
def adders (s : State) (r : Nat) : Nat :=
  let all := adderOf 1 ++ (Tab.keys s.domains).flatMap fun d => if powered s d then adderOf d else []
  if s.product = .eb then onRail all r * 5 / 4 else onRail all r

/-! ### Charges of the units -/

/-- Fixed charges of the main domain (R464). -/
def mainCharges : Charges :=
  [(0, mA 1200), (1, mA 375), (0, mA 200), (0, mA 380), (8, mA 60), (6, mA 15), (7, mA 5), (9, mA 5)]

/-- A control port, charged at its L0 figure while it is enabled, and its running DMA engines (R41). -/
def portCharges (p : PortState) : Charges :=
  if p.present then
    [(2, mA 180), (3, mA 60), (0, mA 120)] ++
      p.dma.flatMap fun e => if e.2.job.isSome then [(0, mA 15)] else []
  else []

/-- An SDI receive lane at a rate code (R121). -/
def rxCharges : Nat → Charges
  | 5 => [(2, mA 40), (3, mA 10), (0, mA 9)]
  | 4 => [(2, mA 30), (3, mA 10), (0, mA 6)]
  | 2 => [(2, mA 21), (3, mA 10), (0, mA 3)]
  | _ => [(2, mA 24), (3, mA 10), (0, mA 4)]

/-- An SDI transmit lane at a rate code and swing (R121). -/
def txCharges (code swing : Nat) : Charges :=
  (3, mA 7 + 1500000 * swing) ::
    match code with
    | 5 => [(2, mA 38), (0, mA 6)]
    | 4 => [(2, mA 27), (0, mA 4)]
    | 2 => [(2, mA 18), (0, mA 2)]
    | _ => [(2, mA 21), (0, mA 3)]

/-- Default SWING and DEEMPH of a transmit lane (R114). -/
def laneSwing (s : State) (id : Nat) : Nat :=
  match (getLane s id).swing with
  | some v => v
  | none => if laneSet id = 3 then 8 else 10

def laneDeemph (s : State) (id : Nat) : Nat :=
  match (getLane s id).deemph with
  | some v => v
  | none => if laneSet id = 3 then 2 else if laneSet id = 5 then 6 else 0

/-- The contract in force of a source, or the empty string. -/
def contractOf (s : State) (i : Nat) : Bytes := (getSource s i).contract.getD []

/-- The SDI source a receive lane belongs to: itself, or the first input of the gang whose contract stands (R134). -/
def sourceOfLane (s : State) (n : Nat) : Nat :=
  if fmtLink (ctFormat (contractOf s (n / 4 * 4))) = 3 then n / 4 * 4 else n

/-- Rate code charged for an SDI receive lane (R121). -/
def rxRateCharged (s : State) (n : Nat) : Nat :=
  if (getLane s n).cfgRate ≠ 0 then (getLane s n).cfgRate
  else
    match (getSource s (sourceOfLane s n)).contract with
    | some c => if ctFollow c then 5 else rateCode (ctFormat c)
    | none => 5

/-- The lanes of an SDI source: one, or the four of a quad-link gang (R134, R142). -/
def lanesOf (s : State) (i : Nat) : List Nat :=
  if fmtLink (ctFormat (contractOf s i)) = 3 then [i, i + 1, i + 2, i + 3] else [i]

/-- Whether the input of an SDI receive lane is enabled. -/
def inputOn (s : State) (n : Nat) : Bool := (getSource s (sourceOfLane s n)).enabled

/-- SDI receive lanes that are enabled: those of enabled inputs, and those with a checker on (R103). -/
def rxLanesOn (s : State) : List Nat :=
  ((Tab.keys s.sources).filter fun i => isSdi i && (getSource s i).enabled).flatMap (lanesOf s) ++
    (Tab.keys s.lanes).filter fun i => laneSet i == 0 && (getLane s i).prbs.on && !inputOn s i

/-- PRBS functions that are on (R121). -/
def prbsCharges (s : State) : Charges := s.lanes.flatMap fun p => if p.2.prbs.on then [(0, mA 2)] else []

/-- A powered transmit group (R121). -/
def groupCharges (s : State) : Charges :=
  (Tab.keys s.domains).flatMap fun d =>
    if 0x10 ≤ d ∧ d < 0x20 ∧ powered s d then [(2, mA 20), (8, mA 25), (0, mA 10)] else []

/-- The bench writer, proxies and change map of a contract, whether or not a route reads it (R22, R465, R156, R159): 50, 60 and 20 nA for each thousand
pixels a second. -/
def contractCharges (c : Bytes) : Charges :=
  let px := pixelRate (ctFormat c) / 1000
  [(0, 50 * px + (if ctProxy c then 60 * px else 0) + (if ctChangeMap c then 20 * px else 0))]


/-- Of some contracts, the one with the largest reservation. -/
def heaviest : List Bytes → List Bytes
  | [] => []
  | c :: t =>
    match heaviest t with
    | [] => [c]
    | m :: _ => if ctWriteRate c < ctWriteRate m then [m] else [c]

/-- The contract a source is charged for: of those in force, pending, and left by a host source while its jobs drain (R136,
R164), the one with the largest reservation (log entry 11). -/
def chargedContract (p : Source) : List Bytes :=
  heaviest ((if p.enabled then p.contract.toList ++ p.pendingContract.toList else []) ++ p.leaving.toList)

/-- Contracts charged, of every source. -/
def sourceContracts (s : State) : List Bytes := s.sources.flatMap fun p => chargedContract p.2

/-! ### Outputs, routes and conversions -/

/-- Whether an SDI output's lane is enabled (R103, R300): the output is enabled, and not idle with LANE_OFF. -/
def sdiLaneOn (s : State) (n : Nat) : Bool :=
  outputCharged s n &&
    !(ocLaneOff (getOutput s n).committed && (routeClaims s (gangOf s n)).isEmpty && (getOutput s n).state != .active)

/-- Transmit lanes of SDI outputs, with those that only generate PRBS (R121). -/
def txLaneCharges (s : State) : Charges :=
  ((Tab.keys s.outputs).filter fun d => isSdi d && sdiLaneOn s d && !gated s (0x10 + d / 8)).flatMap (fun d =>
      txCharges (rateCode (chargedFormat s d)) (laneSwing s (0x100 + d))) ++
    ((Tab.keys s.lanes).filter fun i =>
      laneSet i == 1 && (getLane s i).prbs.on && !sdiLaneOn s (laneIndex i) && !gated s (laneDomain i)).flatMap fun i =>
        txCharges (getLane s i).prbs.rate (laneSwing s i)

/-- Whether `d` runs on a generator of its own: as committed, or still as in force. -/
def hasGenerator (s : State) (d : Nat) : Bool :=
  (outputOn s d && !gangTail s d) ||
    (ocEnable (getOutput s d).config && !(isSdi d && d % 4 != 0 && fmtLink (ocFormat (getOutput s (d / 4 * 4)).config) == 3))

/-- Timing generators (R303): 1.5 mA each. -/
def generatorCharges (s : State) : Charges :=
  ((Tab.keys s.outputs).filter fun d => hasGenerator s d).map fun _ => (0, 1500000)

/-- Scan-out of a destination (R303): 40 nA for each thousand pixels a second. -/
def scanOut (s : State) (d : Nat) : Charges :=
  if isTimed d then [(0, 40 * (pixelRate (chargedFormat s d) / 1000))] else []

/-- Rate of the RASTER read reservation of an output or tie-line send on a frame of `n` bytes (R189). -/
def rasterRead (s : State) (d n : Nat) : Nat := perSecond (chargedFormat s d) n

/-- Charge of one claimed route (R207); a quad-link gang has four destination ports (R23, R209). -/
def claimCharges (s : State) (d : Nat) (e : Bytes) (cls : Nat) : Charges :=
  if isAshlarObj d then []
  else
    let haul : Charges := if cls = 1 then [(0, mA (5 * (if fmtLink (chargedFormat s d) = 3 then 4 else 1)))] else []
    let scan := if cls = 1 ∧ reClass e = 1 then [] else if fedByAshlar s (reSource e) d then [] else scanOut s d
    haul ++ scan

/-- Read reservation of one claimed route, bytes a second (R207). -/
def claimReads (s : State) (d : Nat) (e : Bytes) (cls : Nat) : List Nat :=
  if isAshlarObj d ∨ (cls = 1 ∧ reClass e = 1) ∨ fedByAshlar s (reSource e) d then []
  else if cls = 3 then [rasterRead s d (frameBytes (chargedFormat s d) + 131072)]
  else [rasterRead s d (frameBytes (chargedFormat s d) + sourceAnc s (reSource e))]

/-- Charges of every claimed route. -/
def routeCharges (s : State) : Charges :=
  (Tab.keys s.routes).flatMap fun d => (routeClaims s d).flatMap fun p => claimCharges s d p.1 p.2

/-- A powered Crusher (R236). -/
def crusherCharges (s : State) : Charges :=
  (Tab.keys s.domains).flatMap fun d =>
    if 0x20 ≤ d ∧ d < 0x40 ∧ powered s d then
      if (contextsOn s (d - 0x20)).isEmpty then [(0, mA 40), (1, mA 15)]
      else if engineMotion s (d - 0x20) then [(0, mA 960), (1, mA 165)]
      else [(0, mA 520), (1, mA 75)]
    else []

/-- Reservations of one assignment (R237) for one route entry: read, write. -/
def contextReads (s : State) (d : Nat) (e : Bytes) : Nat :=
  let g := chargedFormat s d
  maxOf ((contextBenches s (reSource e)).map fun b => perSecond g (readsOf b.1 g (reFrc e) * b.2.1 + 256 + b.2.2))

def contextWrites (s : State) (d : Nat) : Nat := perSecond (chargedFormat s d) (frameBytes (chargedFormat s d) + 256 + 131072)

/-- A reservation (R189): its holder, bytes a second, the ratio of total to active lines it is earned over, 1 and 1 when
FLAT, and the bytes of a line of a RASTER holder. -/
structure Reservation where
  holder : Holder
  rate : Nat
  total : Nat := 1
  active : Nat := 1
  line : Nat := 0
  deriving DecidableEq, Repr

/-- How often a context's reservations are held: twice while it migrates (R250). -/
def holdings (x : Context) : Nat := if x.migration.isSome then 2 else 1

/-- Read reservations of a context, by the source each reads: of the entry in force, and of each queued change, since one that
takes a new source holds both reads (R224). -/
def contextReadings (s : State) (d : Nat) (x : Context) : List (Nat × Nat) :=
  (reSource x.entry, holdings x * contextReads s d x.entry) ::
    x.pendingEntries.map fun e => (reSource e, contextReads s d e)

/-- Reservations of every assignment (R237). -/
def contextReservations (s : State) : List Reservation :=
  s.contexts.flatMap fun p =>
    { holder := .contextWrite p.1, rate := holdings p.2 * contextWrites s p.1 } ::
      (contextReadings s p.1 p.2).map fun r => { holder := .contextRead p.1, rate := r.2 }

/-! ### Ashlars, audio, references, network, Adit -/

/-- An enabled Ashlar (R325): 500 nA and 200 nA for each thousand pixels a second. -/
def ashlarCharges (s : State) : Charges :=
  (Tab.keys s.ashlars).flatMap fun k =>
    if ashlarCharged s k && !gated s (0x40 + k) then
      let px := pixelRate (chargedCanvas s k) / 1000
      [(0, mA 135 + 500 * px), (1, mA 40 + 200 * px)]
    else []

def ashlarReservations (s : State) : List Reservation :=
  (Tab.keys s.ashlars).flatMap fun k =>
    if ashlarCharged s k then
      let g := chargedCanvas s k
      { holder := .writeback k, rate := canvasRate g (frameBytes g + 256) } ::
        (readsAt s k g).map fun r => { holder := .ashlarRead k, rate := r.2 }
    else []

/-- The audio engine (R336). -/
def audioCharges (s : State) : Charges :=
  [(0, mA 95), (1, mA 30)] ++
    ([0, 1] : List Nat).flatMap fun h =>
      if powered s (0x4C + h) then
        [(0, mA 110 + 30000 * servedIn s h + 120000 * (asrcUsed s h).length), (1, mA 25 + 20000 * (asrcUsed s h).length)]
      else []

/-- Reservations of the audio engine, bytes a second (R335). -/
def audioReservation (s : State) : Nat :=
  192000 * activeSources s + 384000 * (servedIn s 0 + servedIn s 1)

/-- BCLK of a port configuration in kHz (R371). -/
def pcBclk (c : Bytes) : Nat := 32 * pcSlots c * 48

/-- Audio ports, AFS_SHARE and capture streams (R382): nanoamperes. -/
def aportCharges (s : State) : Charges :=
  s.aports.flatMap (fun p =>
    let c := p.2.committed
    if pcEnable c then
      [(0, 800000), (6, (if pcMaster c then 18 * pcBclk c else 0) + (if pcOutput c then 9 * pcBclk c else 0))]
    else []) ++
  (if s.refs.shareMode = 1 then [(6, 50000)] else []) ++
  s.captures.flatMap fun p => if p.2.enabled then [(0, 200000)] else []

/-- Reference timing (R406). -/
def refCharges (s : State) : Charges :=
  (0, mA 12) ::
    (s.refs.inputs.flatMap fun p =>
      if u8 p.2.config 1 = 1 then (if p.1 < 2 then [(9, mA 45), (0, mA 3)] else [(6, 1500000)]) else []) ++
    s.refs.clkouts.flatMap fun p => if p.2.enable then [(8, mA 14), (6, 4500000)] else []

/-- A powered network port's lanes, MAC and FEC (R121, R414); the flow buffer is charged from READY. -/
def netCharges (s : State) : Charges :=
  (1, mA 120) ::
    ([0, 1, 2, 3] : List Nat).flatMap fun p =>
      if ((netLaneOn s p || prbsOn p) && !gated s (0x48 + p)) || powered s (0x48 + p) then
        [(0, mA 1800), (1, mA 280)] ++
          ([0, 1, 2, 3] : List Nat).flatMap fun i =>
            [(2, mA 60), (3, mA 25), (2, mA 52), (3, mA 7 + 1500000 * laneSwing s (0x300 + 4 * p + i)), (0, mA 4)]
      else []
where
  /-- A PRBS function is on for a lane of the port, which enables the port's power (R103, R414). -/
  prbsOn (p : Nat) : Bool := s.lanes.any fun l => (laneSet l.1 == 2 || laneSet l.1 == 3) && laneIndex l.1 / 4 == p && l.2.prbs.on

/-- The Adit link (R121, R455). -/
def aditCharges (s : State) : Charges :=
  if aditOn s && !gated s 0x4E then
    [(0, mA 260), (1, mA 40)] ++
      (List.range 8).flatMap fun i =>
        [(2, mA 55), (3, mA 12), (0, mA 10), (2, mA 50), (3, mA 7 + 1500000 * laneSwing s (0x500 + i)), (0, mA 6)]
  else []

/-- Adit lanes that only run PRBS (R121, R103). -/
def prbsLaneCharges (s : State) : Charges :=
  s.lanes.flatMap fun p =>
    if !p.2.prbs.on || laneSet p.1 < 4 || aditOn s || gated s (laneDomain p.1) then []
    else if laneSet p.1 = 4 then [(2, mA 55), (3, mA 12), (0, mA 10)]
    else [(2, mA 50), (3, mA 7 + 1500000 * laneSwing s p.1), (0, mA 6)]

/-- Pattern generators that are writing their frame (R600). -/
def patternReservations (s : State) : List Reservation :=
  s.store.patterns.flatMap fun p =>
    match s.store.benches.find? fun b => b.1 == benchKey p.1 false with
    | some b =>
      if b.2.slot.any fun v => v.2.state == .landing then
        [{ holder := .pattern p.1, rate := perSecond p.2 (frameBytes p.2 + 256) }] else []
    | none => []

/-- A RASTER reservation of `rate` on a raster of format `f`: a line of it is what one line of active picture earns (R190). -/
def rasterOn (holder : Holder) (f : Bytes) (rate : Nat) : Reservation :=
  { holder := holder, rate := rate, total := totalLines f, active := rasterLines f
    line := ceilDiv (rate * fpsDen f) (fpsNum f * rasterLines f) }

/-- Reservation of a source's writer under a contract (R189). -/
def writerReservation (c : Bytes) : Reservation :=
  if isHostSource (ctObject c) then { holder := .source (ctObject c), rate := ctWriteRate c }
  else rasterOn (.source (ctObject c)) (ctFormat c) (ctWriteRate c)

/-- Every reservation on the frame store (R189). -/
def reservations (s : State) : List Reservation :=
  ({ holder := .system, rate := 2000000000 } :: (sourceContracts s).map writerReservation) ++
  (Tab.keys s.routes).flatMap (fun d => (routeClaims s d).flatMap fun p =>
    (claimReads s d p.1 p.2).map fun n => rasterOn (.output d) (chargedFormat s d) n) ++
  contextReservations s ++ ashlarReservations s ++ patternReservations s ++ [{ holder := .audio, rate := audioReservation s }]

/-- Charges of every unit but the frame store. -/
def unitCharges (s : State) : Charges :=
  mainCharges ++ portCharges s.portA ++ portCharges s.portB ++ groupCharges s ++ prbsCharges s ++
  ((rxLanesOn s).filter fun n => !gated s (0x10 + n / 8)).flatMap (fun n => rxCharges (rxRateCharged s n)) ++ (sourceContracts s).flatMap contractCharges ++
  txLaneCharges s ++ generatorCharges s ++ routeCharges s ++ crusherCharges s ++ ashlarCharges s ++ audioCharges s ++
  aportCharges s ++ refCharges s ++ netCharges s ++ aditCharges s ++ prbsLaneCharges s

/-! ### Reservations and the prediction -/

/-- The sum of reservation rates, bytes a second (R189, R193). -/
def reservedRate (s : State) : Nat := (reservations s).foldl (fun n r => n + r.rate) 0

/-- Blocks of the bench pool in use: held by benches, and granted to a change that has not taken effect (R175, R198, R199). -/
def blocksUsed (s : State) : List Nat :=
  s.store.benches.flatMap (fun p => p.2.blocks ++ p.2.oldBlocks) ++ s.store.granted.flatMap (·.2)

/-- The benches with a block the pool does not have, by their keys, oldest first: blocks are taken lowest first, so the first
of them is the first that does not fit (R193). -/
def benchesOver (s : State) : List Nat :=
  (s.store.benches.filter fun p => p.2.blocks.any fun k => decide (poolBlocks ≤ k)).map (·.1) ++
    (s.store.granted.filter fun p => p.2.any fun k => decide (poolBlocks ≤ k)).map (·.1)

/-- Of some benches, the one made first; one still to be made comes last. -/
def firstMade (s : State) : List Nat → Option Nat
  | [] => none
  | k :: t =>
    let at_ := fun (k : Nat) => ((s.store.benches.find? fun p => p.1 == k).map fun p => p.2.id).getD s.store.nextId
    match firstMade s t with
    | none => some k
    | some j => if at_ j < at_ k then some j else some k

/-- Frame-store charges (R170): `bg` is the background of both stacks in mA; the best-effort cap counts as a
reservation (R195). Rates are bytes a second. -/
def storeCharges (s : State) (bg : Nat) : Charges :=
  let r := reservedRate s + s.store.beCap * 1000000000
  [(4, mA (2 * bg) + r * 723 / 100000), (5, mA 120 + r * 25 / 100000), (0, mA 450 + r * 90 / 100000)]

/-- Every typical charge but the store's background (R463). -/
def charges (s : State) (bg : Nat) : Charges := unitCharges s ++ storeCharges s bg

/-- Σ typical charges of a rail, nA, with the refresh rate in force (R170). -/
def typical (s : State) (r : Nat) : Nat := onRail (charges s (if s.store.doubled then 1100 else 900)) r

/-- 100 W, in nA: 112 Σ typical + 100 Σ adders, the background at its doubled-refresh figure (R6, R462). -/
def worst100 (s : State) (r : Nat) : Nat := 112 * onRail (charges s 1100) r + 100 * adders s r

/-- 10,000 × 1.05 W in nA. -/
def margined (s : State) (r : Nat) : Nat := 105 * worst100 s r

/-- The ceiling of a rail on the same scale: 0.1 A units. -/
def ceilingScaled (s : State) (r : Nat) : Nat := ceiling s r * 100000000 * 10000

/-- Milliamperes from that scale, rounded up (R468). -/
def toMa (n : Nat) : Nat := ceilDiv n 10000000000

def allRails : List Nat := [0, 1, 2, 3, 4, 5, 6, 7, 8, 9]

/-- The NO_CURRENT step (R467, R468, R473): the first rail whose W the change raises and that is over, or would pass its
ceiling. -/
def currentNack (before after : State) (object : Nat) : Option Nack :=
  firstOf (allRails.map fun r =>
    if margined after r ≤ margined before r then none
    else if (getRail before r).state ≠ 0 then
      some { status := stNO_CURRENT, object := object, rail := r, shortfall := toMa (margined after r - margined before r) }
    else if ceilingScaled after r < margined after r then
      some { status := stNO_CURRENT, object := object, rail := r
             shortfall := toMa (margined after r - ceilingScaled after r) }
    else none)

/-- The admission limit of the frame store, bytes a second (R192, R193). -/
def admissionLimit : Nat := 1150000 * 1000000

/-- R326: each Ashlar's read port carries 12.8 GB/s. -/
def readPortNack (before after : State) : Option Nack :=
  firstOf ((Tab.keys after.ashlars).map fun k =>
    let r := sumOf ((ashlarReads after k).map (·.2))
    need (decide (r ≤ 12800000000) || decide (r ≤ sumOf ((ashlarReads before k).map (·.2))))
      { status := stNO_BANDWIDTH, object := 0xC0 + k, shortfall := ceilDiv (r - 12800000000) 1000000 })

/-- The NO_BANDWIDTH step: the read ports of the Ashlars (R326), the reservations, then the blocks of the pool (R193). -/
def bandwidthNack (before after : State) (object : Nat) : Option Nack :=
  if (readPortNack before after).isSome then readPortNack before after
  else if reservedRate before < reservedRate after ∧ admissionLimit < reservedRate after then
    some { status := stNO_BANDWIDTH, object := object
           shortfall := ceilDiv (reservedRate after - admissionLimit) 1000000 }
  else if poolBlocks < (blocksUsed after).length ∧ (blocksUsed before).length < (blocksUsed after).length then
    some { status := stNO_BANDWIDTH, object := ((firstMade after (benchesOver after)).map (· % 0x8000)).getD object
           shortfall := 0xFFFFFFFF }
  else none

/-- Bandwidth, then current. -/
def resourceNack (before after : State) (object : Nat) : Option Nack :=
  firstOf [bandwidthNack before after object, currentNack before after object]

/-- A change of W, 100 times in nA. -/
def deltaW (before after : State) (r : Nat) : Int := (worst100 after r : Int) - (worst100 before r : Int)

/-- A change of W in mA, rounded to the nearest (R469). -/
def roundMa (x : Int) : Int := (x + 50000000) / 100000000

/-- Whether any rail's W differs. -/
def wDiffers (before after : State) : Bool := allRails.any fun r => worst100 before r != worst100 after r

/-- SETTLED of a delta in mA: zeros until it has settled (R485). -/
def settledMa (d : Delta) : List Int := if d.isSettled then d.moved.map roundMa else []

/-- Set LEDGER_CORE of a generation that has settled (R469, R513). -/
def settleJournal (s : State) (gen : Nat) : State :=
  let core := match s.fm.deltas.find? (fun d => d.gen == gen) with
    | some d => (settledMa d).headD 0
    | none => 0
  onFm s fun f =>
    { f with journal := f.journal.map fun e => if e.gen = gen then { e with ledgerCore := core, settled := true } else e }

/-- Keep a new delta among those of the newest 4,096 generations, in the order of the generations (R469). -/
def keepDelta (s : State) (d : Delta) : State :=
  onFm s fun f =>
    let l := f.deltas.filter (fun x => x.gen < d.gen) ++ d :: f.deltas.filter (fun x => d.gen < x.gen)
    { f with deltas := l.drop (l.length - 4096) }

/-- Record the ledger delta of the generation a command produced (R469). It is settled at once unless its change is
queued. -/
def recordDelta (before after : State) : State :=
  if after.fm.gen = before.fm.gen ∨ !wDiffers before after then after
  else
    let gen := before.fm.gen + 1
    let moved := allRails.map (deltaW before after)
    let pendingNow := (findChange after gen).isSome
    let s := keepDelta after { gen := gen, admission := moved.map roundMa, moved := moved, isSettled := !pendingNow }
    if pendingNow then s else settleJournal s gen

/-- Add a change of W to the delta of `gen`; one that its admission left unchanged gets its delta now. -/
def moveDelta (before after : State) (gen : Nat) : State :=
  if !wDiffers before after then after
  else
    let moved := allRails.map (deltaW before after)
    if after.fm.deltas.any fun d => d.gen == gen then
      onFm after fun f => { f with deltas := f.deltas.map fun d =>
        if d.gen = gen then { d with moved := (List.zip d.moved moved).map fun p => p.1 + p.2 } else d }
    else keepDelta after { gen := gen, admission := allRails.map fun _ => 0, moved := moved }

/-- A step of a queued change of generation `gen` has taken effect and released old charges; with the last one its delta
settles (R469). -/
def settleDelta (before after : State) (gen : Nat) : State :=
  let s := moveDelta before after gen
  if (findChange s gen).isSome then s
  else settleJournal (onFm s fun f =>
    { f with deltas := f.deltas.map fun d => if d.gen = gen then { d with isSettled := true } else d }) gen

/-! ### Domains on and off (R477-R482) -/

/-- The number of a domain state (R485). -/
def domainNum : DomainState → Nat
  | .off => 0
  | .waking => 1
  | .quiet => 2
  | .on => 3
  | .close => 4
  | .drain => 5

/-- A change of a domain's state, which raises POWER_DOMAIN (R486). -/
def moveDomain (s : State) (d : Nat) (goal : DomainState) : State :=
  let x := getDomain s d
  let s := setDomain s d { x with state := goal, since := s.now, cut := false }
  raise s 0x154 d (le 1 (domainNum x.state) ++ le 1 (domainNum goal) ++ zeros 2 ++ le 4 (getDomain s d).epoch ++ le 8 x.spoil)

/-- Power a domain that is OFF: it enters WAKING with the next epoch (R476, R481). -/
def powerUp (s : State) (d : Nat) : State :=
  if s.fw.standby.isSome then s
  else
    let x := getDomain s d
    moveDomain (setDomain s d { x with epoch := (x.epoch + 1) % 4294967296, powerUps := satInc 32 x.powerUps, idle := false })
      d .waking

/-- New work needs a domain in AUTO or HELD_ON: it is powered when OFF, and returns to ON from CLOSE or DRAIN with its
epoch unchanged when AUTO began the power-down (R477, R479). -/
def needDomain (s : State) (d : Nat) : State :=
  let x := getDomain s d
  if x.mode = 2 ∨ s.fw.standby.isSome then s
  else
    match x.state with
    | .off => powerUp s d
    | .close => if x.cut then s else moveDomain (setDomain s d { x with idle := false }) d .on
    | .drain => if x.cut then s else moveDomain (setDomain s d { x with idle := false }) d .on
    | _ => setDomain s d { x with idle := false }

/-- Begin the power-down of a domain (R478): CLOSE, and DRAIN at once with it. -/
def closeDomain (s : State) (d : Nat) : State :=
  match (getDomain s d).state with
  | .waking => moveDomain (moveDomain s d .close) d .drain
  | .quiet => moveDomain (moveDomain s d .close) d .drain
  | .on => moveDomain (moveDomain s d .close) d .drain
  | _ => s

/-- An admission that leaves a domain in AUTO unneeded begins its power-down at once (R477). -/
def releaseDomain (s : State) (d : Nat) : State :=
  if (getDomain s d).mode = 0 then closeDomain s d else s

/-- A later admission that needs a FORCED_OFF domain completes NO_CURRENT (R480). -/
def forcedOffNack (s : State) (d : Nat) : Option Nack :=
  need ((getDomain s d).mode != 2) { status := stNO_CURRENT, object := d, shortfall := 0 }

end Sys2Proof.Machine
end

