-- ==== Sys2Proof/Machine/Command.lean ====
section
/-! DEFINITION. The life of a command (R73-R86): how the Foreman takes the command a channel holds, the order of its
checks, and how it answers. Every Axrov command is one `CommandDef` run by `runCommand`. -/

namespace Sys2Proof.Machine

/-- Set byte strings in a channel's buffer. -/
def bufWrite (c : Channel) (off : Nat) (b : Bytes) : Channel := { c with buffer := Memory.writeBytes c.buffer off b }

/-- `n` bytes of a channel's buffer from `off`. -/
def bufRead (c : Channel) (off n : Nat) : Bytes := Memory.readBytes c.buffer off n

/-- The command a channel holds (R68). -/
def readCmd (s : State) (ch : Nat) : Cmd :=
  let c := getChan s ch
  let h := bufRead c 0 32
  { ch := ch, port := c.rangBy, opcode := u16 h 0, flags := u16 h 2, seq := u32 h 4, expected := u64 h 8
    target := u64 h 16, len := u32 h 24, reserved := u32 h 28, p := bufRead c 32 (min (u32 h 24) 3968) }

/-- The response bytes (R71). -/
def replyBytes (opcode seq : Nat) (r : Reply) : Bytes :=
  le 2 opcode ++ le 2 r.status ++ le 4 seq ++ le 8 r.gen ++ le 8 (orOnes r.effect) ++ le 4 r.payload.length ++
  zeros 4 ++ r.payload

/-- Complete the command of a channel (R54): the response in the buffer, then LAST_SEQ and DONE (which clears WRITTEN,
R73), then the message to the port that rang, unless the cell has changed hands (log entry 72). -/
def complete (s : State) (ch : Nat) (r : Reply) : State :=
  let c := getChan s ch
  let h := bufRead c 0 32
  let c' := { bufWrite c 0 (replyBytes (u16 h 0) (u32 h 4) r) with
    lastSeq := u32 h 4, state := .done, written := false, waiting := none }
  let s := setChan s ch c'
  if c.cplIrq && !c.handed && (getSem s ch).owner == some c.rangBy then sendMsix s c.rangBy c.cplVector else s

/-- What running a command gives: the state, the status and EFFECT of its response, its payload, and the wait it goes
into when it does not complete now. -/
structure Done where
  state : State
  status : Nat := 0
  effect : Option Nat := none
  payload : Bytes := []
  wait : Option WaitFor := none

/-- Step 8 of R74: whether the target has passed. -/
inductive Timing where
  | onTime
  | late
  deriving DecidableEq, Repr

/-- A command of the index: its opcode, the flags it accepts, its payload length, its checks of steps 4, 6 and 7 of R74,
whether its target has passed, what it counts when a STRICT target was missed, the object every refusal of it names
(R102), the field its length check names (R554), what a refusal leaves in the device (LAST_RESULT, R526), and what it
does. -/
structure CommandDef where
  opcode : Nat
  flags : Nat := 0
  exempt : Bool := false
  fuseMode : Bool := false
  lenOk : Cmd → Bool
  check : State → Cmd → Option Nack := fun _ _ => none
  admission : State → Cmd → Option Nack := fun _ _ => none
  timing : State → Cmd → Timing := fun _ _ => .onTime
  missed : State → Cmd → State := fun s _ => s
  named : State → Cmd → Option Nat := fun _ _ => none
  lenField : Cmd → Nat := fun _ => 24
  refused : State → Cmd → State := fun s _ => s
  run : State → Cmd → Done

/-- The header errors of R70, in the order of its list. -/
def headerNack (d : CommandDef) (c : Cmd) : Option Nack :=
  firstOf
    [need (decide (c.flags < 128)) { status := stBAD_ARGUMENT, field := 2 },
     need (c.reserved == 0) { status := stBAD_ARGUMENT, field := 28 },
     need (decide (c.len ≤ 3968)) { status := stBAD_ARGUMENT, field := 24 },
     need (d.lenOk c) { status := stBAD_ARGUMENT, field := d.lenField c },
     need (c.flags &&& d.flags == c.flags) { status := stBAD_ARGUMENT, field := 2 },
     need (c.kind != kindNext || c.target == 0) { status := stBAD_ARGUMENT, field := 16 }]

/-- The checks of R74 before those of the command itself: a channel that is not WRITTEN fails first (R73), and in
fuse-sense mode only the commands of R544 are known. -/
def headNack (d : CommandDef) (s : State) (c : Cmd) : Option Nack :=
  firstOf
    [need (getChan s c.ch).written badWhole,
     need (!s.updating || d.exempt) { status := stUPDATING },
     need (!s.fuseSense || d.fuseMode) { status := stBAD_OPCODE },
     headerNack d c]

/-- The checks of R74, in order, up to step 7. -/
def verdict (d : CommandDef) (s : State) (c : Cmd) : Option Nack :=
  firstOf
    [headNack d s c,
     d.check s c,
     need (!bit c.flags 0 || c.expected == s.fm.gen) { status := stSTALE },
     d.admission s c]

/-- What a refusal leaves in the device: nothing where the header is at fault, and what the command says otherwise. -/
def refusalMark (d : CommandDef) (s : State) (c : Cmd) : State := if (headNack d s c).isNone then d.refused s c else s

/-- The response to a refused command (R72, R82). -/
def nackReply (s : State) (n : Nack) : Reply := { status := n.status, gen := s.fm.gen, payload := nackBytes n }

/-- A refusal that names no object names the one its command has for every refusal. -/
def nameObject (d : CommandDef) (s : State) (c : Cmd) (n : Nack) : Nack :=
  if n.object = 0xFFFF then { n with object := (d.named s c).getD 0xFFFF } else n

/-- Take the command off the doorbell queue (R76). -/
def takeDoorbell (s : State) (ch : Nat) : State :=
  onFm s fun f => { f with doorbells := f.doorbells.filter (· != ch) }

/-- Whether the Foreman, or in fuse-sense mode the boot ROM, takes this command now: the device is READY, the channel is
POSTED with this opcode, and its doorbell is the oldest (R53, R75, R76). -/
def takeable (s : State) (ch opcode : Nat) : Bool :=
  (s.ready || s.fuseSense) && (getChan s ch).state == .posted && (readCmd s ch).opcode == opcode &&
  s.fm.doorbells.head? == some ch

/-- The response of an admitted command, or its wait (R82, R86, R94). GENERATION is what the command itself produced: an
automatic action that follows in the same instant comes after it. -/
def respond (before : State) (c : Cmd) (d : Done) : State :=
  let s := recordDelta before d.state
  let r : Reply := { status := d.status, gen := min s.fm.gen (before.fm.gen + 1), effect := d.effect, payload := d.payload }
  match d.wait with
  | none => complete s c.ch r
  | some w => setChan s c.ch { getChan s c.ch with state := .running, waiting := some { cause := w, reply := r } }

/-- Run the command a channel holds. A channel that does not hold this command, or whose turn has not come, is left
alone (log entry 1). -/
def runCommand (d : CommandDef) (ch : Nat) (s : State) : State :=
  if !takeable s ch d.opcode then s
  else
    let c := readCmd s ch
    let s := takeDoorbell s ch
    match verdict d s c with
    | some n => complete (refusalMark d s c) ch (nackReply s (nameObject d s c n))
    | none =>
      let t := d.timing s c
      if c.validate then
        let v := d.run s c
        complete s ch { status := if t = .late then stLATE else stOK
                        gen := s.fm.gen, payload := v.payload }
      else if t = .late && c.strict then complete (d.missed s c) ch { status := stLATE, gen := s.fm.gen }
      else respond s c (d.run s c)

/-- A command that changes nothing and returns a payload. -/
def readDone (s : State) (payload : Bytes) : Done := { state := s, payload := payload }

end Sys2Proof.Machine
end

