-- ==== Sys2Proof/Machine/Slots.lean ====
section
/-! DEFINITION. Benches and slots (R171-R188, R198, R199): where a bench address lies in the store, slot headers,
taking and closing slots, holds, fences, and making, shrinking and ending a bench. -/

namespace Sys2Proof.Machine

/-! ### A bench and its addresses -/

def getBench (s : State) (k : Nat) : Option Bench := (s.store.benches.find? fun p => p.1 == k).map (·.2)

def setBench (s : State) (k : Nat) (b : Bench) : State :=
  { s with store := { s.store with benches := Tab.set s.store.benches k b } }

def dropBench (s : State) (k : Nat) : State :=
  { s with store := { s.store with benches := Tab.erase s.store.benches k } }

/-- Whether commands may name the bench (R174): it exists, and is not only waiting for its last holds to end. -/
def benchExists (s : State) (k : Nat) : Bool :=
  match getBench s k with
  | some b => !b.ending
  | none => false

def getSlot (b : Bench) (i : Nat) : Slot := Tab.get b.slot i {}
def setSlot (b : Bench) (i : Nat) (v : Slot) : Bench := { b with slot := Tab.set b.slot i v }

/-- Slot pitch (R175). -/
def benchPitch (b : Bench) : Nat := b.frameArea + 256 + b.ancArea + b.mapArea + b.proxyArea

/-- Offset of the slot header, of the ancillary area, of the change map and of the proxies within a slot (R175). -/
def headerOff (b : Bench) : Nat := b.frameArea
def ancOff (b : Bench) : Nat := b.frameArea + 256
def mapOff (b : Bench) : Nat := ancOff b + b.ancArea
def proxyOff (b : Bench) : Nat := mapOff b + b.mapArea

/-- A bench as slot `i` of it lies: a slot still held at an old layout lies there, with the blocks of that layout (R199). -/
def slotView (b : Bench) (i : Nat) : Bench :=
  match (getSlot b i).old with
  | some o =>
    { b with frameArea := o.frameArea, ancArea := o.ancArea, mapArea := o.mapArea, proxyArea := o.proxyArea, blocks := o.blocks }
  | none => b

/-- The layout of a bench as it stands, for the slots that stay at it (R199). -/
def layoutNow (b : Bench) : OldLayout :=
  { frameArea := b.frameArea, ancArea := b.ancArea, mapArea := b.mapArea, proxyArea := b.proxyArea, blocks := b.blocks }

/-- Physical address of a bench address (R175: the controller maps each to its block). A bench address beyond the
blocks held has none. -/
def benchAddr (b : Bench) (x : Nat) : Option Nat :=
  match b.blocks[x / blockSize]? with
  | some k => some (poolBase + k * blockSize + x % blockSize)
  | none => none

/-- `n` bytes of a bench from bench address `x`; what lies outside its blocks reads 0xFF, as a void access (R499). -/
def benchRead (s : State) (b : Bench) (x : Nat) : Nat → Bytes
  | 0 => []
  | n + 1 =>
    (match benchAddr b x with
      | some a => Memory.read s.store.mem a
      | none => 0xFF) :: benchRead s b (x + 1) n

/-- Write bytes to a bench from bench address `x`; what lies outside its blocks is discarded. -/
def benchWrite (s : State) (b : Bench) (x : Nat) : Bytes → State
  | [] => s
  | v :: bs =>
    benchWrite
      (match benchAddr b x with
        | some a => storeWrite s a [v]
        | none => s) b (x + 1) bs

/-- Bytes of slot `i` of a bench from an offset within the slot, where the slot lies (R175, R199). -/
def slotRead (s : State) (b : Bench) (i off n : Nat) : Bytes :=
  benchRead s (slotView b i) (i * benchPitch (slotView b i) + off) n

def slotWrite (s : State) (b : Bench) (i off : Nat) (data : Bytes) : State :=
  benchWrite s (slotView b i) (i * benchPitch (slotView b i) + off) data

/-- The first `n` numbers from `k` that are not in use: the blocks a new bench takes. Which blocks it takes is not
visible through bench addresses (DESIGN CHOICE, log entry 9). -/
def pickBlocks (used : List Nat) : Nat → Nat → Nat → List Nat
  | 0, _, _ => []
  | _, 0, _ => []
  | fuel + 1, n + 1, k =>
    if used.contains k then pickBlocks used fuel (n + 1) (k + 1) else k :: pickBlocks used fuel n (k + 1)

def takeBlocks (s : State) (n : Nat) : List Nat :=
  pickBlocks (blocksUsed s) ((blocksUsed s).length + n) n 0

/-- Blocks that an admission takes from the pool for a change of bench `k` that takes effect later (R198). -/
def grantBlocks (s : State) (k n : Nat) : State :=
  { s with store := { s.store with granted := Tab.set s.store.granted k (takeBlocks s n) } }

/-- A change that is not to be gives back what its admission took. -/
def returnBlocks (s : State) (k : Nat) : State :=
  { s with store := { s.store with granted := Tab.erase s.store.granted k } }

/-- The blocks a change of bench `k` takes as it takes effect: those granted at its admission first (R198). -/
def drawBlocks (s : State) (k n : Nat) : List Nat :=
  let g := Tab.get s.store.granted k []
  g.take n ++ takeBlocks s (n - g.length)

/-- Number of a slot state (R176). -/
def slotNum : SlotState → Nat
  | .released => 0
  | .landing => 1
  | .complete => 2
  | .incomplete => 3

/-- The header of a slot (R176). -/
def headerBytes (v : Slot) : Bytes :=
  le 8 v.frame ++ le 1 (slotNum v.state) ++
  le 1 (flag v.tcValid + 2 * flag v.padded + 4 * flag v.mapValid + 8 * flag v.proxyValid) ++ zeros 2 ++
  le 4 v.ancBytes ++ le 8 v.timecode.toNat ++ sub v.format 0 16 ++ le 8 v.start ++ le 8 v.close ++
  le 4 v.payloadId.toNat ++ le 4 v.writeCount ++ zeros 192

/-- Write a slot's header to the store. Of a host frame source ANC_BYTES and TIMECODE, bytes 12 to 23, are the host's (R176). -/
def writeHeader (s : State) (k i : Nat) : State :=
  match getBench s k with
  | some b =>
    let h := headerBytes (getSlot b i)
    let off := headerOff (slotView b i)
    if isHostSource k then slotWrite (slotWrite s b i off (h.take 12)) b i (off + 24) (h.drop 24) else slotWrite s b i off h
  | none => s

/-- Write ANC_BYTES of a slot, as the walk of its records leaves it (R177). -/
def writeAncBytes (s : State) (k i : Nat) : State :=
  match getBench s k with
  | some b => slotWrite s b i (headerOff (slotView b i) + 12) (le 4 (getSlot b i).ancBytes)
  | none => s

/-- The LANDING slot of a bench, and the slot of its newest COMPLETE frame. -/
def landingSlot (b : Bench) : Option Nat := (b.slot.find? fun p => p.2.state == .landing).map (·.1)

def newestOf : List (Nat × Slot) → Option (Nat × Slot)
  | [] => none
  | p :: t =>
    match newestOf t with
    | none => if p.2.state = .complete then some p else none
    | some q => if p.2.state = .complete ∧ q.2.frame < p.2.frame then some p else some q

def newestSlot (b : Bench) : Option Nat := (newestOf b.slot).map (·.1)
def newestFrame (b : Bench) : Option Nat := (newestOf b.slot).map (·.2.frame)

/-- The bench as a reader that holds the slots `mine` of it may choose from: no slot above a running shrink's bound and none of
an old layout, but those it holds itself (R198, R199). -/
def readable (b : Bench) (mine : List Nat) : Bench :=
  { b with slot := b.slot.filter fun p => mine.contains p.1 || (decide (p.1 < b.pendingSlots) && p.2.old.isNone) }

/-- The newest COMPLETE frame among those numbered at most `n`. -/
def newestUpTo (b : Bench) (n : Nat) : Option Nat :=
  (newestOf (b.slot.filter fun p => decide (p.2.frame ≤ n))).map (·.1)

/-- The slot that holds a COMPLETE or LANDING frame `n`. -/
def slotOfFrame (b : Bench) (n : Nat) : Option Nat :=
  (b.slot.find? fun p => p.2.frame == n && (p.2.state == .complete || p.2.state == .landing)).map (·.1)

/-! ### Fences (R186-R188) -/

/-- Frames of a bench that have closed COMPLETE, with their instants, the oldest first; they outlive the bench (R187). -/
def closedFrames (s : State) (k : Nat) : List (Nat × Nat) := Tab.get s.store.closed k []

/-- The offset of the first field of a fence descriptor that is outside its values, or names no bench (R174, R186). -/
def fenceBad (s : State) (d : Bytes) : Option Nat :=
  match fenceBadField d with
  | some o => some o
  | none =>
    if fenceKind d = 1 ∧ !(decide (fenceObject d < 0x8000) && benchExists s (benchKey (fenceObject d) (fenceDest d))) then some 2
    else none

/-- Whether a fence is satisfied; a DMA fence belongs to `epoch` of its port (R187, R188). -/
def fenceSatisfied (s : State) (d : Bytes) (epoch : Nat) : Bool :=
  match fenceKind d with
  | 0 => true
  | 1 => (closedFrames s (benchKey (fenceObject d) (fenceDest d))).any fun p => decide (fenceNumber d ≤ p.1)
  | _ =>
    s.store.doneJobs.any fun j =>
      j.port == fencePort d && j.engine == fenceEngine d && j.job == fenceNumber d && j.epoch == epoch

/-- The epoch of the port a DMA fence names. -/
def fenceEpoch (s : State) (d : Bytes) : Nat :=
  if fencePort d = 0 then s.portA.epoch else s.portB.epoch

/-- When a satisfied fence became so (R202): the close of the first frame at or beyond N, or the end of the job. -/
def fenceTime (s : State) (d : Bytes) (epoch : Nat) : Nat :=
  match fenceKind d with
  | 1 =>
    (((closedFrames s (benchKey (fenceObject d) (fenceDest d))).filter fun p => decide (fenceNumber d ≤ p.1)).map (·.2)).headD
      s.now
  | 2 =>
    ((s.store.doneJobs.find? fun j =>
      j.port == fencePort d && j.engine == fenceEngine d && j.job == fenceNumber d && j.epoch == epoch).map (·.time)).getD s.now
  | _ => s.now

/-- Raise FENCE_FIRED for every pending notification that is now satisfied, and drop it (R202). -/
def fireNotifies (s : State) : State :=
  let due := s.store.notifies.filter fun n => fenceSatisfied s n.fence n.epoch
  let s := { s with store := { s.store with
    notifies := s.store.notifies.filter fun n => !fenceSatisfied s n.fence n.epoch } }
  due.foldl (fun s n => raise s 0x123 n.tag n.fence) s

/-- A DMA fence of an earlier epoch, or a bench fence whose bench has gone, can never be satisfied (R188). -/
def fenceDead (s : State) (d : Bytes) (epoch : Nat) : Bool :=
  match fenceKind d with
  | 0 => false
  | 1 => !benchExists s (benchKey (fenceObject d) (fenceDest d)) && !fenceSatisfied s d epoch
  | _ => epoch != fenceEpoch s d && !fenceSatisfied s d epoch

/-- Instance of FENCE_ORPHANED: the port, or 0xFFFF for a bench fence (R203). -/
def orphanInstance (d : Bytes) : Nat := if fenceKind d = 2 then fencePort d else 0xFFFF

/-- A waiting fence that has died is marked (R188). -/
def markDead (s : State) (n : Notify) : Notify :=
  if fenceDead s n.fence n.epoch then { n with orphaned := true } else n

/-- The fences each waiting command waits on: a notification its one, and a queued change those of its shadow entries. -/
def waitingFences (s : State) : List (List Notify) :=
  s.store.notifies.map (fun n => [n]) ++ s.fm.changes.map fun c => (s.fm.shadow.filter fun x => x.gen == c.gen).flatMap (·.fences)

/-- One fence for each command that has just come to wait on a dead one: a command already told of one is not told again. -/
def newlyDead (s : State) : List Bytes :=
  (waitingFences s).filterMap fun l =>
    if l.any (·.orphaned) then none else (l.find? fun n => fenceDead s n.fence n.epoch).map (·.fence)

/-- Raise FENCE_ORPHANED once for each command that waits on a fence that can never be satisfied (R188). -/
def orphanNotifies (s : State) : State :=
  let dead := newlyDead s
  let s := { s with
    store := { s.store with notifies := s.store.notifies.map (markDead s) }
    fm := { s.fm with shadow := s.fm.shadow.map fun x => { x with fences := x.fences.map (markDead s) } } }
  dead.foldl (fun s d => raise s 0x122 (orphanInstance d) d) s

/-! ### Taking and closing slots -/

/-- Enter LANDING for a frame (R179): the header first. -/
def landSlot (s : State) (k i frame : Nat) (format : Bytes) (placement : Nat := 0) : State :=
  match getBench s k with
  | none => s
  | some b =>
    let v := getSlot b i
    let v' : Slot := { v with
      state := .landing, frame := frame, tcValid := false, padded := false, mapValid := false, proxyValid := false
      ancBytes := 0, timecode := 0x8000000000000000, format := format, start := s.now, close := 0, payloadId := 0
      tiles := if v.format = format then v.tiles else []
      writeCount := v.writeCount + 1, placement := placement }
    writeHeader (setBench s k (setSlot b i v')) k i

/-- Jobs of a port's engines that are bound to a frame which has left LANDING end SLOT_STATE (R60): they are marked. -/
def releaseJobs (s : State) (owner slot frame : Nat) : State :=
  let mark := fun (t : Tab DmaEngine) => t.map fun p =>
    match p.2.job with
    | some j =>
      if j.kind < 2 ∧ !bit j.flags 0 ∧ j.object = owner ∧ j.slot = slot ∧ j.frame = frame then
        (p.1, { p.2 with job := some { j with released := true } })
      else p
    | none => p
  { s with
    portA := { s.portA with dma := mark s.portA.dma }
    portB := { s.portB with dma := mark s.portB.dma } }

/-- A slot no reader needs any more, above a shrink's bound, of an old layout or of a disabled bench, is RELEASED, and its
header says so (R176, R198, R199). -/
def relax (s : State) (k i : Nat) : State :=
  match getBench s k with
  | none => s
  | some b =>
    let v := getSlot b i
    if v.state ≠ .released ∧ v.state ≠ .landing ∧ v.holds = 0 ∧ v.hostHolds = 0 ∧ (b.pendingSlots ≤ i ∨ v.old.isSome ∨ b.ending) then
      setBench (slotWrite s b i (headerOff (slotView b i) + 8) [0]) k
        (setSlot b i { v with state := .released, old := none, tiles := [] })
    else s

/-- Release every slot of `l` that is free to be released. -/
def relaxAll (s : State) (k : Nat) (l : List Nat) : State := l.foldl (fun s i => relax s k i) s

/-- Blocks of an old layout go back when its last slot is released, and a disabled bench goes when every slot is
(R199). -/
def settleBench (s : State) (k : Nat) : State :=
  match getBench s k with
  | none => s
  | some b =>
    let b := if b.slot.any fun p => p.2.old.isSome then b else { b with oldBlocks := [] }
    if b.ending && !(b.slot.any fun p => p.2.state != .released) then dropBench s k else setBench s k b

/-- Close the LANDING slot `i` of a bench (R179): its state, CLOSE_TIME and header; a COMPLETE close satisfies fences
(R187), an INCOMPLETE one invalidates the slot's tile signatures (R158). -/
def closeSlot (s : State) (k i : Nat) (ok : Bool) (f : Slot → Slot := id) : State :=
  match getBench s k with
  | none => s
  | some b =>
    let v := f (getSlot b i)
    let v' : Slot := { v with
      state := if ok then .complete else .incomplete, close := s.now, tiles := if ok then v.tiles else [] }
    let s := writeHeader (setBench s k (setSlot b i v')) k i
    let s := if ok then { s with store := { s.store with
        closed := Tab.set s.store.closed k (closedFrames s k ++ [(v.frame, s.now)]) } } else s
    let s := releaseJobs s (k % 0x8000) i v.frame
    settleBench (relax (if ok then fireNotifies s else s) k i) k

/-- Whether the writer may take slot `i` (R181, R198). -/
def slotFree (b : Bench) (i : Nat) : Bool :=
  let v := getSlot b i
  v.holds == 0 && v.hostHolds == 0 && v.state != .landing && decide (i < b.pendingSlots) &&
  (decide (b.slots < 2) || newestSlot b != some i)

/-- The slots of a bench in order. -/
def slotNumbers (b : Bench) : List Nat := List.range b.slots

/-- Of the slots `l`, the one whose frame has the lowest number. -/
def lowestFrame (b : Bench) : List Nat → Option Nat
  | [] => none
  | i :: t =>
    match lowestFrame b t with
    | none => some i
    | some j => if (getSlot b i).frame ≤ (getSlot b j).frame then some i else some j

/-- The slot the writer takes at a frame start (R181): the lowest-numbered RELEASED slot, else the lowest frame number. -/
def chooseSlot (b : Bench) : Option Nat :=
  let l := (slotNumbers b).filter (slotFree b)
  match l.find? fun i => (getSlot b i).state == .released with
  | some i => some i
  | none => lowestFrame b l

/-- The next frame number of a bench, which is used up (R143, R181); it continues across every change of the bench. -/
def nextFrame (s : State) (k : Nat) : Nat := Tab.get s.store.nextFrame k 0

def useFrame (s : State) (k : Nat) : State :=
  { s with store := { s.store with nextFrame := Tab.set s.store.nextFrame k (nextFrame s k + 1) } }

/-- A frame the writer could not write (R181): counted, and BENCH_SKIP raised. -/
def skipWrite (s : State) (k frame : Nat) : State :=
  let n := Tab.get s.store.skipped k 0 + 1
  let s := { s with store := { s.store with
    skipped := Tab.set s.store.skipped k n, skippedTotal := s.store.skippedTotal + 1 } }
  raise s 0x120 k (le 8 frame ++ le 8 n)

/-! ### Holds (R180) -/

/-- A reader takes a hold on a slot; a host DMA job's hold is counted apart. -/
def holdSlot (s : State) (k i : Nat) (host : Bool) : State :=
  match getBench s k with
  | none => s
  | some b =>
    let v := getSlot b i
    setBench s k (setSlot b i
      (if host then { v with hostHolds := v.hostHolds + 1 } else { v with holds := v.holds + 1 }))

/-- A reader lets go of its slot. -/
def unholdSlot (s : State) (k i : Nat) (host : Bool) : State :=
  match getBench s k with
  | none => s
  | some b =>
    let v := getSlot b i
    let b := setSlot b i (if host then { v with hostHolds := v.hostHolds - 1 } else { v with holds := v.holds - 1 })
    settleBench (relax (setBench s k b) k i) k

/-! ### Making, changing and ending a bench -/

/-- The sizes of a bench. -/
structure Layout where
  slots : Nat
  frameArea : Nat
  ancArea : Nat
  mapArea : Nat := 0
  proxyArea : Nat := 0
  writeRate : Nat := 0
  flat : Bool := false

def layoutPitch (l : Layout) : Nat := l.frameArea + 256 + l.ancArea + l.mapArea + l.proxyArea
def layoutBlocks (l : Layout) : Nat := ceilDiv (l.slots * layoutPitch l) blockSize

/-- The layout of a source's bench under a contract (R175). -/
def contractLayout (c : Bytes) : Layout :=
  { slots := ctSlots c, frameArea := frameBytes (ctFormat c), ancArea := ctAncArea c, mapArea := ctMapArea c
    proxyArea := ctProxyArea c, writeRate := ctWriteRate c, flat := isHostSource (ctObject c) }

/-- Set `f` on every slot of a bench. -/
def mapSlots (b : Bench) (f : Nat → Slot → Slot) : Bench := { b with slot := Tab.mapAll b.slot f }

/-- The slots of a bench as a new layout leaves them: each that is not RELEASED stands at the old one (R199). -/
def keepOld (b : Bench) : Tab Slot :=
  (mapSlots b fun _ v => { v with
    old := if v.state = .released then none else if v.old.isSome then v.old else some (layoutNow b), tiles := [] }).slot

/-- Make a bench of a layout, every slot RELEASED (R178), but for those still held of a bench that was ending (R199). -/
def makeBench (s : State) (k : Nat) (l : Layout) : State :=
  let b : Bench :=
    { id := s.store.nextId, slots := l.slots, pendingSlots := l.slots, frameArea := l.frameArea, ancArea := l.ancArea
      mapArea := l.mapArea, proxyArea := l.proxyArea, blocks := drawBlocks s k (layoutBlocks l)
      writeRate := l.writeRate, flat := l.flat }
  let b := match getBench s k with
    | some o => { b with slot := keepOld o, oldBlocks := o.oldBlocks ++ o.blocks }
    | none => b
  let s := returnBlocks (setBench s k b) k
  { s with store := { s.store with nextId := s.store.nextId + 1 } }

/-- Blocks that a change of a bench to a layout takes beside those it holds (R198, R199). -/
def blocksWanted (b : Bench) (l : Layout) (relayout : Bool) : Nat :=
  if relayout then layoutBlocks l else if b.slots ≤ l.slots then layoutBlocks l - b.blocks.length else 0

/-- The admission of a change of bench `k` that takes effect later takes its blocks (R198). -/
def grantChange (s : State) (k : Nat) (l : Layout) (relayout : Bool) : State :=
  match getBench s k with
  | some b => if b.ending then grantBlocks s k (layoutBlocks l) else grantBlocks s k (blocksWanted b l relayout)
  | none => grantBlocks s k (layoutBlocks l)

/-- Change a bench to a new layout (R198, R199). A new pitch or format leaves every slot in use at the old layout and takes
new blocks beside the old; more slots grow it at once; fewer slots start a shrink, which BENCH_SHRINK_DONE ends. The tile
signatures stored for its slots are invalid from now on (R158). -/
def changeBench (s : State) (k : Nat) (l : Layout) (relayout : Bool) : State :=
  match getBench s k with
  | none => s
  | some b =>
    let sizes := { b with frameArea := l.frameArea, ancArea := l.ancArea, mapArea := l.mapArea, proxyArea := l.proxyArea
                          writeRate := l.writeRate, slot := (mapSlots b fun _ v => { v with tiles := [] }).slot }
    if relayout then
      let b' := { sizes with
        slots := l.slots, pendingSlots := l.slots, oldBlocks := b.oldBlocks ++ b.blocks
        blocks := drawBlocks s k (blocksWanted b l true), slot := keepOld b, lastTiles := (0, []) }
      settleBench (relaxAll (returnBlocks (setBench s k b') k) k (List.range (max b.slots l.slots))) k
    else if b.slots ≤ l.slots then
      returnBlocks (setBench s k { sizes with
        slots := l.slots, pendingSlots := l.slots, blocks := b.blocks ++ drawBlocks s k (blocksWanted b l false) }) k
    else
      relaxAll (returnBlocks (setBench s k { sizes with pendingSlots := l.slots }) k) k (List.range b.slots)

/-- Whether a running shrink may complete: no slot at or above the bound is held or LANDING (R198). -/
def shrinkDone (b : Bench) : Bool :=
  decide (b.pendingSlots < b.slots) &&
  !(b.slot.any fun p =>
      decide (b.pendingSlots ≤ p.1) && (p.2.state == .landing || p.2.holds != 0 || p.2.hostHolds != 0))

/-- End a bench (R199): a LANDING slot closes INCOMPLETE, every slot is released as its holds end, and the blocks return
when the last is. Windows onto it are orphaned (R497), and waiters on its fences are told (R188). -/
def endBench (s : State) (k : Nat) : State :=
  match getBench s k with
  | none => s
  | some b =>
    let s := match landingSlot b with
      | some i => closeSlot s k i false
      | none => s
    match getBench s k with
    | none => s
    | some b =>
      let orphan := fun (t : Tab Window) => t.map fun p =>
        if p.2.inForce.enable && p.2.inForce.kind == 0 && p.2.inForce.bench == b.id then
          (p.1, { p.2 with orphaned := true }) else p
      let s := { s with
        portA := { s.portA with windows := orphan s.portA.windows }
        portB := { s.portB with windows := orphan s.portB.windows } }
      let s := relaxAll (setBench s k { b with ending := true }) k (Tab.keys b.slot)
      orphanNotifies (settleBench (returnBlocks s k) k)

/-- A contract change or a disable of source `i` that has taken effect completes (R136) when no job taken under the old
contract still runs and no shrink of its bench does. -/
def boundaryPassed (s : State) (i : Nat) : State :=
  let shrinking := match getBench s (benchKey i false) with
    | some b => decide (b.pendingSlots < b.slots)
    | none => false
  if shrinking || !(getSource s i).draining.isEmpty then s
  else wake (setSource s i { getSource s i with leaving := none }) (.boundary i) (some s.now)

/-- A DMA job has retired: the host sources that waited for it may go on (R136). -/
def retireJob (s : State) (order : Nat) : State :=
  let due := (s.sources.filter fun p => p.2.draining.contains order).map (·.1)
  let s := { s with sources := s.sources.map fun p => (p.1, { p.2 with draining := p.2.draining.filter (· != order) }) }
  due.foldl boundaryPassed s

end Sys2Proof.Machine
end

