-- ==== Sys2Proof/Machine/Dma.lean ====
section
/-! DEFINITION. Host DMA engines (R58-R62): taking a job with its checks, moving its data, ending it, failing a fetch,
enabling, aborting and advancing the ring. -/

namespace Sys2Proof.Machine

/-- Job statuses (R62). -/
def jobDONE : Nat := 0x0000
def jobABORTED : Nat := 0x0001
def jobBAD_DESCRIPTOR : Nat := 0x0101
def jobBAD_TARGET : Nat := 0x0102
def jobOUT_OF_BOUNDS : Nat := 0x0103
def jobSLOT_STATE : Nat := 0x0104
def jobHOST_MEMORY : Nat := 0x0301

/-- LOG2_SIZE as the engine treats it (R58). -/
def ringLog (e : DmaEngine) : Nat := if 4 ≤ e.log2Size ∧ e.log2Size ≤ 12 then e.log2Size else 12

/-- Address of the descriptor of job `n` (R59). -/
def descriptorAddr (e : DmaEngine) (n : Nat) : Nat :=
  e.baseLo.toNat + 4294967296 * e.baseHi.toNat + 32 * (n % 2 ^ ringLog e)

/-- Fields of a descriptor (R59). -/
def jobOf (number : Nat) (d : Bytes) : DmaJob :=
  { number := number, kind := u8 d 0, flags := u8 d 1, object := u16 d 2, count := u32 d 4, hostAddr := u64 d 8
    offset := u32 d 16, slot := u8 d 20 }

def jobToHost (j : DmaJob) : Bool := bit j.flags 0
def jobIrq (j : DmaJob) : Bool := bit j.flags 1
def jobClose (j : DmaJob) : Bool := bit j.flags 2
def jobDest (j : DmaJob) : Bool := bit j.flags 3

/-- The bench a job of kind 0 or 1 names. -/
def jobBench (j : DmaJob) : Nat := benchKey j.object (jobDest j)

/-- BAD_DESCRIPTOR (R59, R62): a reserved field or one the kind does not use is nonzero, or a size is not a whole number
of words. -/
def badDescriptor (j : DmaJob) (d : Bytes) : Bool :=
  decide (15 < j.flags) || !zeroAt d 21 3 || j.count % 4 != 0 || j.count == 0 || j.hostAddr % 4 != 0 ||
  j.offset % 4 != 0 ||
  match j.kind with
  | 0 => false
  | 1 => false
  | 2 => j.object != 0 || j.slot != 0 || jobClose j || jobDest j
  | 3 => j.slot != 0 || j.offset != 0 || jobClose j || jobDest j
  | _ => false

/-- Fields of a capture stream's configuration (R388). -/
def capChannels (c : Capture) : Nat := u8 c.config 4
def capPack (c : Capture) : Nat := u8 c.config 5
def capFrames (c : Capture) : Nat := u16 c.config 6
def capPort (c : Capture) : Nat := u8 c.config 9
def capDepth (c : Capture) : Nat := if u8 c.config 10 = 0 then 100 else u8 c.config 10

/-- Block size of a stream (R385). -/
def capBlock (c : Capture) : Nat := 32 + capFrames c * capChannels c * (if capPack c = 0 then 3 else 4)

def getCapture (s : State) (i : Nat) : Capture := Tab.get s.captures i {}
def setCapture (s : State) (i : Nat) (v : Capture) : State := { s with captures := Tab.set s.captures i v }

/-- The check of a job when the engine takes it (R60, R62): the first status in the order of the table, or DONE. -/
def jobCheck (s : State) (p : Port) (j : DmaJob) (d : Bytes) : Nat :=
  if badDescriptor j d then jobBAD_DESCRIPTOR
  else
    match j.kind with
    | 2 => if stagingSize < j.offset + j.count then jobOUT_OF_BOUNDS else jobDONE
    | 3 =>
      let c := getCapture s j.object
      if jobToHost j && c.enabled && j.count % capBlock c != 0 then jobBAD_DESCRIPTOR
      else if !jobToHost j || !c.enabled || capPort c != p.num then jobBAD_TARGET
      else jobDONE
    | _ =>
      if 1 < j.kind then jobBAD_TARGET
      else
        match getBench s (jobBench j) with
        | none => jobBAD_TARGET
        | some b =>
          if b.ending || (!jobToHost j && (!isHostSource j.object || jobDest j)) then
            jobBAD_TARGET
          else if b.slots ≤ j.slot ∨ (if j.kind = 0 then b.frameArea else benchPitch b - b.frameArea) < j.offset + j.count then
            jobOUT_OF_BOUNDS
          else if jobToHost j && ((getSlot b j.slot).state != .complete || decide (b.pendingSlots ≤ j.slot) ||
              (getSlot b j.slot).old.isSome) then
            jobSLOT_STATE
          else if !jobToHost j && (getSlot b j.slot).state != .landing then jobSLOT_STATE
          else jobDONE

/-- Where within its slot a job of kind 0 or 1 starts. -/
def jobStart (b : Bench) (j : DmaJob) : Nat := (if j.kind = 0 then 0 else (slotView b j.slot).frameArea) + j.offset

/-- Take, or give back, the hold of a device-to-host job on its slot (R180). -/
def jobHold (s : State) (j : DmaJob) : State :=
  if j.kind < 2 ∧ jobToHost j then holdSlot s (jobBench j) j.slot true else s

def jobUnhold (s : State) (j : DmaJob) : State :=
  if j.kind < 2 ∧ jobToHost j then unholdSlot s (jobBench j) j.slot true else s

/-- Land the bytes a host-to-device job has moved (R60): those of a frame that is still LANDING, or of the staging
area. -/
def jobStore (s : State) (p : Port) (j : DmaJob) (data : Bytes) : State :=
  match j.kind with
  | 2 => storeWrite s (stagingBase p + j.offset) data
  | _ =>
    match getBench s (jobBench j) with
    | some b => slotWrite s b j.slot (jobStart b j) data
    | none => s

/-- What running jobs have written by now stands in the store (R60). -/
def landMoved (s : State) : List Landed → State
  | [] => s
  | x :: t =>
    let y := getEngine s x.port x.engine
    match y.job with
    | some j =>
      if jobToHost j ∨ 1 < j.kind ∨ j.released then landMoved s t
      else
        let d := x.data.take j.count
        landMoved (jobStore (setEngine s x.port x.engine { y with job := some { j with written := d.length } }) x.port j d) t
    | none => landMoved s t

/-- The bytes a device-to-host job of kinds 0 to 2 moves. -/
def jobFetch (s : State) (p : Port) (j : DmaJob) (n : Nat) : Bytes :=
  match j.kind with
  | 2 => storeRead s (stagingBase p + j.offset) n
  | _ =>
    match getBench s (jobBench j) with
    | some b => slotRead s b j.slot (jobStart b j) n
    | none => zeros n

/-- Host frame sources take their ancillary list when a slot closes COMPLETE: `recordsFit` walks the records from
offset 0 (R177). It answers the bytes before the first record that fails, and whether one failed. -/
def recordsFit (lines : Nat) (area : Bytes) : Nat → Nat → Nat → Nat × Bool
  | 0, off, _ => (off, false)
  | fuel + 1, off, total =>
    if total ≤ off then (off, false)
    else
      let words := u16 area (off + 4)
      let size := roundUp (8 + 2 * words) 8
      let sum := (List.range (words - 1)).foldl (fun n i => n + u16 area (off + 8 + 2 * i) % 512) 0 % 512
      let ck := u16 area (off + 8 + 2 * (words - 1)) % 1024
      let good := decide (off + size ≤ total) && decide (3 < words) && decide (1 ≤ u16 area off) &&
        decide (u16 area off ≤ lines) && decide (u8 area (off + 2) < 8) && zeroAt area (off + 3) 1 &&
        zeroAt area (off + 6) 2 && decide (ck % 512 = sum) && decide (ck / 512 = (if sum / 256 = 1 then 0 else 1))
      if good then recordsFit lines area fuel (off + size) total else (off, true)

/-- Close a host source's slot (R185): COMPLETE takes TIMECODE and ANC_BYTES from the header in the store and walks the
records; the source counts its frame, and a LOST host source is FORMATTED again (R138). -/
def closeHostSlot (s : State) (src slot : Nat) (ok : Bool) : State :=
  let k := benchKey src false
  match getBench s k with
  | none => s
  | some b =>
    let v := slotView b slot
    let hdr := slotRead s b slot (headerOff v) 24
    let tc := u64 hdr 16
    let anc := min (u32 hdr 12) v.ancArea
    let area := slotRead s b slot (ancOff v) anc
    let walk := recordsFit (totalLines (ctFormat (contractOf s src))) area (anc / 8 + 1) 0 anc
    let s := closeSlot s k slot ok fun v =>
      if ok then
        { v with timecode := BitVec.ofNat 64 tc, tcValid := !bit tc 63, ancBytes := walk.1 }
      else v
    let s := if ok then writeAncBytes s k slot else s
    let x := getSource s src
    let n := (getSlot b slot).frame
    let c := x.counts
    let c := if ok then { c with
        framesComplete := c.framesComplete + 1
        ancChecksum := if walk.2 then satInc 32 c.ancChecksum else c.ancChecksum }
      else { c with framesIncomplete := c.framesIncomplete + 1 }
    setSource s src { x with
      counts := c, lastFrame := n, blackNow := if ok then false else x.blackNow
      timecode := if ok then BitVec.ofNat 64 tc else x.timecode
      state := if ok && x.state == .lost then .formatted else x.state
      stateSince := if ok && x.state == .lost then s.now else x.stateSince
      lossHoldRunning := if ok then false else x.lossHoldRunning
      lossHoldExpired := if ok then false else x.lossHoldExpired
      lossHoldEnd := if ok then none else x.lossHoldEnd }

/-- The end of a job (R61, R62): the engine's registers, the write-back into the descriptor and the message. `status`
other than DONE halts the engine. The descriptor lies where DMA_BASE and DMA_RING place its number at this instant (DESIGN
CHOICE, log entry 103). -/
def finishJob (s : State) (p : Port) (e : Nat) (j : DmaJob) (status remaining : Nat) : State :=
  let x := getEngine s p e
  let s := emit s p (.write (descriptorAddr x j.number + 24) (le 2 status ++ zeros 2 ++ le 4 remaining))
  let ok := status == jobDONE
  let s := setEngine s p e { x with
    job := none, done := x.done + 1, head := x.head + 1#32
    halted := if ok then x.halted else true
    lastError := if ok then x.lastError else status
    enable := if ok then x.enable else false }
  let s := retireJob s j.order
  if jobIrq j then sendMsix s p x.vector else s

/-- A job that ended DONE satisfies its fence (R61). -/
def fireJob (s : State) (p : Port) (e n : Nat) : State :=
  fireNotifies { s with store := { s.store with
    doneJobs := s.store.doneJobs ++
      [{ port := p.num, engine := e, job := n, epoch := (getPort s p).epoch, time := s.now }] } }

/-- Whether an engine may take a job (R58): enabled, idle, and with a descriptor the host has written. -/
def mayTake (x : DmaEngine) : Bool := x.enable && x.job.isNone && x.head != x.tail

/-- DMA_JOB_TAKE (R60): the engine fetches descriptor `d`, checks the job, and runs it or ends it at once. -/
def takeJob (s : State) (p : Port) (e : Nat) (d : Bytes) : State :=
  let x := getEngine s p e
  if !mayTake x then s
  else
    let j := jobOf x.taken d
    let s := setEngine s p e { x with taken := x.taken + 1 }
    let st := jobCheck s p j d
    if st ≠ jobDONE then finishJob s p e j st j.count
    else
      let frame := match getBench s (jobBench j) with
        | some b => (getSlot b j.slot).frame
        | none => 0
      let j := { j with frame := frame, order := s.store.nextId }
      let s := { s with store := { s.store with nextId := s.store.nextId + 1 } }
      jobHold (setEngine s p e { getEngine s p e with job := some j }) j

/-- Whether a capture job of stream `i` was taken before this one and still runs (R384). -/
def earlierCapture (s : State) (p : Port) (j : DmaJob) : Bool :=
  (getPort s p).dma.any fun q =>
    match q.2.job with
    | some k => k.kind == 3 && k.object == j.object && decide (k.order < j.order)
    | none => false

/-- A block with its GAP flag set (R385, R386). -/
def markGap (b : Bytes) : Bytes := b.take 29 ++ le 1 (u8 b 29 ||| 1) ++ b.drop 30

/-- DMA_JOB_END of a capture job (R384): the oldest blocks go to the host, once they are all complete. -/
def endCapture (s : State) (p : Port) (e : Nat) (j : DmaJob) : State :=
  let c := getCapture s j.object
  let n := j.count / capBlock c
  if earlierCapture s p j || decide (c.blocks.length < n) then s
  else
    let out := (c.blocks.take n).map (·.2)
    let out := match out with
      | b :: t => if c.gap then markGap b :: t else b :: t
      | [] => []
    let s := setCapture s j.object { c with blocks := c.blocks.drop n, gap := false }
    let s := emit s p (.write j.hostAddr out.flatten)
    finishJob (fireJob s p e j.number) p e j jobDONE 0

/-- DMA_JOB_END (R61): `ok` says that the host answered every read of job data; `data` are the bytes a host-to-device
job moved. A job whose frame left LANDING ends SLOT_STATE with the bytes it had not written (R60). -/
def endJob (s : State) (p : Port) (e : Nat) (ok : Bool) (data : Bytes) : State :=
  let x := getEngine s p e
  match x.job with
  | none => s
  | some j =>
    if j.kind = 3 then endCapture s p e j
    else if jobToHost j then
      let s := emit s p (.write j.hostAddr (jobFetch s p j j.count))
      finishJob (fireJob (jobUnhold s j) p e j.number) p e j jobDONE 0
    else
      let data := data.take j.count
      if j.released then finishJob s p e j jobSLOT_STATE (j.count - j.written)
      else
        let s := jobStore s p j data
        if !ok || data.length != j.count then finishJob s p e j jobHOST_MEMORY (j.count - data.length)
        else
          let s := if j.kind < 2 ∧ jobClose j then closeHostSlot s j.object j.slot true else s
          finishJob (fireJob s p e j.number) p e j jobDONE 0

/-- ABORT (R58): the running job ends ABORTED with the bytes moved so far; with no job only ENABLE is cleared. Of a job whose
frame left LANDING, the bytes written before that stand (R60). -/
def abortJob (s : State) (p : Port) (e : Nat) (data : Bytes) : State :=
  let x := getEngine s p e
  match x.job with
  | none => setEngine s p e { x with enable := false }
  | some j =>
    let data := if jobToHost j ∨ j.released then [] else data.take j.count
    let s := if data.isEmpty then s else jobStore s p j data
    finishJob (jobUnhold s j) p e j jobABORTED (j.count - (if j.released then j.written else data.length))

/-- A failed descriptor fetch (R62). -/
def failFetch (s : State) (p : Port) (e : Nat) : State :=
  let x := getEngine s p e
  if !mayTake x then s
  else
    sendMsix (setEngine s p e { x with enable := false, halted := true, lastError := jobHOST_MEMORY }) p x.vector

/-- A write of DMA_CTL (R58, R62): VECTOR is set; ENABLE 0 to 1 clears HALTED; then ABORT acts, and clears ENABLE. The
order of the two in one write is the model's (DESIGN CHOICE, log entry 102). -/
def writeDmaCtl (s : State) (p : Port) (e : Nat) (v : BitVec 32) (moved : Bytes) : State :=
  let n := v.toNat
  let x := getEngine s p e
  let s := setEngine s p e { x with
    vector := bits n 12 8
    enable := bit n 0
    halted := if bit n 0 && !x.enable then false else x.halted }
  if bit n 1 then abortJob s p e moved else s

/-- A write of DMA_TAIL (R58): ignored when it lies more than one ring ahead of HEAD. -/
def writeTail (s : State) (p : Port) (e : Nat) (v : BitVec 32) : State :=
  let x := getEngine s p e
  if 2 ^ ringLog x < (v - x.head).toNat then s else setEngine s p e { x with tail := v }

end Sys2Proof.Machine
end

