-- ==== Sys2Proof/Machine/Ports.lean ====
section
/-! DEFINITION. The control ports (02, 18): semaphores, mailbox channels and doorbells, event-ring and MSI-X registers,
DMA engines, host windows, port reset and link training. One meaning for each row. -/

namespace Sys2Proof.Machine

/-! ### Semaphores (R47-R49) -/

/-- CH_CTL back at its reset value, for cells that govern a channel (R49, R52). -/
def resetChCtl (s : State) (cell : Nat) : State :=
  if cell < 32 then setChan s cell { getChan s cell with cplIrq := false, cplVector := 0 } else s

/-- An ACQUIRE by one port (R48): it takes the cell if it is free, and changes nothing otherwise. A governed channel notes
that its cell has gone to a port other than the one that rang (R54). -/
def acquire (s : State) (p : Port) (cell : Nat) (tag : BitVec 16) : State :=
  let c := getSem s cell
  match c.owner with
  | some _ => s
  | none =>
    let s := resetChCtl (setSem s cell { owner := some p, tag := tag, acqCount := (c.acqCount + 1) % 256 }) cell
    if cell < 32 && (getChan s cell).rangBy != p then setChan s cell { getChan s cell with handed := true } else s

/-- Free a cell its owner holds (R49): TAG becomes 0, CH_CTL of a governed channel is reset, and SEMAPHORE_FREED goes to
the port that did not hold it. `cause` is 0 for RELEASE and 1 for a port reset (R502). -/
def freeCell (s : State) (p : Port) (cell cause : Nat) : State :=
  let c := getSem s cell
  let s := resetChCtl (setSem s cell { c with owner := none, tag := 0 }) cell
  raiseOn s p.peer 0x102 cell 0 (le 1 p.num ++ le 1 cause ++ le 2 c.tag.toNat)

/-- A RELEASE by one port (R49). -/
def release (s : State) (p : Port) (cell : Nat) : State :=
  if (getSem s cell).owner = some p then freeCell s p cell 0 else s

/-- SEM_ACQUIRE. `rival` is the tag of an ACQUIRE on the same cell by the other port in the same CLK_PER cycle (R48): the
port that lost the previous such tie goes first, Port A at the first tie, and the loser goes first next time. On a cell that
is already held neither port loses, so the order stays (DEDUCED, log entry 100). -/
def execSemAcquire (p : Port) (cell : Fin 64) (tag : BitVec 16) (rival : Option (BitVec 16)) (s : State) : Result :=
  match rival with
  | none => .next (acquire s p cell tag)
  | some t =>
    let first := s.tieFirst
    let one := acquire s first cell (if first = p then tag else t)
    let two := acquire one first.peer cell (if first = p then t else tag)
    .next { two with tieFirst := if (getSem s cell).owner.isNone then first.peer else s.tieFirst }

/-- SEM_RELEASE (R49). -/
def execSemRelease (p : Port) (cell : Fin 64) (s : State) : Result := .next (release s p cell)

/-! ### Mailbox channels (R50-R54, R73, R76) -/

/-- Why a buffer write or doorbell is refused, in the order of R51: cell free 3, not owner 1, channel busy 2; 0 when it
is accepted. -/
def rejectReason (s : State) (p : Port) (ch : Nat) : Nat :=
  match (getSem s ch).owner with
  | none => 3
  | some q =>
    if q ≠ p then 1
    else if (getChan s ch).state = .posted ∨ (getChan s ch).state = .running then 2
    else 0

/-- Count a refused write or doorbell (R51, R53). -/
def reject (s : State) (ch why : Nat) : State :=
  let c := getChan s ch
  setChan s ch { c with rejects := satInc 32 c.rejects, lastReject := why }

/-- MAILBOX_BUFFER_WRITE (R51, R73). Bytes beyond the 4 KiB buffer are not part of the write. -/
def execMailboxBufferWrite (p : Port) (ch : Fin 32) (off : Nat) (data : Bytes) (s : State) : Result :=
  let why := rejectReason s p ch
  if why ≠ 0 then .next (reject s ch why)
  else .next (setChan s ch { bufWrite (getChan s ch) off (data.take (4096 - off)) with written := true })

/-- Opcodes of firmware release 3.1 (R596). -/
def knownOpcodes : List Nat :=
  [0x0101, 0x0102, 0x0104, 0x0105, 0x0201, 0x0202, 0x0301, 0x0302, 0x0303, 0x0304, 0x0305, 0x0401, 0x0402, 0x0403,
   0x0404, 0x0501, 0x0502, 0x0503, 0x0504, 0x0505, 0x0510, 0x0511, 0x0512, 0x0513, 0x0514, 0x0515, 0x0516] ++
  [0x0601, 0x0602, 0x0603, 0x0604, 0x0605, 0x0606, 0x0610, 0x0611, 0x0612, 0x0613, 0x0614, 0x0701, 0x0702, 0x0703,
   0x0704, 0x0705, 0x0801, 0x0802, 0x0803, 0x0804, 0x0805, 0x0806, 0x0807, 0x0808, 0x0809, 0x080A, 0x080B] ++
  [0x0901, 0x0902, 0x0903, 0x0904, 0x0905, 0x0906, 0x0A01, 0x0A02, 0x0A03, 0x0A04, 0x0A05, 0x0A06, 0x0A07, 0x0B01,
   0x0B02, 0x0B03, 0x0B04, 0x0B05, 0x0B06, 0x0B07, 0x0B08, 0x0C01, 0x0C02, 0x0C03, 0x0C04] ++
  [0x0D01, 0x0D02, 0x0D03, 0x0D10, 0x0D11, 0x0D12, 0x0E01, 0x0E02, 0x0E03, 0x0E04, 0x0E05, 0x0E06, 0x0E07, 0x0E08,
   0x0E09, 0x0E0A, 0x0F01, 0x0F02, 0x0F03, 0x0F04, 0x0F10, 0x0F11, 0x0F12] ++
  [0x1001, 0x1002, 0x1003, 0x1004, 0x1005, 0x1006, 0x1007, 0x1008, 0x1101, 0x1102, 0x1103, 0x1104, 0x1105, 0x1106,
   0x1107, 0x1108, 0x1201, 0x1202, 0x1203, 0x1210, 0x1211]

/-- A command whose opcode names no command: the Foreman takes it and completes it BAD_OPCODE, after the checks that come
before (R70, R73, R74), in its turn (R76). No row of the table stands for it: it is answered at its doorbell when no older
one waits, and else by an idle step (log entry 1). -/
def answerUnknown (s : State) (ch : Nat) : State :=
  let op := u16 (bufRead (getChan s ch) 0 2) 0
  if !(s.ready || s.fuseSense) || (getChan s ch).state != .posted || knownOpcodes.contains op || s.fm.doorbells.head? != some ch then s
  else
    let n : Nack :=
      if !(getChan s ch).written then badWhole
      else if s.updating then { status := stUPDATING }
      else { status := stBAD_OPCODE }
    complete (takeDoorbell s ch) ch (nackReply s n)

/-- DOORBELL (R53, R67). `epoch` is the PORT_EPOCH the doorbell carries: an older one is discarded and counted. -/
def execDoorbell (p : Port) (ch : Fin 32) (epoch : Nat) (s : State) : Result :=
  let x := getPort s p
  if epoch ≠ x.epoch then .next (setPort s p { x with stale := satInc 32 x.stale })
  else
    let why := rejectReason s p ch
    if why ≠ 0 then .next (reject s ch why)
    else
      let s := setChan s ch { getChan s ch with state := .posted, rangBy := p, handed := false }
      .next (answerUnknown (onFm s fun f => { f with doorbells := f.doorbells ++ [ch.val] }) ch)

/-- AWAITED_COMPLETION (R86, R54): a waiting command whose response is due completes; while a hitless update holds control it
is carried, and the new Foreman completes it (R529). -/
def execAwaitedCompletion (ch : Fin 32) (s : State) : Result :=
  match (if s.updating then none else (getChan s ch).waiting) with
  | some w => .next (if w.ready then complete s ch w.reply else s)
  | none => .next s

/-! ### Event ring and MSI-X (R55-R57) -/

/-- A write to ER_CTL (R55, R56): 0 to 1 on ENABLE empties the ring. A MODERATION interval that runs, and the message it
holds back, stay as they are (DESIGN CHOICE, log entry 101). -/
def writeErCtl (s : State) (p : Port) (v : BitVec 32) : State :=
  let n := v.toNat
  let r := (getPort s p).ring
  setPort s p { getPort s p with ring := { r with
    enable := bit n 0
    vector := bits n 12 8
    moderation := bits n 23 16
    consumer := if bit n 0 && !r.enable then r.producer else r.consumer } }

/-- ER_CTL_WRITE. -/
def execErCtlWrite (p : Port) (v : BitVec 32) (s : State) : Result := .next (writeErCtl s p v)

/-- A write to ER_CONSUMER (R56): one that would leave PRODUCER − CONSUMER above 4,096, or below 0, is ignored and sets
CONSUMER_ERR; room in an enabled ring that lost records brings the OVERFLOW record (R508). -/
def writeErConsumer (s : State) (p : Port) (v : BitVec 32) : State :=
  let r := (getPort s p).ring
  if 4096 < (r.producer - v).toNat then
    setPort s p { getPort s p with ring := { r with consumerErr := true } }
  else writeOverflow (setPort s p { getPort s p with ring := { r with consumer := v } }) p

/-- ER_CONSUMER_WRITE. -/
def execErConsumerWrite (p : Port) (v : BitVec 32) (s : State) : Result := .next (writeErConsumer s p v)

/-- MODERATION_TIMER (R55): the interval ends; a pending message goes, and opens the next interval. -/
def execModerationTimer (p : Port) (s : State) : Result :=
  let r := (getPort s p).ring
  if r.messagePending then
    .next (sendMsix (setPort s p { getPort s p with ring := { r with messagePending := false, timerRunning := true } }) p
      r.vector)
  else .next (setPort s p { getPort s p with ring := { r with timerRunning := false } })

/-- Unmask a vector (R57): a pending message is sent. -/
def unmask (s : State) (p : Port) (v : Nat) : State :=
  let e := getMsix s p v
  let s := setMsix s p v { e with masked := false, pending := false }
  if e.pending then sendMsix s p v else s

/-- MSIX_UNMASK. -/
def execMsixUnmask (p : Port) (v : Fin 32) (s : State) : Result := .next (unmask s p v)

/-! ### BAR0 reads that capture, and writes (R9, R10, R43, R45) -/

/-- CAPTURE_READ (R45, R58): the whole 64-bit value is captured for this port. -/
def execCaptureRead (p : Port) (reg : CaptureReg) (s : State) : Result :=
  let x := getPort s p
  match reg with
  | .gen => .next (setPort s p { x with genCapture := s.fm.gen })
  | .jseq => .next (setPort s p { x with jseqCapture := s.fm.jseq })
  | .dmaDone e =>
    .next (setPort s p { x with doneCapture := Tab.set x.doneCapture e (getEngine s p e).done })

/-- The snapshot an APPLY takes of the staged values (R493). -/
def stagedMap (w : Window) : WinMap :=
  let n := w.ctl.toNat
  { enable := bit n 0, writable := bit n 1, dest := bit n 2, kind := bits n 4 3, object := bits n 31 16
    offset := w.offset.toNat, pages := w.pages.toNat, cplIrq := bit n 13, vector := bits n 12 8 }

/-- A write of APPLY (R493, R495). -/
def applyWindow (s : State) (p : Port) (w : Nat) : State :=
  let x := getWindow s p w
  match x.snapshot with
  | some _ => setWindow s p w { x with applyIgnored := true }
  | none => setWindow s p w { x with snapshot := some (stagedMap x), verdict := none }

/-- A write of one MSI-X table word (R57): address, data, or the mask bit. -/
def writeMsix (s : State) (p : Port) (v word : Nat) (d : BitVec 32) : State :=
  let e := getMsix s p v
  match word with
  | 0 => setMsix s p v { e with addrLo := d &&& 0xFFFFFFFC#32 }
  | 1 => setMsix s p v { e with addrHi := d }
  | 2 => setMsix s p v { e with data := d }
  | _ => if bit d.toNat 0 then setMsix s p v { e with masked := true } else unmask s p v

/-- A write of one register of a DMA engine (R58). -/
def writeDma (s : State) (p : Port) (e off : Nat) (d : BitVec 32) : State :=
  let x := getEngine s p e
  match off with
  | 0x00 => if x.enable then s else setEngine s p e { x with baseLo := d &&& 0xFFFFF000#32 }
  | 0x04 => if x.enable then s else setEngine s p e { x with baseHi := d }
  | 0x08 => if x.enable then s else setEngine s p e { x with log2Size := bits d.toNat 3 0 }
  | 0x0C => writeDmaCtl s p e d []
  | 0x10 => writeTail s p e d
  | _ => s

/-- A write of one register of a window's control entry (R493): staging, W1C, or APPLY. -/
def writeWindow (s : State) (p : Port) (w off : Nat) (d : BitVec 32) : State :=
  let x := getWindow s p w
  match off with
  | 0x00 => setWindow s p w { x with ctl := d &&& 0xFFFF3F1F#32 }
  | 0x04 => setWindow s p w { x with offset := d &&& 0xFFFFF000#32 }
  | 0x08 => setWindow s p w { x with pages := d &&& 0x0001FFFF#32 }
  | 0x0C => if bit d.toNat 0 then applyWindow s p w else s
  | 0x10 => if bit d.toNat 3 then setWindow s p w { x with applyIgnored := false } else s
  | _ => s

/-- An aligned 32-bit write at a BAR0 offset (R42): the register's fields by access type, reserved bits kept 0 (R9, R10);
a register with a behaviour of its own has it. -/
def writeBar0 (s : State) (p : Port) (off : Nat) (d : BitVec 32) : State :=
  let n := d.toNat
  if 0x1000 ≤ off ∧ off < 0x1200 then
    if off % 8 = 0 then
      match bits n 31 30 with
      | 1 => acquire s p ((off - 0x1000) / 8) (BitVec.ofNat 16 n)
      | 2 => release s p ((off - 0x1000) / 8)
      | _ => s
    else s
  else if 0x2000 ≤ off ∧ off < 0x2800 then
    let ch := (off - 0x2000) / 64
    if off % 64 = 4 ∧ (getSem s ch).owner = some p then
      setChan s ch { getChan s ch with cplIrq := bit n 0, cplVector := bits n 12 8 }
    else s
  else if 0x4000 ≤ off ∧ off < 0x4020 then
    let r := (getPort s p).ring
    match off with
    | 0x4000 => if r.enable then s else
        setPort s p { getPort s p with ring := { r with baseLo := d &&& 0xFFFFF000#32 } }
    | 0x4004 => if r.enable then s else setPort s p { getPort s p with ring := { r with baseHi := d } }
    | 0x4008 => writeErCtl s p d
    | 0x4010 => writeErConsumer s p d
    | 0x4014 => if bit n 1 then setPort s p { getPort s p with ring := { r with consumerErr := false } } else s
    | _ => s
  else if 0x5000 ≤ off ∧ off < 0x5200 then writeDma s p ((off - 0x5000) / 64) (off % 64) d
  else if 0x6000 ≤ off ∧ off < 0x6200 then writeWindow s p ((off - 0x6000) / 32) (off % 32) d
  else if 0x8000 ≤ off ∧ off < 0x8200 then writeMsix s p ((off - 0x8000) / 16) (off % 16 / 4) d
  else s

/-- REGISTER_WRITE (R9, R10, R43). `full` says that all byte enables are set; an access that is not an aligned, whole
32-bit word is ignored. -/
def execRegisterWrite (p : Port) (off : Nat) (d : BitVec 32) (full : Bool) (s : State) : Result :=
  if full && off % 4 == 0 then .next (writeBar0 s p off d) else .next s

/-! ### DMA rows -/

/-- DMA_ENABLE (R62): the write of DMA_CTL with ENABLE 1 and the VECTOR it carries. -/
def execDmaEnable (p : Port) (e : Fin 8) (vector : Fin 32) (s : State) : Result :=
  .next (writeDmaCtl s p e (BitVec.ofNat 32 (1 + 256 * vector.val)) [])

/-- ABORT (R58). `moved` are the bytes the running job had moved. -/
def execAbort (p : Port) (e : Fin 8) (moved : Bytes) (s : State) : Result := .next (abortJob s p e moved)

/-- DMA_TAIL_WRITE (R58). -/
def execDmaTailWrite (p : Port) (e : Fin 8) (tail : BitVec 32) (s : State) : Result := .next (writeTail s p e tail)

/-- DMA_JOB_TAKE (R60). -/
def execDmaJobTake (p : Port) (e : Fin 8) (descriptor : Bytes) (s : State) : Result := .next (takeJob s p e descriptor)

/-- DESCRIPTOR_FETCH_FAIL (R62). -/
def execDescriptorFetchFail (p : Port) (e : Fin 8) (s : State) : Result := .next (failFetch s p e)

/-- DMA_JOB_END (R61, R67). Data that carries an older epoch is discarded and counted in PORT_STALE, as a port reset has ended
its job (R66). -/
def execDmaJobEnd (p : Port) (e : Fin 8) (ok : Bool) (x : JobEnd) (s : State) : Result :=
  let y := getPort s p
  if x.epoch ≠ y.epoch then .next (setPort s p { y with stale := satInc 32 y.stale })
  else .next (endJob (landMoved s x.landed) p e ok x.data)

/-! ### Port reset and link (R40, R64-R66) -/

/-- Numbers of the cells a port owns. -/
def cellsOf (s : State) (p : Port) : List Nat := (Tab.keys s.sems).filter fun k => (getSem s k).owner == some p

/-- End the running jobs of a port at its reset: ABORTED, without write-back; what had moved stands (R62, R66). -/
def dropJobs (s : State) (p : Port) (moved : List (Nat × Bytes)) : State :=
  (getPort s p).dma.foldl (fun s q =>
    match q.2.job with
    | none => s
    | some j =>
      let data := match moved.find? fun m => m.1 == q.1 with
        | some m => if jobToHost j ∨ j.released then [] else m.2.take j.count
        | none => []
      retireJob (jobUnhold (if data.isEmpty then s else jobStore s p j data) j) j.order) s

/-! ### Salvos a port leaves open (R221) -/

/-- Salvos that have just left the live states join the last 256 finished; older ones are forgotten (R231). -/
def retireSalvos (s : State) : State :=
  let live := fun (k : Nat) => let v := (getSalvo s k).state; v == .open || v == .armed || v == .firing
  let gone := (Tab.keys s.salvos).filter fun k => !live k && !s.finishedSalvos.contains k
  let all := s.finishedSalvos ++ gone
  let keep := all.drop (all.length - 256)
  { s with
    finishedSalvos := keep
    salvos := s.salvos.filter fun p => keep.contains p.1 || live p.1 }

/-- An OPEN salvo is discarded (R221): by command 0, by a reset of its port 1, by its timeout 2. -/
def discardSalvo (s : State) (i cause : Nat) : State :=
  let v := getSalvo s i
  if v.state != .open then s
  else raise (retireSalvos (setSalvo s i { v with state := .discarded })) 0x12B i (le 1 v.creator.num ++ le 1 cause)

/-- Salvos a port holds open. -/
def openSalvos (s : State) (p : Port) : List Nat :=
  (s.salvos.filter fun q => q.2.state == .open && q.2.creator == p).map (·.1)

/-- BAR2 window 0 of a port onto the first 4 MiB of its staging area, writable, or no mapping (R519). -/
def bootWindow (s : State) (p : Port) (on : Bool) : State :=
  let m : WinMap := if on then { enable := true, writable := true, kind := 1, pages := 1024 } else {}
  setWindow s p 0 { getWindow s p 0 with inForce := m }

/-- A port reset (R64-R66): PORT_EPOCH increments, the port's own state goes to reset, its cells are freed, and the other
port hears PORT_RESET; the counters of EVENT.STATUS, the event settings and the shared state stay. While the ROM waits on the
port, it maps window 0 again (R519, log entry 127). -/
def resetPort (s : State) (p : Port) (moved : List (Nat × Bytes)) (link : LinkState) (perst : Bool) : State :=
  let s := dropJobs s p moved
  let x := getPort s p
  let epoch := (x.epoch + 1) % 4294967296
  let keep := link == .l0
  let s := setPort s p
    { present := x.present, link := link, perstLow := perst, speed := if keep then x.speed else 0
      width := if keep then x.width else 0, epoch := epoch, stale := x.stale, toHost := x.toHost }
  let s := (cellsOf s p).foldl (fun s c => freeCell s p c 1) s
  let s := raiseOn s p.peer 0x101 p.num 0 (le 4 epoch)
  let s := (openSalvos s p).foldl (fun s i => discardSalvo s i 1) s
  let s := orphanNotifies s
  if s.fw.phase = .portWait p then bootWindow s p true else s

/-- The link after a reset that leaves it up (R66): in reset for as long as PERST# is low (R64). -/
def upLink (s : State) (p : Port) : LinkState := if (getPort s p).perstLow then .down else .l0

/-- PORT_RESET, by one of the five causes of R64. -/
def execPortReset (p : Port) (cause : ResetCause) (moved : List (Nat × Bytes)) (s : State) : Result :=
  match cause with
  | .perst => .next (resetPort s p moved .down true)
  | .flr => .next (resetPort s p moved (upLink s p) (getPort s p).perstLow)
  | .hotReset => .next (resetPort s p moved .down (getPort s p).perstLow)
  | .dlDown => .next (resetPort s p moved .down (getPort s p).perstLow)
  | .d3hotToD0 => .next (resetPort s p moved (upLink s p) (getPort s p).perstLow)

/-- PERST_DEASSERT (R66): link training starts on a port its strap enables. -/
def execPerstDeassert (p : Port) (s : State) : Result :=
  let x := getPort s p
  if x.present then .next (setPort s p { x with perstLow := false, link := .training })
  else .next (setPort s p { x with perstLow := false })

/-- LINK_TRAINED (R40, R46): SPEED 1 to 4 and WIDTH 1 or 2; a link at ×1 raises LINK_DEGRADED. -/
def execLinkTrained (p : Port) (speed width : Nat) (s : State) : Result :=
  let x := getPort s p
  if !x.present || x.perstLow then .next s
  else
    let s := setPort s p { x with link := .l0, speed := speed, width := width }
    if width = 1 then .next (raise s 0x103 p.num (le 1 speed ++ le 1 width)) else .next s

/-! ### Host windows (R63, R493-R499) -/

/-- The bytes a mapping covers. -/
def mapLength (m : WinMap) : Nat := m.pages * 4096

/-- The bench a mapping reaches: the incarnation it was applied to, while that exists (R497). -/
def mapBench (s : State) (w : Window) : Option Bench :=
  match getBench s (benchKey w.inForce.object w.inForce.dest) with
  | some b => if b.id = w.inForce.bench ∧ !b.ending then some b else none
  | none => none

/-- Whether `n` bytes at window offset `x` reach their target: enabled, within PAGES, and for a bench within the bound a
running shrink leaves (R497, R499). -/
def mapReaches (s : State) (w : Window) (x n : Nat) : Bool :=
  w.inForce.enable && decide (x + n ≤ mapLength w.inForce) &&
  if w.inForce.kind = 1 then true
  else
    match mapBench s w with
    | some b => decide (w.inForce.offset + x + n ≤ b.pendingSlots * benchPitch b)
    | none => false

/-- A read through a window (R496, R498): the memory's bytes, or 0xFF bytes counted in READS_VOID (R499). -/
def execWindowRead (p : Port) (w : Fin 16) (x n : Nat) (s : State) : Result :=
  let win := getWindow s p w
  if mapReaches s win x n then
    let data :=
      if win.inForce.kind = 1 then storeRead s (stagingBase p + win.inForce.offset + x) n
      else
        match mapBench s win with
        | some b => benchRead s b (win.inForce.offset + x) n
        | none => []
    .next (emit s p (.completion data))
  else
    let s := emit s p (.completion (List.replicate n 0xFF))
    .next (setWindow s p w { getWindow s p w with readsVoid := satInc 32 win.readsVoid })

/-- Whether a write of `n` bytes at bench address `x` is admitted: it lies in one slot of a host frame source, and that
slot is LANDING at issue (R200, R496). -/
def writeAdmitted (b : Bench) (owner x n : Nat) : Bool :=
  isHostSource owner && decide (0 < n) && x / benchPitch b == (x + n - 1) / benchPitch b &&
  (getSlot b (x / benchPitch b)).state == .landing

/-- A write through a window (R496, R499). `epoch` is the PORT_EPOCH it was issued under: an older one is discarded and
counted in PORT_STALE (R67). -/
def execWindowWrite (p : Port) (w : Fin 16) (x : Nat) (data : Bytes) (epoch : Nat) (s : State) : Result :=
  let port := getPort s p
  if epoch ≠ port.epoch then .next (setPort s p { port with stale := satInc 32 port.stale })
  else
    let win := getWindow s p w
    let n := data.length
    let void := setWindow s p w { win with writesVoid := satInc 32 win.writesVoid }
    if !mapReaches s win x n || !win.inForce.writable then .next void
    else if win.inForce.kind = 1 then .next (storeWrite s (stagingBase p + win.inForce.offset + x) data)
    else
      match mapBench s win with
      | none => .next void
      | some b =>
        if writeAdmitted b win.inForce.object (win.inForce.offset + x) n then
          .next (benchWrite s b (win.inForce.offset + x) data)
        else .next void

/-- LOCKED_READ_REQUEST (R489): Unsupported Request, and nothing else. -/
def execLockedReadRequest (p : Port) (s : State) : Result := .next (emit s p .unsupportedRequest)

/-- APPLY (R495). -/
def execApply (p : Port) (w : Fin 16) (s : State) : Result := .next (applyWindow s p w)

/-- The RESULT of an APPLY (R494), checked by the Foreman against the state it finds. While a hitless update holds control
every APPLY is UPDATING, one that disables its window too (DEDUCED, log entry 125). -/
def applyVerdict (s : State) (m : WinMap) : Nat :=
  if s.updating then stUPDATING
  else if !m.enable then stOK
  else if 1 < m.kind ∨ m.pages = 0 ∨ 65536 < m.pages then stBAD_ARGUMENT
  else if m.kind = 1 then
    if m.object ≠ 0 ∨ m.dest ∨ stagingSize < m.offset + mapLength m then stBAD_ARGUMENT else stOK
  else
    match getBench s (benchKey m.object m.dest) with
    | none => stBAD_ARGUMENT
    | some b =>
      if b.ending ∨ b.slots * benchPitch b < m.offset + mapLength m ∨ (m.writable ∧ (!isHostSource m.object ∨ m.dest)) then
        stBAD_ARGUMENT
      else stOK

/-- The incarnation of the bench a mapping names. -/
def benchId (s : State) (m : WinMap) : Nat :=
  match getBench s (benchKey m.object m.dest) with
  | some b => b.id
  | none => 0

/-- Whether the Foreman runs to take an APPLY. -/
def foremanRuns (s : State) : Bool := s.fw.phase == .foreman || s.fw.phase == .running

/-- APPLY_SWITCH (R495): the Foreman, once it runs, checks the APPLY; on OK, accesses issued from here on use the new mapping. -/
def execApplySwitch (p : Port) (w : Fin 16) (s : State) : Result :=
  let x := getWindow s p w
  match (if foremanRuns s then x.snapshot else none), x.verdict with
  | some m, none =>
    let v := applyVerdict s m
    if v = stOK then
      .next (setWindow s p w { x with
        verdict := some v
        inForce := if m.enable then { m with bench := if m.kind = 0 then benchId s m else 0 } else {} })
    else .next (setWindow s p w { x with verdict := some v })
  | _, _ => .next s

/-- Whether a mapping in force is of a bench that has ceased to exist (R497). -/
def mapOrphaned (s : State) (w : Window) : Bool :=
  w.inForce.enable && w.inForce.kind == 0 && (mapBench s w).isNone

/-- APPLY_COMPLETE (R495): every access under the old mapping has retired, and the RESULT of the check is written; an APPLY
the Foreman has not checked yet does not complete. ORPHANED clears when the RESULT is OK (R497), unless the bench newly mapped
has itself ceased to exist meanwhile. After OK the staged values equal those in force (R493). -/
def execApplyComplete (p : Port) (w : Fin 16) (s : State) : Result :=
  let x := getWindow s p w
  match x.snapshot, x.verdict with
  | some m, some v =>
    let s := setWindow s p w { x with
      snapshot := none, verdict := none, result := v, applyCount := (x.applyCount + 1) % 4294967296
      orphaned := if v = stOK then mapOrphaned s x else x.orphaned }
    .next (if m.cplIrq then sendMsix s p m.vector else s)
  | _, _ => .next s

end Sys2Proof.Machine
end

