-- ==== Sys2Proof/Machine/Events.lean ====
section
/-! DEFINITION. Events and the change journal (19): the EVENT and JOURNAL commands, coalesce windows and
JOURNAL_ADVANCED. -/

namespace Sys2Proof.Machine

/-- Oldest readable sequence (R512). -/
def journalOldest (s : State) : Nat := s.fm.jcount - s.fm.journal.length

/-- Newest sequence (R512). -/
def journalNewest (s : State) : Nat := s.fm.jseq

/-- The range of event sources an EVENT command names: FIRST, COUNT, at most 1,536 in all (R514). -/
def eventRangeNack (c : Cmd) : Option Nack :=
  firstOf
    [need (decide (u16 c.p 0 ≤ 1535)) (badArg 0),
     need (decide (1 ≤ u16 c.p 2) && decide (u16 c.p 0 + u16 c.p 2 ≤ 1536)) (badArg 2)]

/-- Set the setting byte of `n` sources from `i` (R504). -/
def setSettings (t : Tab Nat) (i v : Nat) : Nat → Tab Nat
  | 0 => t
  | n + 1 => setSettings (Tab.set t i v) (i + 1) v n

/-- EVENT.ENABLE (R514): the settings of the port that rang. -/
def defEventEnable : CommandDef where
  opcode := 0x0F01
  lenOk c := c.len == 8
  check _ c := firstOf [eventRangeNack c, need (zeroAt c.p 5 3) (badArg 5)]
  run s c :=
    let k := getCounts s c.port
    { state := setCounts s c.port { k with settings := setSettings k.settings (u16 c.p 0) (u8 c.p 4) (u16 c.p 2) } }

def execEventEnable (ch : Fin 32) (s : State) : Result := .next (runCommand defEventEnable ch s)

/-- Two setting bytes for each source: Port A, then Port B (R514). -/
def settingPairs (s : State) (i : Nat) : Nat → Bytes
  | 0 => []
  | n + 1 => le 1 (settingOf s .a i) ++ le 1 (settingOf s .b i) ++ settingPairs s (i + 1) n

/-- EVENT.GET (R514). -/
def defEventGet : CommandDef where
  opcode := 0x0F02
  lenOk c := c.len == 4
  check _ c := eventRangeNack c
  run s c := readDone s (le 2 (u16 c.p 2) ++ zeros 6 ++ settingPairs s (u16 c.p 0) (u16 c.p 2))

def execEventGet (ch : Fin 32) (s : State) : Result := .next (runCommand defEventGet ch s)

/-- One block of EVENT.STATUS (R514). -/
def eventBlock (k : EventCounts) : Bytes :=
  le 8 k.written ++ le 8 k.lost ++ le 8 k.errorLost ++ le 4 k.overflowRecords ++ le 1 k.urgentVector ++ zeros 3

/-- EVENT.STATUS (R514). -/
def defEventStatus : CommandDef where
  opcode := 0x0F03
  lenOk c := c.len == 0
  run s _ := readDone s (eventBlock s.eventsA ++ eventBlock s.eventsB ++ le 8 s.now ++ zeros 8)

def execEventStatus (ch : Fin 32) (s : State) : Result := .next (runCommand defEventStatus ch s)

/-- EVENT.PORT (R506, R514): URGENT_VECTOR of the port that rang. -/
def defEventPort : CommandDef where
  opcode := 0x0F04
  lenOk c := c.len == 4
  check _ c := firstOf [need (decide (u8 c.p 0 < 32)) (badArg 0), need (zeroAt c.p 1 3) (badArg 1)]
  run s c := { state := setCounts s c.port { getCounts s c.port with urgentVector := u8 c.p 0 } }

def execEventPort (ch : Fin 32) (s : State) : Result := .next (runCommand defEventPort ch s)

/-- JOURNAL.STATUS (R514). -/
def defJournalStatus : CommandDef where
  opcode := 0x0F10
  lenOk c := c.len == 0
  run s _ :=
    readDone s (le 8 (journalOldest s) ++ le 8 (journalNewest s) ++ le 8 s.fm.bootGen ++
      le 8 (orOnes s.fm.previousLast) ++ le 8 s.now ++ zeros 8)

def execJournalStatus (ch : Fin 32) (s : State) : Result := .next (runCommand defJournalStatus ch s)

/-- The entries a read from START returns (R514): from OLDEST when START is older, and at most COUNT. -/
def journalFirst (s : State) (start : Nat) : Nat := max start (journalOldest s)

def journalEntries (s : State) (start count : Nat) : List JEntry :=
  (s.fm.journal.drop (journalFirst s start - journalOldest s)).take count

/-- FLAGS bit 0 LAPPED. -/
def journalLapped (s : State) (start : Nat) : Nat := flag (decide (start < journalOldest s))

/-- JOURNAL.READ (R514). -/
def defJournalRead : CommandDef where
  opcode := 0x0F11
  lenOk c := c.len == 16
  check s c :=
    firstOf
      [need (decide (u64 c.p 0 ≤ s.fm.jcount)) (badArg 0),
       need (decide (1 ≤ u16 c.p 8) && decide (u16 c.p 8 ≤ 61)) (badArg 8),
       need (zeroAt c.p 10 6) (badArg 10)]
  run s c :=
    let es := journalEntries s (u64 c.p 0) (u16 c.p 8)
    readDone s (le 8 (journalFirst s (u64 c.p 0)) ++ le 8 (journalNewest s) ++ le 2 es.length ++
      le 1 (journalLapped s (u64 c.p 0)) ++ zeros 5 ++ es.flatMap entryBytes)

def execJournalRead (ch : Fin 32) (s : State) : Result := .next (runCommand defJournalRead ch s)

/-- JOURNAL.COPY (R514): the entries into the staging area of the port that rang. -/
def defJournalCopy : CommandDef where
  opcode := 0x0F12
  lenOk c := c.len == 16
  check s c :=
    firstOf
      [need (decide (u64 c.p 0 ≤ s.fm.jcount)) (badArg 0),
       need (decide (1 ≤ u32 c.p 8) && decide (u32 c.p 8 ≤ 65536)) (badArg 8),
       need (u32 c.p 12 % 64 == 0 && decide (u32 c.p 12 + 64 * u32 c.p 8 ≤ stagingSize)) (badArg 12)]
  run s c :=
    let es := journalEntries s (u64 c.p 0) (u32 c.p 8)
    { state := storeWrite s (stagingBase c.port + u32 c.p 12) (es.flatMap entryBytes)
      payload := le 8 (journalFirst s (u64 c.p 0)) ++ le 4 es.length ++ le 1 (journalLapped s (u64 c.p 0)) ++ zeros 3 }

def execJournalCopy (ch : Fin 32) (s : State) : Result := .next (runCommand defJournalCopy ch s)

/-- COALESCE_WINDOW_END (R507): if any occurrence was not written, the last one goes, with SUPPRESSED the number not
written before it, and opens the next window; otherwise no window is open. -/
def endWindow (s : State) (p : Port) (src : Nat) : State :=
  let k := getCounts s p
  if !Tab.has k.windows src then s
  else
    let w := Tab.get k.windows src { source := src }
    if w.suppressed = 0 then setCounts s p { k with windows := Tab.erase k.windows src }
    else
      let s := setCounts s p { k with windows := Tab.set k.windows src { source := src } }
      let record := sub w.last 0 12 ++ le 4 (w.suppressed - 1) ++ sub w.last 16 16
      if (getPort s p).ring.enable then deliver s p src (u64 w.last 4) record (bit (settingOf s p src) 1) else s

def execCoalesceWindowEnd (p : Port) (src : Fin 1536) (s : State) : Result := .next (endWindow s p src)

/-- JOURNAL_ADVANCED (R513): entries newer than those of the previous record exist. -/
def execJournalAdvanced (s : State) : Result :=
  if s.fm.jReported < s.fm.jcount then
    let s := onFm s fun f => { f with jReported := f.jcount }
    .next (raise s 0x107 0 (le 8 s.fm.jseq ++ le 8 s.fm.gen))
  else .next s

end Sys2Proof.Machine
end

