-- ==== Sys2Proof/Machine/LedgerCmds.lean ====
section
/-! DEFINITION. The LEDGER commands (R484, R485). -/

namespace Sys2Proof.Machine

/-- Milliamperes, rounded to the nearest, from nanoamperes. -/
def nearMa (n : Nat) : Nat := (n + 500000) / 1000000

/-- HEADROOM (R484): ceiling − 1.05 × W in mA, rounded down. -/
def headroom (s : State) (r : Nat) : Int :=
  ((ceilingScaled s r : Int) - (margined s r : Int)) / 10000000000

/-- The peak a port's LEDGER.STATUS reports for a rail. -/
def railPeak (x : Rail) : Port → Nat
  | .a => x.peakA
  | .b => x.peakB

/-- Sheds of a decision not yet in effect (R473). -/
def shedsPending (s : State) (x : Rail) : Bool :=
  match x.shedGen with
  | some g => (findChange s g).isSome
  | none => false

/-- STATE of a rail: over again once the sheds decided are all in effect. -/
def railState (s : State) (x : Rail) : Nat := if x.state = 2 ∧ !shedsPending s x then 1 else x.state

/-- One rail record of LEDGER.STATUS (R484). -/
def railRecord (s : State) (p : Port) (r : Nat) : Bytes :=
  let x := getRail s r
  le 1 r ++ le 1 (railState s x) ++ le 1 (flag x.softIgnored + 2 * flag x.drift) ++ zeros 1 ++ le 2 (hardCeiling s r) ++
  le 2 x.soft ++ le 4 (nearMa (typical s r)) ++ le 4 (nearMa (worst100 s r / 100)) ++ leInt 4 (headroom s r) ++
  le 4 x.measured ++ le 4 (railPeak x p) ++ zeros 4

/-- The peaks of a port start again at its LEDGER.STATUS. -/
def clearPeaks (s : State) (p : Port) : State :=
  { s with rails := s.rails.map fun x =>
      (x.1, match p with
        | .a => { x.2 with peakA := 0 }
        | .b => { x.2 with peakB := 0 }) }

/-- LEDGER.STATUS (R484). -/
def defLedgerStatus : CommandDef where
  opcode := 0x0D01
  lenOk c := c.len == 0
  run s c :=
    { state := clearPeaks s c.port
      payload := le 8 s.now ++
        le 1 (flag (s.rails.any fun x => x.2.state != 0) + 2 * flag (s.product == .eb)) ++ le 1 10 ++ zeros 6 ++
        allRails.flatMap (railRecord s c.port) }

def execLedgerStatus (ch : Fin 32) (s : State) : Result := .next (runCommand defLedgerStatus ch s)

/-- Set the ten soft ceilings of LEDGER.CEILING (R485). -/
def setSoft (s : State) (c : Cmd) : List Nat → State
  | [] => s
  | r :: t => setSoft (setRail s r { getRail s r with soft := u16 c.p (2 * r), softIgnored := false }) c t

/-- R485: a SOFT value below 1.05 × W of its rail completes NO_CURRENT; it must lower the ceiling in force to be refused
(log entry 8). -/
def softNack (s : State) (c : Cmd) : Option Nack :=
  firstOf (allRails.map fun r =>
    let v := u16 c.p (2 * r)
    if v ≠ 0 ∧ v < ceiling s r ∧ v * 100000000 * 10000 < margined s r then
      some { status := stNO_CURRENT, rail := r, shortfall := toMa (margined s r - v * 100000000 * 10000) }
    else none)

/-- LEDGER.CEILING (R461, R485): takes effect at admission. -/
def defLedgerCeiling : CommandDef where
  opcode := 0x0D02
  flags := flagsChange
  lenOk c := c.len == 24
  check s c :=
    firstOf [firstOf (allRails.map fun r => need (decide (u16 c.p (2 * r) ≤ hardCeiling s r)) (badArg (2 * r))),
             need (zeroAt c.p 20 4) (badArg 20)]
  admission s c := softNack s c
  run s c := { state := commit (setSoft s c allRails) c 0xFFFF, effect := some s.now }

def execLedgerCeiling (ch : Fin 32) (s : State) : Result := .next (runCommand defLedgerCeiling ch s)

/-- The ten signed entries of a delta. -/
def deltaBytes (l : List Int) : Bytes := allRails.flatMap fun r => leInt 4 (l.getD r 0)

/-- LEDGER.DELTA (R485). -/
def defLedgerDelta : CommandDef where
  opcode := 0x0D03
  lenOk c := c.len == 8
  check s c :=
    let g := u64 c.p 0
    firstOf
      [need (decide (g ≤ s.fm.gen) && decide (s.fm.bootGen ≤ g)) (badArg 0),
       need (decide (s.fm.deltas.length < 4096) ||
          (match s.fm.deltas with
            | d :: _ => decide (d.gen ≤ g)
            | [] => true)) (badArg 0)]
  run s c :=
    let g := u64 c.p 0
    match s.fm.deltas.find? fun d => d.gen == g with
    | some d =>
      readDone s (le 8 g ++ le 1 (flag d.isSettled) ++ zeros 7 ++ deltaBytes d.admission ++ deltaBytes (settledMa d))
    | none => readDone s (le 8 g ++ le 1 (flag (findChange s g).isNone) ++ zeros 7 ++ zeros 80)

def execLedgerDelta (ch : Fin 32) (s : State) : Result := .next (runCommand defLedgerDelta ch s)

end Sys2Proof.Machine
end

