-- ==== Sys2Proof/Machine/Timing.lean ====
section
/-! DEFINITION. When a change takes effect (R83-R86, R214, R287, R290): the latch and switching lines, predicted latch
instants, the frame a target names on each destination, and queueing a change with its shadow entries. -/

namespace Sys2Proof.Machine

def ms : Nat := 1000000

/-- Lines from L_n to the start of frame n (R287): total lines less the latch line, and one. -/
def latchLead (f : Bytes) : Nat :=
  match fmtHeight f with
  | 486 => 1
  | 576 => 3
  | 720 => 6
  | 1080 => if fmtScan f = 0 then 5 else 3
  | _ => 9

/-- Lines from L_n to the EAV of the switching line of frame n (R287). -/
def switchLead (f : Bytes) : Nat :=
  match fmtHeight f with
  | 486 => 10
  | 576 => 8
  | 720 => 12
  | 1080 => if fmtScan f = 0 then 11 else 9
  | _ => 22

/-- The latch line (R287) and the switching line (R214) of a raster. -/
def latchLine (f : Bytes) : Nat := totalLines f + 1 - latchLead f
def switchLine (f : Bytes) : Nat := switchLead f + 1 - latchLead f

/-- `n` lines, and `n` frames, in nanoseconds, rounded down. -/
def linesNs (f : Bytes) (n : Nat) : Nat := n * 1000000000 * fpsDen f / (fpsNum f * totalLines f)
def framesNs (f : Bytes) (n : Nat) : Nat := n * 1000000000 * fpsDen f / fpsNum f

/-- The drive output an Ashlar runs on: the one in force while it is enabled, else the one committed. -/
def driveOf (s : State) (k : Nat) : Nat :=
  let a := getAshlar s k
  if a.enabled then acDrive a.config else acDrive a.committed

/-- The destination whose generator times `d`: of an Ashlar output its drive output (R306), of a gang its first output. -/
def timingOf (s : State) (d : Nat) : Nat :=
  if isAshlarObj d then driveOf s (d - 0xC0) else if isTimed d then gangOf s d else d

/-- The output whose frames time `d`. -/
def timer (s : State) (d : Nat) : Output := getOutput s (timingOf s d)

/-- Format in force of a destination's raster. -/
def rasterOf (s : State) (d : Nat) : Bytes :=
  if isTie d then destFormat s d
  else if (timer s d).config.isEmpty then ocFormat (timer s d).committed else ocFormat (timer s d).config

/-- The canvas of an Ashlar as it is in force (R306). -/
def canvasNow (s : State) (k : Nat) : Bytes := rasterOf s (0xC0 + k)

/-- Whether latch instants can be predicted: the generator runs. -/
def timed (s : State) (d : Nat) : Bool := (timer s d).state != .off && isTimed (timingOf s d)

/-- The next frame a destination latches; an OFF output's first latch is of the frame after its first (R299). -/
def nextLatched (s : State) (d : Nat) : Nat :=
  if (timer s d).state = .off ∧ isTimed (timingOf s d) then (timer s d).frame + 1 else (timer s d).latched

/-- The first frame whose latch instant falls at or after `t` (R290). -/
def firstFrame (s : State) (d t : Nat) : Nat :=
  let o := timer s d
  let f := rasterOf s d
  if !timed s d || t ≤ o.nextLatch then nextLatched s d
  else o.latched + ceilDiv ((t - o.nextLatch) * fpsNum f) (1000000000 * fpsDen f)

/-- Predicted latch instant of frame `n`. -/
def latchTime (s : State) (d n : Nat) : Nat :=
  let o := timer s d
  if n < o.latched then o.nextLatch - framesNs (rasterOf s d) (o.latched - n)
  else o.nextLatch + framesNs (rasterOf s d) (n - o.latched)

/-- An admitted command's target, resolved (R290): whether it had passed, whether it is armed (a GPI target waits for
its edge), and the instant its latch instants must reach. -/
structure When where
  late : Bool
  armed : Bool
  time : Nat
  frame : Option Nat := none

/-- Resolve a target on an anchor (R83, R85, R290). -/
def resolve (s : State) (anchor kind target : Nat) : When :=
  let soon := s.now + ms
  match kind with
  | 0 => { late := false, armed := true, time := soon }
  | 1 =>
    if target < nextLatched s anchor ∨ (timed s anchor ∧ latchTime s anchor target < soon) then
      { late := true, armed := true, time := soon }
    else { late := false, armed := true, time := if timed s anchor then latchTime s anchor target else soon, frame := some target }
  | 2 => { late := decide (target < soon), armed := true, time := max target soon }
  | _ => { late := false, armed := false, time := 0 }

/-- The frame in which destination `d` takes a change whose anchor is `anchor`. -/
def frameFor (s : State) (w : When) (anchor d : Nat) : Nat :=
  match w.frame with
  | some n => if d = anchor ∨ timingOf s d = timingOf s anchor then n else firstFrame s d w.time
  | none => firstFrame s d w.time

/-- Checks of a target (R83, R84): GPI reserved bits, and 24 hours ahead at most; field 16 is TARGET. -/
def targetNack (s : State) (c : Cmd) (anchor : Nat) : Option Nack :=
  let day := 86400000000000
  let bad : Nack := { status := stBAD_ARGUMENT, field := 16 }
  match c.kind with
  | 1 => need (!(timed s anchor) || decide (latchTime s anchor c.target ≤ s.now + day)) bad
  | 2 => need (decide (c.target ≤ s.now + day)) bad
  | 3 => need (decide (c.target < 512) && bits c.target 7 6 == 0) bad
  | _ => none

/-- The `timing` of a targeted command. -/
def targetTiming (s : State) (c : Cmd) (anchor : Nat) : Timing :=
  if (resolve s anchor c.kind c.target).late then .late else .onTime

/-- EFFECT at admission (R86): a frame number for NEXT and FRAME, device time for PTP, none for GPI. -/
def scheduledEffect (s : State) (c : Cmd) (anchor frame : Nat) : Option Nat :=
  match c.kind with
  | 2 => some (if timed s anchor then latchTime s anchor frame else c.target)
  | 3 => none
  | _ => some frame

/-- The object or power domain that stands for a unit in a refusal (R92). -/
def unitObject (u : Nat) : Nat := if u < 0x10000 then u else if u < 0x30000 then 0xFFFF else u - crusherUnit 0 + 0x20

/-- Refusals of the queue (R89, R92): it is full, or a unit's tags are too far apart. -/
def queueNack (s : State) (units : List Nat) : Option Nack :=
  firstOf (need (!queueFull s) { status := stBUSY_DRAIN } :: units.map fun u =>
    need (!tagsBlocked s u) { status := stBUSY_DRAIN, object := unitObject u })

/-- The queued change of an admitted command. -/
def changeOf (s : State) (c : Cmd) (anchor : Nat) (w : When) (units : List Nat) : Change :=
  { gen := s.fm.gen, opcode := c.opcode, channel := c.ch, origin := c.port.num, targetKind := c.kind, target := c.target
    seq := c.seq, anchor := anchor, remaining := units, armed := w.armed, late := w.late }

/-- The response of a command whose change is queued (R86). -/
def queuedDone (s : State) (c : Cmd) (w : When) (eff : Option Nat) : Done :=
  if c.await then { state := s, status := if w.late then stLATE else stOK, wait := some (.change s.fm.gen) }
  else { state := s, status := if w.late then stLATE else stQUEUED, effect := eff }

/-- Put one shadow entry of generation `s.fm.gen` on unit `u`, shown by frame `frame` (R290). -/
def shadowFor (s : State) (u : Nat) (body : ShadowBody) (w : When) (frame : Nat) (fences : List Notify := []) : State :=
  addShadow s { gen := s.fm.gen, unit := u, body := body, targetKind := kindFrame, target := frame, fences := fences
                armed := w.armed, late := w.late }

/-- An automatic change of the Foreman in the queue (R36, R210): origin Foreman. -/
def autoChange (s : State) (unit : Nat) : State :=
  enqueue s { gen := s.fm.gen, origin := originForeman, anchor := unit, remaining := [unit] }

/-- Count LATE_APPLIED on the outputs of a late command (R290). -/
def countLate (s : State) (d : Nat) (late : Bool) : State :=
  if late && isTimed d then
    let o := getOutput s d
    setOutput s d { o with counts := { o.counts with lateApplied := satInc 32 o.counts.lateApplied } }
  else s

/-- Count NOT_APPLIED on the anchor of a STRICT command whose target had passed (R290). -/
def countMissed (s : State) (d : Nat) : State :=
  if isTimed d then
    let o := getOutput s d
    setOutput s d { o with counts := { o.counts with notApplied := satInc 32 o.counts.notApplied } }
  else s

/-! ### Domains and what needs them (R477) -/

/-- Whether a lane group has an enabled lane (R32). -/
def groupNeeded (s : State) (g : Nat) : Bool :=
  (List.range 8).any fun i =>
    (rxLanesOn s).contains (8 * g + i) || sdiLaneOn s (8 * g + i) || (getLane s (0x100 + 8 * g + i)).prbs.on

/-- Whether AUTO needs a domain (R477). -/
def domainNeeded (s : State) (d : Nat) : Bool :=
  if d < 0x20 then groupNeeded s (d - 0x10)
  else if d < 0x40 then !(contextsOn s (d - 0x20)).isEmpty || (getCrusher s (d - 0x20)).spare
  else if d < 0x48 then ashlarOn s (d - 0x40)
  else if d < 0x4C then netLaneOn s (d - 0x48) ||
    s.lanes.any fun p => (laneSet p.1 == 2 || laneSet p.1 == 3) && p.2.prbs.on && laneIndex p.1 / 4 == d - 0x48
  else if d < 0x4E then decide (servedIn s (d - 0x4C) ≠ 0)
  else aditOn s || s.lanes.any fun p => decide (4 ≤ laneSet p.1) && p.2.prbs.on

/-- Domains that begin power-down 10 s after they stop being needed (R477). -/
def delayed (d : Nat) : Bool := (decide (0x20 ≤ d) && decide (d < 0x40)) || d == 0x4C || d == 0x4D

/-- After an admission: a domain that is needed is powered; one in AUTO that is not needed begins its power-down, or the
delay before it (R477). -/
def settleDomain (s : State) (d : Nat) : State :=
  if domainNeeded s d then needDomain s d
  else
    let x := getDomain s d
    if x.mode ≠ 0 ∨ x.state = .off then s
    else if delayed d then setDomain s d { x with idle := true }
    else closeDomain s d

/-- Release the lane group of a lane that has gone off. -/
def releaseGroup (s : State) (g : Nat) : State := settleDomain s (0x10 + g)

/-- Settle every domain the product has and the state lists, or that is needed. -/
def settleDomains (s : State) (ds : List Nat) : State := ds.foldl settleDomain s

/-- Refusal of an admission that needs a FORCED_OFF domain (R480). -/
def domainsNack (s : State) (ds : List Nat) : Option Nack := firstOf (ds.map (forcedOffNack s))

end Sys2Proof.Machine
end

