-- ==== Sys2Proof/Machine/Lanes.lean ====
section
/-! DEFINITION. Serial lanes (04): what a lane is used for, and its transitions. The LANE commands and the lane events
follow in LaneCmds. -/

namespace Sys2Proof.Machine

/-- Saturating counters of a lane on leaving LOCKED (R107). -/
def countLockLoss (l : Lane) : Lane :=
  if l.state = .locked then { l with lockLosses := satInc 32 l.lockLosses } else l

/-- A lane leaves for DARK, or starts acquiring afresh: its lock is gone, and so is the checker's sync, which no event reports
(DESIGN CHOICE, log entry 112). -/
def laneTo (l : Lane) (st : LaneState) : Lane :=
  { l with
    state := st, cdrLocked := false, adapting := false, tried := [], align := 0
    rate := if st = .acquiring then l.rate else 0
    prbs := { l.prbs with inSync := false } }

/-- Whether a receive lane of an SDI input, a network port or the Adit link is enabled (R103). -/
def rxLaneOn (s : State) (id : Nat) : Bool :=
  (getLane s id).prbs.on ||
  match laneSet id with
  | 0 => inputOn s (laneIndex id)
  | 2 => netLaneOn s (laneIndex id / 4)
  | 4 => aditOn s
  | _ => false

/-- Whether a transmit lane is enabled (R103). -/
def txLaneOn (s : State) (id : Nat) : Bool :=
  (getLane s id).prbs.on ||
  match laneSet id with
  | 1 => sdiLaneOn s (laneIndex id)
  | 3 => netLaneOn s (laneIndex id / 4)
  | 5 => aditOn s
  | _ => false

/-- Bring a receive lane's state in line with its enable (R103, R106): OFF when disabled, DARK when newly enabled. -/
def refreshLane (s : State) (id : Nat) : State :=
  let l := getLane s id
  if rxLaneOn s id then
    if l.state = .off then setLane s id (laneTo l .dark) else s
  else if l.state = .off then s
  else setLane s id (laneTo l .off)

/-- The rate codes a hunting lane tries, in order (R108). The RATE that a LANE.PRBS gave holds while only the checker enables
the lane: it is a passive tap of a lane in use (R125, R128). -/
def huntOrder (s : State) (id : Nat) (l : Lane) : List Nat :=
  if l.cfgRate ≠ 0 then [l.cfgRate]
  else if l.prbs.on ∧ l.prbs.rate ≠ 0 ∧ !inputOn s (laneIndex id) then [l.prbs.rate]
  else if l.lastLocked ≠ 0 then l.lastLocked :: [5, 4, 3, 2, 1].filter (· != l.lastLocked)
  else [5, 4, 3, 2, 1]

/-- The next code to try; a lane that has tried them all starts over. -/
def nextRate (s : State) (id : Nat) (l : Lane) : Nat × List Nat :=
  match (huntOrder s id l).find? fun c => !l.tried.contains c with
  | some c => (c, l.tried ++ [c])
  | none => ((huntOrder s id l).headD 0, [(huntOrder s id l).headD 0])

/-- Start the hunt: the first code of the order, and the equaliser at its reference code 20 (R109, R112). Network and Adit
lanes have one rate, reported as code 0. -/
def startHunt (s : State) (id : Nat) (l : Lane) : Lane :=
  let l := { laneTo l .acquiring with ctleCode := 20 }
  if laneSet id = 0 then
    let n := nextRate s id l
    { l with rate := n.1, tried := n.2 }
  else l

/-- R113: whether the stored code serves for the rate and signature just measured. -/
def recordServes (l : Lane) (sig : BitVec 16) : Bool :=
  match l.record with
  | none => false
  | some r =>
    let near := fun (a b : Nat) => decide (a ≤ b + l.sigTol) && decide (b ≤ a + l.sigTol)
    r.rate == l.rate && near (sig.toNat % 256) (r.signature.toNat % 256) &&
    near (sig.toNat / 256) (r.signature.toNat / 256)

end Sys2Proof.Machine
end

