-- ==== Sys2Proof/Machine/Weighbridge.lean ====
section
/-! DEFINITION. The Weighbridge (05): states, faults, losses, writing lines and closing frames. The INPUT commands and
the source rows follow in Inputs. -/

namespace Sys2Proof.Machine

/-- INPUT_FAULT causes (R165). -/
def cLOSS_DARK : Nat := 1
def cLOSS_CDR : Nat := 2
def cLOSS_TRS : Nat := 3
def cFORMAT : Nat := 4
def cRATE : Nat := 5
def cSHORT_FRAME : Nat := 6
def cLONG_FRAME : Nat := 7
def cSHORT_LINE : Nat := 8
def cLONG_LINE : Nat := 9
def cGANG_SKEW : Nat := 10
def cANC_OVER_QUOTA : Nat := 11
def cFLOW_SILENT : Nat := 12
def cHOST_STALL : Nat := 13
def cPI_LIMIT : Nat := 14

/-- Number of a source state (R164). -/
def sourceNum : SourceState → Nat
  | .absent => 0
  | .locking => 1
  | .locked => 2
  | .formatted => 3
  | .lost => 4

/-- The format a source's frames have: the one adopted under FOLLOW, else the contract's (R139-R141). -/
def sourceFormat (x : Source) : Bytes :=
  match x.contract with
  | none => []
  | some c => if ctFollow c ∧ !x.adopted.isEmpty then x.adopted else ctFormat c

/-- The format INPUT.STATUS and INPUT_STATE report of a source in state `st`: measured, or the contract's for a source
that is no SDI input; zeros below LOCKED (R164). -/
def reportedFormat (i : Nat) (x : Source) (st : SourceState) : Bytes :=
  if st != .locked && st != .formatted then zeros 16
  else sub ((if isSdi i then x.measured else ctFormat (x.contract.getD [])) ++ zeros 16) 0 16

/-- INPUT_STATE, for sources that have input event sources (R165). -/
def inputStateEvent (s : State) (i : Nat) (old new : SourceState) (reason : Nat) : State :=
  if i < 0xC0 then
    let f := reportedFormat i (getSource s i) new
    raise s 0x10 i (le 1 (sourceNum old) ++ le 1 (sourceNum new) ++ le 1 reason ++ le 1 (u8 f 11) ++ sub f 0 8)
  else s

/-- Move a source to a state (R138); leaving FORMATTED for anything but ABSENT starts the loss-hold timer, and reaching
FORMATTED cancels it. -/
def moveSource (s : State) (i : Nat) (goal : SourceState) : State :=
  let x := getSource s i
  let start := x.state == .formatted && goal != .absent && goal != .formatted && !x.lossHoldRunning
  let hold := match x.contract with
    | some c => ctLossHold c
    | none => none
  let x' := { x with
    state := goal, stateSince := s.now
    lossHoldRunning := if goal = .formatted ∨ goal = .absent then false else if start then true else x.lossHoldRunning
    lossHoldEnd := if goal = .formatted ∨ goal = .absent then none
      else if start then hold.map (s.now + ·) else x.lossHoldEnd
    lossHoldExpired := if goal = .formatted then false else x.lossHoldExpired
    contractBreach := if goal = .locked then x.contractBreach else false }
  let old := s
  let s := soundFollows (setSource s i x') i x.state
  inputStateEvent (if goal = .formatted then contractHeals s i else s) i x.state goal 0 |> candChanges old
where
  /-- The channels of an SDI input that leaves FORMATTED are ramped to silence, and resume when it is back (R333, R363). -/
  soundFollows (s : State) (i : Nat) (old : SourceState) : State :=
    if goal = .formatted then (inputChannels s i).foldl rampUp s
    else if old = .formatted then (inputChannels s i).foldl rampDown s
    else s

  /-- A pinned direct route that was held with cause CONTRACT follows its source again (R218). -/
  contractHeals (s : State) (i : Nat) : State :=
    { s with routes := s.routes.map fun p =>
        if reSource p.2.entry = i ∧ p.2.heldCause = 5 then (p.1, { p.2 with heldCause := 0, told := false }) else p }

/-- INPUT_FAULT with a cause, at most once in a frame of the source (R165), with CAUSE set in INPUT.STATUS. -/
def inputFault (s : State) (i cause : Nat) : State :=
  let x := getSource s i
  if x.causes.contains cause then s
  else
    let n := (x.frame.map (·.number)).getD x.lastFrame
    let s := setSource s i { x with cause := cause, causes := cause :: x.causes }
    if i < 0xC0 then raise s 0x11 i (le 1 cause ++ zeros 7 ++ le 8 n) else s

/-- A demotion trigger (R162): counted, FLOW_SILENT among them as every loss (R150, log entry 111), and reported to the Foreman, which decides in CLASS_CHANGE anew for each route of the
source. -/
def demotionTrigger (s : State) (i cause : Nat) : State :=
  let x := getSource s i
  let s := setSource s i { x with counts := { x.counts with demotionTriggers := satInc 32 x.counts.demotionTriggers } }
  { s with
    triggers := s.triggers ++ [(i, cause)]
    routes := s.routes.map fun p => if reSource p.2.entry = i then (p.1, { p.2 with told := false }) else p }

/-! ### Writing a frame -/

/-- A black sample (R146): luma, chroma. -/
def blackY (f : Bytes) : Nat := if fmtRange f = 1 then 0 else if fmtDepth f = 12 then 256 else 64
def blackC (f : Bytes) : Nat := if fmtDepth f = 12 then 2048 else 512

/-- Pack 10-bit samples, three to a word (R172), and take them out again. -/
def pack10 : List Nat → Bytes
  | [] => []
  | [a] => le 4 a
  | [a, b] => le 4 (a + 1024 * b)
  | a :: b :: c :: t => le 4 (a + 1024 * b + 1048576 * c) ++ pack10 t

def unpack10 : Bytes → List Nat
  | a :: b :: c :: d :: t =>
    let v := a.toNat + 256 * b.toNat + 65536 * c.toNat + 16777216 * d.toNat
    v % 1024 :: v / 1024 % 1024 :: v / 1048576 % 1024 :: unpack10 t
  | _ => []

def unpack12 : Bytes → List Nat
  | a :: b :: t => (a.toNat + 256 * b.toNat) % 4096 :: unpack12 t
  | _ => []

/-- Pack a line of codes, filled with zeros to its pitch (R172). -/
def packLine (depth : Nat) (v : List Nat) : Bytes :=
  let b := if depth = 12 then v.flatMap (le 2) else pack10 v
  b ++ zeros (linePitch depth v.length - b.length)

/-- The codes of a packed line. -/
def unpackLine (depth : Nat) (b : Bytes) : List Nat := if depth = 12 then unpack12 b else unpack10 b

/-- Chroma samples of a line. -/
def chromaSamples (f : Bytes) : Nat := if fmtSampling f = 1 then 2 * fmtWidth f else fmtWidth f


/-- Offsets of picture line `n` within a slot's frame area (R171, R173). -/
def lumaOff (f : Bytes) (n : Nat) : Nat := n * lumaPitch f
def chromaOff (f : Bytes) (n : Nat) : Nat :=
  lumaPitch f * fmtHeight f + (if fmtSampling f = 2 then n / 2 else n) * chromaPitch f

/-- The codes of a line fitted to `n` samples (R146, R160): cut there, and black where none came. -/
def fitCodes (depth black : Nat) : Nat → List (Option Nat) → List Nat
  | 0, _ => []
  | n + 1, [] => black :: fitCodes depth black n []
  | n + 1, v :: t => v.getD black % 2 ^ depth :: fitCodes depth black n t

/-- Whether picture line `n` brings a chroma line: every one does, but with 4:2:0 every other (R171). -/
def hasChroma (f : Bytes) (n : Nat) : Bool := fmtSampling f != 2 || n % 2 == 0

/-- Write the packed lines of picture line `n` into a slot. -/
def writePacked (s : State) (k slot : Nat) (f : Bytes) (n : Nat) (luma chroma : Bytes) : State :=
  match getBench s k with
  | none => s
  | some b =>
    let s := slotWrite s b slot (lumaOff f n) luma
    if hasChroma f n then slotWrite s b slot (chromaOff f n) chroma else s

/-- Write picture line `n` of a frame, as its codes came, into its slot. -/
def writeLine (s : State) (k slot : Nat) (f : Bytes) (n : Nat) (luma chroma : List (Option Nat)) : State :=
  writePacked s k slot f n (packLine (fmtDepth f) (fitCodes (fmtDepth f) (blackY f) (fmtWidth f) luma))
    (packLine (fmtDepth f) (fitCodes (fmtDepth f) (blackC f) (chromaSamples f) chroma))

/-- For a source with a change map the line that a slot holds is kept until the frame closes (R157, log entry 110). -/
def keepLine (s : State) (i slot : Nat) (f : Bytes) (n : Nat) : State :=
  let x := getSource s i
  match getBench s (benchKey i false), x.frame with
  | some b, some r =>
    if ctChangeMap (x.contract.getD []) then
      let line := (n, slotRead s b slot (lumaOff f n) (lumaPitch f),
        if hasChroma f n then slotRead s b slot (chromaOff f n) (chromaPitch f) else [])
      setSource s i { x with frame := some { r with kept := line :: r.kept } }
    else s
  | _, _ => s

/-- The picture line of the `k`-th active line of a field (R173): woven for interlaced and PsF. -/
def pictureLine (f : Bytes) (field2 : Bool) (k : Nat) : Nat :=
  if fmtScan f = 0 then k else 2 * k + flag field2

/-- Active lines each field has to bring; a progressive frame has all in the first. -/
def fieldLines (f : Bytes) : Nat := if fmtScan f = 0 then fmtHeight f else fmtHeight f / 2

/-- Whether every active line of the frame has been received (R144, R160). -/
def frameWhole (f : Bytes) (x : FrameIn) : Bool :=
  x.missing.isEmpty && decide (fieldLines f ≤ x.field1) && (fmtScan f == 0 || decide (fieldLines f ≤ x.field2))

/-- The rows of a frame that never came, in line order. -/
def absentRows (f : Bytes) (x : FrameIn) : List (Bool × Nat) :=
  let tail := fun (field2 : Bool) (n : Nat) =>
    (x.missing.filter fun p => p.1 == field2) ++ (List.range (fieldLines f - n)).map fun k => (field2, n + k)
  tail false x.field1 ++ if fmtScan f = 0 then [] else tail true x.field2

/-- Pad the rows that never came with black (R144 PAD). -/
def padRows (s : State) (i slot : Nat) (f : Bytes) (rows : List (Bool × Nat)) : State :=
  rows.foldl (fun s p =>
    writeLine (keepLine s i slot f (pictureLine f p.1 p.2)) (benchKey i false) slot f (pictureLine f p.1 p.2) [] []) s

/-- Start a frame (R181): its number is used; the writer takes a slot into LANDING, or the write is skipped. -/
def startFrame (s : State) (i : Nat) : State :=
  let k := benchKey i false
  let n := nextFrame s k
  let s := useFrame s k
  let s := setSource s i { getSource s i with frameStart := s.now }
  let x := getSource s i
  match getBench s k with
  | none => setSource s i { x with frame := some { number := n } }
  | some b =>
    match chooseSlot b with
    | some j =>
      setSource (landSlot s k j n (sourceFormat x)) i { x with frame := some { number := n, slot := some j } }
    | none =>
      skipWrite (setSource s i { x with frame := some { number := n } }) k n

/-- Active lines of a receive tie line's frame that never came are counted in LINES_LOST. -/
def countLost (s : State) (i : Nat) (f : FrameIn) : State :=
  if !isTie i then s
  else
    let fmt := sourceFormat (getSource s i)
    let n := (fieldLines fmt - f.field1) + (if fmtScan fmt = 0 then 0 else fieldLines fmt - f.field2)
    let k := tieRecvKey (i - 0x100)
    setTie s k { getTie s k with linesLost := satAdd 32 (getTie s k).linesLost n }

/-- Close the frame being received (R143): its slot COMPLETE or INCOMPLETE, the counters, and the timecode of the frame
(R155). A frame whose write was skipped counts as incomplete (R181). -/
def closeFrame (s : State) (i : Nat) (ok padded : Bool) : State :=
  let x := getSource s i
  match x.frame with
  | none => s
  | some f =>
    let s := countLost s i f
    let k := benchKey i false
    let tc := f.timecode.getD 0x8000000000000000
    let s := match f.slot with
      | none => s
      | some j => closeSlot s k j ok fun v =>
          { v with tcValid := f.timecode.isSome, timecode := tc, padded := padded, ancBytes := f.ancBytes
                   payloadId := x.payloadId, proxyValid := ok && ctProxy (x.contract.getD [])
                   mapValid := ok && ctChangeMap (x.contract.getD []) }
    let good := ok && f.slot.isSome
    let c := x.counts
    setSource s i { x with
      frame := none, lastFrame := f.number, timecode := tc
      blackNow := if good then false else x.blackNow
      counts := if good then { c with framesComplete := c.framesComplete + 1 }
        else { c with framesIncomplete := c.framesIncomplete + 1 } }

/-- A loss (R149, R150): a FORMATTED source closes its frame INCOMPLETE, counts the loss and goes to LOST with the fault
and the demotion trigger. A LOCKED one whose lane acquires anew is LOCKING again; one that was LOCKING or LOCKED and whose
signal is gone goes to LOST while the loss-hold runs and to ABSENT otherwise, and counts nothing; so does a LOST one whose
loss-hold has expired (R137, R138). -/
def signalLost (s : State) (i cause : Nat) : State :=
  let x := getSource s i
  match x.state with
  | .formatted =>
    let s := closeFrame s i false false
    let x := getSource s i
    let s := setSource s i { x with counts := { x.counts with losses := satInc 32 x.counts.losses } }
    demotionTrigger (inputFault (moveSource s i .lost) i cause) i cause
  | .locked => if cause = cLOSS_CDR then moveSource s i .locking else moveSource s i (if x.lossHoldRunning then .lost else .absent)
  | .locking => if cause = cLOSS_CDR then s else moveSource s i (if x.lossHoldRunning then .lost else .absent)
  | .lost => if cause = cLOSS_CDR ∨ x.lossHoldRunning then s else moveSource s i .absent
  | _ => s

/-- A signal or packets return to an enabled source (R138). -/
def sourceLocking (s : State) (i : Nat) : State :=
  let x := getSource s i
  if !x.enabled then s
  else
    match x.state with
    | .absent => moveSource s i .locking
    | .lost => moveSource s i .locking
    | .locked => moveSource s i .locking
    | _ => s

/-- RATE of a raster with two fields or segments, for the SCAN it is read with: fields per second interlaced (codes 6 to 10),
frames per second PsF (codes 1 to 5), since a PsF frame has the line timing of the interlaced raster at twice its RATE (R132). -/
def scanRate (scan rate : Nat) : Nat :=
  if scan = 2 ∧ 6 ≤ rate ∧ rate ≤ 10 then rate - 5
  else if scan = 1 ∧ 1 ≤ rate ∧ rate ≤ 5 then rate + 5
  else rate

/-- The descriptor a frame start measured, with what ST 352 alone tells, PsF or interlaced, taken from it or the contract
with the RATE that goes with it, and COLOUR, TRANSFER and RANGE from the contract (R139). -/
def measuredFormat (c : Bytes) (m : FrameFacts) : Bytes :=
  let f := ctFormat c
  let told := if fmtScan f = 0 then 1 else fmtScan f
  let scan := if u8 m.measured 5 = 0 then 0 else (m.pidScan.filter (· ≠ 0)).getD told
  sub m.measured 0 4 ++ le 1 (scanRate scan (u8 m.measured 4)) ++ le 1 scan ++ sub m.measured 6 2 ++ sub f 8 3 ++
    sub m.measured 11 1 ++ zeros 4

/-- R139, R141: whether a measured format is within the contract. -/
def withinContract (c f : Bytes) : Bool :=
  if ctFollow c then sdiFormat f && withinCeiling f (ctFormat c) else f == ctFormat c

/-- Whether a contract change takes the bench to a new layout: FORMAT or the slot pitch differs (R199). -/
def relayouts (old new : Bytes) : Bool :=
  ctFormat old != ctFormat new || ctPitch old != ctPitch new

/-- The format a source keeps as adopted under a new contract (R141): a FORMATTED source's own, COLOUR, TRANSFER and RANGE
being the contract's (R139), where FOLLOW admits it. -/
def keptFormat (x : Source) (c : Bytes) : Bytes :=
  let f := sourceFormat x
  let g := sub f 0 8 ++ sub (ctFormat c) 8 3 ++ sub f 11 5
  if ctFollow c ∧ x.state = .formatted ∧ withinContract c g then g else []

/-- A pending contract comes into force (R136): the bench changes, FOLLOW restarts, the lanes follow the source's LINK (R134),
and waiting commands complete unless a shrink still runs. -/
def contractTakes (s : State) (i : Nat) : State :=
  let x := getSource s i
  match x.pendingContract with
  | none => s
  | some c =>
    let old := x.contract.getD c
    let s := changeBench s (benchKey i false) (contractLayout c) (relayouts old c)
    let lanes := fun (s : State) => if isSdi i then lanesOf s i else []
    let before := lanes s
    let s := setSource s i { getSource s i with
      contract := some c, pendingContract := none, follow := none, followCount := 0, adopted := keptFormat x c }
    boundaryPassed ((before ++ lanes s).eraseDups.foldl refreshLane s) i

/-- A host source whose LANDING slot a change or a disable closes INCOMPLETE (R136, R164). -/
def closeLanding (s : State) (i : Nat) : State :=
  if !isHostSource i then s
  else
    match (getBench s (benchKey i false)).bind landingSlot with
    | some j => closeHostSlot s i j false
    | none => s

/-- A pending disable comes into force (R164): ABSENT, the bench ends, its lanes go off and its group may power down. -/
def disableTakes (s : State) (i : Nat) : State :=
  let x := getSource s i
  if !x.pendingDisable then s
  else
    let s := closeLanding (closeFrame s i false false) i
    let s := moveSource s i .absent
    let lanes := if isSdi i then lanesOf s i else []
    let s := setSource s i { getSource s i with enabled := false, pendingDisable := false, lossHoldRunning := false }
    let s := endBench s (benchKey i false)
    let s := lanes.foldl refreshLane s
    let s := lanes.foldl (fun s n => releaseGroup s (n / 8)) s
    boundaryPassed s i

/-- A receive tie line takes its new allocation with its source's contract (R457). -/
def tieBoundary (s : State) (i : Nat) : State :=
  if !isTie i then s
  else
    let k := tieRecvKey (i - 0x100)
    match (getTie s k).pending with
    | some c => setTie s k { getTie s k with config := c, pending := none }
    | none => s

/-- Pending changes of a source take effect at its frame boundary. -/
def boundaryTakes (s : State) (i : Nat) : State := disableTakes (contractTakes (tieBoundary s i) i) i

/-- A loss of the source's signal; a change that waited for a frame boundary then waits no longer (R94, R136). -/
def loseSource (s : State) (i cause : Nat) : State :=
  let s := signalLost s i cause
  if (getSource s i).state = .lost ∨ (getSource s i).state = .absent then boundaryTakes s i else s

end Sys2Proof.Machine
end

