-- ==== Sys2Proof/Machine/Routing.lean ====
section
/-! DEFINITION. Routes (07): the class of a route (R206), its checks (R205, R208, R262), placing conversions (R239),
admitting a list of entries as one change (R223, R224), and a change taking effect (R215, R224, R229). -/

namespace Sys2Proof.Machine

/-! ### Timing of source and destination (R211, R216, R249) -/

/-- Number and start of the frame a source's writer started last. -/
def frameClock (s : State) (src : Nat) : Nat × Nat :=
  if isAshlarObj src then
    let canvas := canvasOf s (src - 0xC0)
    match (getBench s (benchKey src false)).bind fun b => (b.slot.getLast?.map fun _ => b) with
    | some b =>
      let n := maxOf (b.slot.map fun p => p.2.frame)
      (n, ((slotOfFrame b n).map fun j => (getSlot b j).start).getD s.now + linesNs canvas (latchLead canvas))
    | none => (0, s.now)
  else
    let x := getSource s src
    ((match x.frame with
      | some f => f.number
      | none => x.lastFrame), x.frameStart)

/-- A source without a line timing that was measured: a pattern generator, or a source of which no frame has started. Its
phase is a free value (log entry 57). -/
def untimed (s : State) (src : Nat) : Bool := !isAshlarObj src && (isPattern src || (getSource s src).frameStart == 0)

/-- Instant of a source's switching line in its last frame, and of a destination's next switch instant. -/
def sourceSwitch (s : State) (src : Nat) : Nat :=
  (frameClock s src).2 + linesNs (routeFormat s src) (switchLine (routeFormat s src) - 1)

def destSwitch (s : State) (d : Nat) : Nat := (timer s d).nextLatch + linesNs (rasterOf s d) (switchLead (rasterOf s d))

/-- R216: within ±2 µs, one frame period counting as none. A tie-line send without timing of its own is timed by its
source (R283). -/
def coTimed (s : State) (src d : Nat) : Bool :=
  let tf := frameNs (routeFormat s src)
  if isTie d then true
  else if tf = 0 ∨ !timed s d then false
  else
    let gap := (destSwitch s d + tf - sourceSwitch s src % tf) % tf
    decide (gap ≤ 2000) || decide (tf ≤ gap + 2000)

/-- Class in force as ROUTE.GET and OUTPUT.STATUS report it: none while SHED (DEDUCED, log entry 58). -/
def shownClass (r : Route) : Nat := if r.state = .shed then 0 else r.cls

/-- Phase behind an engine's alignment points at which an output carries a source directly: the source's timing, and the
1.9 µs of a direct route, so that its TRS goes on without a step (R17, R211, R391). -/
def phaseOf (s : State) (engine src : Nat) : Nat :=
  let f := routeFormat s src
  let t : Int := ((frameClock s src).2 : Int) + 1900 + (getRef s engine).offset - (getRef s engine).shown
  if frameNs f = 0 then 0 else (t % (frameNs f : Int)).toNat

/-- P of R18: the output's frame start behind the source's, reduced into its window. -/
def syncPhase (s : State) (src d : Nat) : Nat :=
  let f := rasterOf s d
  let tf := frameNs f
  let low := lineNs f + 2000
  if tf = 0 then 0
  else if untimed s src then low + (Config.freeLong s.free).toNat % tf
  else
    let gap := ((timer s d).nextLatch + linesNs f (latchLead f) + tf - (frameClock s src).2 % tf) % tf
    if gap < low then gap + tf else gap

/-- T_tail of R249. -/
def tailNs (s : State) (src d : Nat) (e : Bytes) : Nat :=
  let f := contextSource s src
  let g := destFormat s d
  let lines := if fmtHeight g < fmtHeight f then reTaps e * lineNs f * fmtHeight f / (2 * fmtHeight g) else reTaps e * lineNs f / 2
  lines + 100000 + (if motionUnit f g (reFrc e) then 300000 else 0)

/-- LATENESS of an IP source's flow, in nanoseconds (R424, R425). -/
def latenessNs (s : State) (src : Nat) : Nat :=
  if isIp src then
    let c := (getFlow s (flowKey 0 0 (src - 0x80))).config
    1000 * (if u32 c 40 ≠ 0 then u32 c 40 else if u8 c 4 = 2 then 2000 else 1000)
  else 0

/-- P_c of R249 for the next frame: from the latest choice of a source frame to L_n. -/
def choiceGap (s : State) (src d : Nat) (e : Bytes) : Nat :=
  let f := contextSource s src
  let tf := frameNs f
  if untimed s src then (Config.freeLong s.free).toNat % tf
  else ((timer s d).nextLatch + tf - ((frameClock s src).2 + linesNs f (latchLine f) + tailNs s src d e) % tf) % tf

/-- The steps that P_c takes along the cadence of two frame rates before it repeats: the denominator of TF_d / TF_s. -/
def cadenceSteps (f g : Bytes) : Nat := fpsDen f * fpsNum g / Nat.gcd (fpsNum f * fpsDen g) (fpsDen f * fpsNum g)

/-- P_c of R249. Where the frame rates differ it is the mean along the cadence, on which P_c takes places TF_s / q apart. -/
def convPhase (s : State) (src d : Nat) (e : Bytes) : Nat :=
  let f := contextSource s src
  let tf := frameNs f
  let q := cadenceSteps f (destFormat s d)
  if tf = 0 ∨ q = 0 then 0 else choiceGap s src d e % (tf / q) + tf * (q - 1) / (2 * q)

/-- D of R249; of a host frame source T_tail and P_c are taken as 0 (R601). -/
def conversionNs (s : State) (src d : Nat) (e : Bytes) : Nat :=
  let f := contextSource s src
  let n := reDelay e + (if ratesDiffer f (destFormat s d) && reFrc e != 0 then 2 else 1)
  let base := framesNs f n + (if deinterlaces f (destFormat s d) then frameNs f / 2 else 0)
  if isHostSource src then base else base + tailNs s src d e + convPhase s src d e

/-- LATENCY_NS of a route in force (R17, R18, R21, R249, R308, R309, R425, R601). -/
def routeLatency (s : State) (d : Nat) (e : Bytes) (cls : Nat) : Nat :=
  let src := reSource e
  let g := rasterOf s d
  if isAshlarObj d ∨ fedByAshlar s src d then 0
  else
    latenessNs s src +
      match cls with
      | 1 => 1900
      | 2 =>
        if isHostSource src then framesNs g (reDelay e) + linesNs g (latchLead g)
        else framesNs g (reDelay e) + syncPhase s src d
      | 3 =>
        conversionNs s src d e
      | _ => 0

/-! ### The class of a route (R206) -/

/-- Measured rate of a source against the oscillator, in 0.01 ppm: an SDI input's lane, or the tie line (R16, R118). -/
def rawPpm (s : State) (src : Nat) : Int := if isSdi src then (getLane s src).ppm else (getSource s src).ratePpm

/-- R16: what a direct route needs of its ends; colour encoding is read as COLOUR, TRANSFER and RANGE (DEDUCED, log
entry 13). -/
def directEnds (s : State) (src d : Nat) : Bool :=
  let f := routeFormat s src
  let g := destFormat s d
  (isSdi src || isTie src) && (isSdi d || isTie d) && !f.isEmpty &&
  sub f 0 11 == sub g 0 11 &&
  decide (-30000 ≤ rawPpm s src) && decide (rawPpm s src ≤ 30000)

/-- Direct conditions but the co-timing one. -/
def directButTiming (s : State) (e : Bytes) : Bool :=
  let x := getSource s (reSource e)
  directEnds s (reSource e) (reDest e) && reDelay e == 0 && !reStable e && x.state == .formatted && !x.rateBreach &&
  !x.contractBreach

/-- The synchronised condition: equal formats but for LINK, which must be equal between SDI ends. -/
def syncEnds (s : State) (src d : Nat) : Bool :=
  let f := routeFormat s src
  let g := destFormat s d
  !f.isEmpty && sub f 0 11 == sub g 0 11 && (!(isSdi src && isSdi d) || fmtLink f == fmtLink g)

/-- Sources a picture layer could name on Ashlar `k` (R309, R314): any with a bench but its own writeback. -/
def layerNameable (k src : Nat) : Bool := src != 0xC0 + k

/-- The class an entry takes at a commit: that of its pin, or the first whose conditions hold (R206, R217). -/
def chooseClass (s : State) (e : Bytes) : Nat :=
  let d := reDest e
  if isAshlarObj d then 2
  else if reClass e ≠ 0 then reClass e
  else if fedByAshlar s (reSource e) d then 2
  else if directButTiming s e && (coTimed s (reSource e) d || (reJoin e && (getRoute s d).cls == 1)) then 1
  else if syncEnds s (reSource e) d then 2
  else 3

/-- Bank a profile names, and its tap count (R260, R262); 0 where the route's TAPS choose. -/
def profileBytes (s : State) (p : Nat) : Bytes := Tab.get s.profiles p []
def bankTaps (s : State) (bank : Nat) : Nat :=
  match bank with
  | 0 => 0
  | 0x80 => 4
  | 0x81 => 8
  | 0x82 => 12
  | b => (Tab.get s.tables (0x200 + b) { taps := 0, data := [] }).taps

/-- Whether the bank of an entry's profile has the entry's TAPS (R262). -/
def tapsSuit (s : State) (e : Bytes) : Bool :=
  let bank := bankTaps s (u8 (profileBytes s (reProfile e)) 6)
  reProfile e == 0 || bank == 0 || bank == reTaps e

/-- FORMAT_MISMATCH of one entry (R206, R116, R262, R309, R449). -/
def formatNack (s : State) (item : Nat) (e : Bytes) : Option Nack :=
  let d := reDest e
  let bad : Nack := { status := stFORMAT_MISMATCH, item := item, object := d }
  if reRemoves e then none
  else if isAshlarObj d then
    need ((reClass e == 0 || reClass e == 2) && layerNameable (d - 0xC0) (reSource e)) bad
  else
    let cls := chooseClass s e
    let holds := match cls with
      | 1 => directButTiming s e
      | 2 => syncEnds s (reSource e) d || fedByAshlar s (reSource e) d
      | _ => !isTie d && !(contextSource s (reSource e)).isEmpty
    let family := !isSdi d || (getGroup s (d / 8)).family == fmtFamily (destFormat s d)
    need (holds && family && (cls != 3 || tapsSuit s e)) bad

/-! ### Checks of an entry (R205) -/

/-- The first bad field of an entry that is not a removal, as its offset. -/
def entryBadField (s : State) (e : Bytes) : Option Nat :=
  let d := reDest e
  let enabled := if isAshlarObj d then ashlarOn s (d - 0xC0) else if isTie d then tcEnable (getTie s (d - 0x100)).config
    else outputOn s d
  let src := reSource e
  if !validDest s.product d || gangTail s d then some 0
  else if !enabled then some 0
  else if !validSource s.product src then some 2
  else if isSdi src && sourceOfLane s src != src then some 2
  else if 3 < reClass e then some 4
  else if 15 < reDelay e then some 5
  else if 1 < u8 e 6 ∨ (reStable e ∧ reDelay e = 0) then some 6
  else if 2 < reFrc e then some 7
  else if !([0, 4, 8, 12].contains (u8 e 8)) then some 8
  else if 2 < reEnergy e then some 9
  else if 2 < reTally e then some 11
  else if 7 < u8 e 12 then some 12
  else if 20 < u8 e 13 ∧ u8 e 13 ≠ 255 then some 13
  else if 255 < reProfile e ∨ (reProfile e ≠ 0 ∧ !Tab.has s.profiles (reProfile e)) then some 14
  else if !zeroAt e 16 16 then some 16
  else none

/-- BAD_ARGUMENT of an entry at payload offset `base` (R205). -/
def entryNack (s : State) (item base : Nat) (e : Bytes) : Option Nack :=
  if reSource e = 0xFFFF then
    firstOf [need (validDest s.product (reDest e) && !gangTail s (reDest e)) (badItem item base),
             need (zeroAt e 16 16) (badItem item (base + 16))]
  else
    match entryBadField s e with
    | some o => some (badItem item (base + o))
    | none => none

/-! ### Slots a source bench needs (R208, R238) -/

/-- Slots one claimed route needs of its source's bench. -/
def slotsNeeded (s : State) (d : Nat) (e : Bytes) (cls : Nat) : Nat :=
  if isAshlarObj d then 3
  else if cls = 3 ∧ interpolating (contextSource s (reSource e)) (destFormat s d) (reFrc e) then reDelay e + 4
  else if cls = 1 then 3
  else reDelay e + 3

/-- Slots of a source's bench as its contract, or the writeback, sets them. -/
def sourceSlots (s : State) (src : Nat) : Option Nat :=
  if isPattern src then none
  else if isAshlarObj src then if ashlarOn s (src - 0xC0) then some (acSlots (getAshlar s (src - 0xC0)).committed) else none
  else
    match (getSource s src).pendingContract, (getSource s src).contract with
    | some c, _ => some (ctSlots c)
    | none, some c => some (ctSlots c)
    | none, none => none

/-- ROUTED of one entry (R208). -/
def slotsNack (s : State) (item : Nat) (e : Bytes) : Option Nack :=
  if reRemoves e then none
  else
    match sourceSlots s (reSource e) with
    | none => none
    | some n =>
      need (decide (slotsNeeded s (reDest e) e (chooseClass s e) ≤ n))
        { status := stROUTED, item := item, object := reSource e }

/-! ### Placement (R239-R243) -/

/-- Current an engine would draw with its contexts, both rails together, in mA (R236). -/
def engineCost (s : State) (k : Nat) : Nat :=
  if !(contextsOn s k).isEmpty then (if engineMotion s k then 1125 else 595)
  else if powered s (0x20 + k) then 55 else 0

/-- Whether an engine holds its contexts within its capacity (R234). -/
def engineFits (s : State) (k : Nat) : Bool :=
  let l := engineLoad s k
  decide ((contextsOn s k).length ≤ 4) && decide (l.1 ≤ outCapacity s k) && decide (l.2 ≤ inCapacity s k)

/-- Whether an engine is in service and may be powered. -/
def inService (s : State) (k : Nat) : Bool := !(getCrusher s k).withdrawn && (getDomain s (0x20 + k)).mode != 2

/-- Of the engines `l`, the best for a placement `f k` (R239): least current added, then least output capacity left, then
the lowest number. -/
def bestEngine (s : State) (f : Nat → State) : List Nat → Option Nat
  | [] => none
  | k :: t =>
    match bestEngine s f t with
    | none => some k
    | some j =>
      let added := fun (k : Nat) => engineCost (f k) k - engineCost s k
      let left := fun (k : Nat) => outCapacity s k - (engineLoad (f k) k).1
      if added k < added j ∨ (added k = added j ∧ left k ≤ left j) then some k else some j

/-- The engine for a placement: `ok` says which engines may be taken. -/
def chooseEngine (s : State) (ok : Nat → Bool) (f : Nat → State) : Option Nat :=
  bestEngine s f ((List.range (engineCount s)).filter fun k => ok k && inService s k && engineFits (f k) k)

/-- Raise CRUSHER_STATE (R254). -/
def crusherEvent (s : State) (k reason placement dest : Nat) : State :=
  raise s 0x21 k (le 1 reason ++ le 1 placement ++ le 2 dest)

/-- Power an engine's domain, with POWERED when it was gated. -/
def powerEngine (s : State) (k : Nat) : State :=
  let was := powered s (0x20 + k)
  let s := needDomain s (0x20 + k)
  if was then s else crusherEvent s k 1 0 0xFFFF

/-- A scheduled migration is withdrawn (R253): the new context is released, the window starts afresh when the change that
withdraws it takes effect, and a command that awaits the migration is CANCELLED. -/
def withdrawMigration (s : State) (d : Nat) : State :=
  match getContext s d with
  | none => s
  | some x =>
    match x.migration with
    | none => s
    | some m =>
      let s := setContext s d { x with migration := none, restart := true }
      let s := crusherEvent s m.engine 4 ((x.placement + 1) % 256) d
      let s := journalWithdrawn (wakeWith s (.change m.gen) stCANCELLED) m.gen
      let s := onFm s fun f => { f with
        changes := f.changes.filter (fun y => y.gen != m.gen), withdrawn := m.gen :: f.withdrawn }
      settleDomain s (0x20 + m.engine)

/-- Put a new context for destination `d` on engine `k`. -/
def assign (s : State) (d k : Nat) (e : Bytes) : State := setContext s d { engine := k, source := reSource e, entry := e }

/-- Make the destination bench of a converted route (R174, R237). -/
def makeDestBench (s : State) (d : Nat) : State :=
  match getBench s (benchKey d true) with
  | some _ => s
  | none => makeBench s (benchKey d true) { slots := 3, frameArea := frameBytes (destFormat s d), ancArea := 131072, flat := true }

/-- Place one converted entry: its destination keeps the context it has (R241), or takes a new one (R239). -/
def placeEntry (s : State) (e : Bytes) : Option State :=
  let d := reDest e
  match getContext s d with
  | some x =>
    let s' := setContext s d { x with pendingEntries := x.pendingEntries ++ [e] }
    if engineFits s' x.engine then some (makeDestBench s' d) else none
  | none =>
    match chooseEngine s (fun k => !(getCrusher s k).spare) (fun k => assign s d k e) with
    | some k => some (makeDestBench (crusherEvent (powerEngine (assign s d k e) k) k 3 0 d) d)
    | none => none

/-- Insert an entry by descending output load, before its equals, which come after it in payload order (R239). -/
def insertByLoad (s : State) (e : Bytes) : List Bytes → List Bytes
  | [] => [e]
  | x :: t =>
    if (entryLoad s (reDest x) x).1 ≤ (entryLoad s (reDest e) e).1 then e :: x :: t else x :: insertByLoad s e t

/-- Place a list of converted entries; with the state, how many found no engine. -/
def placeAll (s : State) : List Bytes → State × Nat
  | [] => (s, 0)
  | e :: t =>
    match placeEntry s e with
    | some s' => placeAll s' t
    | none => ((placeAll s t).1, (placeAll s t).2 + 1)

/-- The entries of a list that find no engine. -/
def unplaced (s : State) : List Bytes → List Bytes
  | [] => []
  | e :: t =>
    match placeEntry s e with
    | some s' => unplaced s' t
    | none => e :: unplaced s t

/-! ### Pattern generators (R600) -/

/-- Ashlars with a layer, in force or committed, that names a source: until its disable takes effect an Ashlar reads on. -/
def layersOf (s : State) (src : Nat) : List Nat :=
  (Tab.keys s.ashlars).filter fun k =>
    ashlarCharged s k && ((getAshlar s k).layers ++ (getAshlar s k).pendingLayers).any fun p =>
      leFetches p.2 && !leFollow p.2 && leSource p.2 == src

/-- Destinations with a claim on a source, and Ashlars with a layer that names it. -/
def readersOf (s : State) (src : Nat) : List Nat :=
  ((Tab.keys s.routes).filter fun d => (routeClaims s d).any fun p => reSource p.1 == src) ++ layersOf s src

/-- A first reader gives a generator its format, its bench of two slots, and the frame it writes. -/
def adoptPattern (s : State) (src : Nat) (f : Bytes) : State :=
  if !isPattern src || !(Tab.get s.store.patterns src []).isEmpty then s
  else
    let s := { s with store := { s.store with patterns := Tab.set s.store.patterns src f } }
    let s := makeBench s (benchKey src false) { slots := 2, frameArea := frameBytes f, ancArea := 0, flat := true }
    let n := nextFrame s (benchKey src false)
    landSlot (useFrame s (benchKey src false)) (benchKey src false) 0 n f

/-- When its last reader goes, a generator's bench ceases to exist (R600). -/
def dropPattern (s : State) (src : Nat) : State :=
  if isPattern src && (readersOf s src).isEmpty && !(Tab.get s.store.patterns src []).isEmpty then
    endBench { s with store := { s.store with patterns := Tab.erase s.store.patterns src } } (benchKey src false)
  else s

/-! ### Admission (R223, R224) -/

/-- Journal entry of one destination of a route command, PART by part (R231, R511). -/
def routeJournal (s : State) (c : Cmd) (e : Bytes) (part : Nat) (last : Bool) : State :=
  addEntry s { commandEntry s c (reDest e) (if reRemoves e then 0xFFFF else reSource e + 65536 * reClass e) none false with
    part := part, last := last }

/-- The journal entries of a list of destinations. -/
def routeJournals (s : State) (c : Cmd) (part : Nat) : List Bytes → State
  | [] => s
  | [e] => routeJournal s c e part true
  | e :: t => routeJournals (routeJournal s c e part false) c (part + 1) t

/-- Commit one entry: its shadow entry, the committed route, and what its units need. -/
def admitEntry (s : State) (w : When) (anchor : Nat) (e : Bytes) : State :=
  let d := reDest e
  let cls := if reRemoves e then 0 else chooseClass s e
  let s := shadowFor s d (.route (storedEntry e) cls) w (frameFor s w anchor d)
  let s := withdrawMigration s d
  let s := match getContext s d with
    | some x => tagUnit s (crusherUnit x.engine) d
    | none => s
  let r := getRoute s d
  let s := setRoute s d { r with committed := if reRemoves e then [] else storedEntry e, gen := s.fm.gen }
  let s := if isSdi d && !reRemoves e then needDomain s (0x10 + d / 8) else s
  countLate s d w.late

/-- Commit every entry. -/
def admitEntries (s : State) (w : When) (anchor : Nat) : List Bytes → State
  | [] => s
  | e :: t => admitEntries (admitEntry s w anchor e) w anchor t

/-- The converted entries of a commit, in the order they are placed. -/
def convertedEntries (s : State) (es : List Bytes) : List Bytes :=
  es.foldr (fun e l => if !reRemoves e && chooseClass s e == 3 then insertByLoad s e l else l) []

/-- The generators that the entries are the first to read take their formats, in the order of the entries (R600); by a
route to an Ashlar output, whose format is its source's, the canvas format of its layers (DEDUCED, log entry 56). -/
def adoptFor (s : State) (es : List Bytes) : State :=
  es.foldl (fun s e =>
    let d := reDest e
    if reRemoves e then s
    else adoptPattern s (reSource e) (if isAshlarObj d then canvasOf s (d - 0xC0) else destFormat s d)) s

/-- The state a commit gives, and how many conversions found no engine. -/
def commitRoutes (s : State) (c : Cmd) (anchor : Nat) (es : List Bytes) : State × Nat :=
  let s := adoptFor s es
  let w := resolve s anchor c.kind c.target
  let placed := placeAll s (convertedEntries s es)
  let s1 := routeJournals (advance placed.1) c 0 es
  (admitEntries (enqueue s1 (changeOf s1 c anchor w (es.map reDest))) w anchor es, placed.2)

/-- Whether an AUTO entry would switch a direct destination discontinuously (R217). -/
def discontinuous (s : State) (d : Nat) (e : Bytes) (cls : Nat) : Bool :=
  cls == 1 && (getRoute s d).cls == 1 && !coTimed s (reSource e) d

/-- The first entry with which the entries up to it, committed alone, give a state that fails: the item that R468 names. -/
def firstPrefix (s : State) (c : Cmd) (anchor : Nat) (es : List Bytes) (fails : State → Bool) : Nat :=
  ((List.range es.length).find? fun i => fails (commitRoutes s c anchor (es.take (i + 1))).1).getD (es.length - 1)

/-- A refusal of the whole names the item that brings it about (R72, R468): `check` is the step that refused. Where the pool
is full OBJECT stays the bench that does not fit (R193). -/
def nameItem (s : State) (c : Cmd) (anchor : Nat) (es : List Bytes) (check : State → Option Nack) : Option Nack :=
  match check (commitRoutes s c anchor es).1 with
  | none => none
  | some n =>
    let i := firstPrefix s c anchor es fun t => (check t).any fun m => m.rail == n.rail
    some { n with item := i, object := if n.shortfall = 0xFFFFFFFF ∧ n.status = stNO_BANDWIDTH then n.object else reDest (es.getD i []) }

/-- NO_ENGINE names the first entry in payload order that found no engine (R72, R239). -/
def engineNack (s : State) (es : List Bytes) : Option Nack :=
  let t := adoptFor s es
  let left := unplaced t (convertedEntries t es)
  let i := (es.findIdx? fun e => left.contains e).getD 0
  need left.isEmpty { status := stNO_ENGINE, item := i, object := reDest (es.getD i []), shortfall := left.length }

/-- An entry whose lane group is FORCED_OFF (R480). -/
def groupOffNack (s : State) (item : Nat) (e : Bytes) : Option Nack :=
  if isSdi (reDest e) && !reRemoves e then (forcedOffNack s (0x10 + reDest e / 8)).map fun n => { n with item := item } else none

/-- Checks of R223 after the salvo's own: format, slots, engines, bandwidth, current, and the queue (R89, R92). -/
def commitNack (s : State) (c : Cmd) (anchor : Nat) (es : List Bytes) : Option Nack :=
  let items := List.zip (List.range es.length) es
  let t := adoptFor s es
  firstOf
    [firstOf (items.map fun p => formatNack t p.1 p.2),
     firstOf (items.map fun p => slotsNack t p.1 p.2),
     engineNack s es,
     nameItem s c anchor es fun t => bandwidthNack s t anchor,
     firstOf (items.map fun p => groupOffNack s p.1 p.2),
     nameItem s c anchor es fun t => currentNack s t anchor,
     queueNack s (es.map reDest ++ crusherUnits s es)]
where
  /-- The Crushers that serve the destinations of the entries (R92). -/
  crusherUnits (s : State) (es : List Bytes) : List Nat :=
    es.filterMap fun e => (getContext s (reDest e)).map fun x => crusherUnit x.engine

/-- Whether the anchor's entry is converted, so that its first frame follows one frame later (R248). -/
def anchorConverts (s : State) (anchor : Nat) (es : List Bytes) : Bool :=
  es.any fun e => reDest e == anchor && !reRemoves e && chooseClass (adoptFor s es) e == 3

/-- The response of a route commit (R86); EFFECT is the anchor's, the frame in which its new route is first transmitted
(R227). -/
def commitDone (s : State) (c : Cmd) (anchor : Nat) (es : List Bytes) (after : State) : Done :=
  let w := resolve s anchor c.kind c.target
  queuedDone after c w (scheduledEffect s c anchor (frameFor s w anchor anchor + frameShift c s anchor es))
where
  frameShift (c : Cmd) (s : State) (anchor : Nat) (es : List Bytes) : Nat :=
    if c.kind = 2 then 0 else flag (anchorConverts s anchor es)

/-! ### A route change taking effect (R215, R224, R229) -/

/-- Tally of a source (R229): the highest TALLY of the routes in force that read it. -/
def tallyOf (s : State) (src : Nat) : Nat :=
  maxOf (s.routes.map fun p =>
    if !reRemoves p.2.entry && reSource p.2.entry == src && p.2.state != .shed then reTally p.2.entry else 0)

/-- Drive the GPIO outputs mapped as tallies (R229): low while the tally is at or above the mapped level. -/
def driveTallies (s : State) : State :=
  { s with gpioOut := (s.tally.filter fun p => decide (p.2.level ≤ tallyOf s p.2.source)).map (·.1) }

/-- Mark a salvo's entry with its result: its destination has taken effect (R227). -/
def salvoResult (s : State) (gen d result cls : Nat) (effect : Option Nat) : State :=
  { s with salvos := s.salvos.map fun p =>
      if p.2.gen = gen ∧ p.2.gen ≠ 0 then
        let es := p.2.entries.map fun e =>
          if reDest e.entry = d then { e with result := result, cls := cls, effect := effect } else e
        let applied := (es.filter fun e => e.effect.isSome).length
        (p.1, { p.2 with
          entries := es, applied := applied
          state := if p.2.state = .armed ∨ p.2.state = .firing then
              (if applied = es.length then .done else if applied = 0 then .armed else .firing) else p.2.state })
      else p }

/-- The new contents of a table or profile stand in its slot (R277). -/
def putTable (s : State) (t : TableChange) : State :=
  if t.profile then
    { s with profiles := match t.data with
        | some b => Tab.set s.profiles t.key b
        | none => Tab.erase s.profiles t.key }
  else
    { s with tables := match t.data with
        | some b => Tab.set s.tables t.key { taps := t.taps, data := b }
        | none => Tab.erase s.tables t.key }

/-- Table and profile changes no longer wait on contexts that are gone; one that waits on none is in force (R277). -/
def settleTables (s : State) : State :=
  let still := s.tableChanges.map fun t => { t with waitingOn := t.waitingOn.filter fun d => (getContext s d).isSome }
  let due := still.filter fun t => t.waitingOn.isEmpty
  due.foldl (fun s t => let s := putTable s t; wake s (.tables t.gen) (some s.now)) { s with tableChanges := still.filter fun t => !t.waitingOn.isEmpty }

/-- A withdrawn engine that has lost its last context is gated, and the command that withdrew it completes (R256). -/
def settleService (s : State) (k : Nat) : State :=
  if (getCrusher s k).withdrawn && (contextsOn s k).isEmpty then wake (closeDomain s (0x20 + k)) (.service k) (some s.now)
  else settleDomain s (0x20 + k)

/-- Let go of the source slots a context holds (R238). -/
def dropHeld (s : State) (d : Nat) : State :=
  match getContext s d with
  | none => s
  | some x => x.held.foldl (fun s h => unholdSlot s h.1 h.2 false) (setContext s d { x with held := [] })

/-- Release a destination's context and destination bench, when its route is converted no more (R224, R242). -/
def releaseContext (s : State) (d : Nat) : State :=
  match getContext s d with
  | none => s
  | some x =>
    let s := dropHeld s d
    let s := { s with contexts := Tab.erase s.contexts d }
    let s := crusherEvent s x.engine 4 x.placement d
    endBench (settleTables (settleService s x.engine)) (benchKey d true)

/-- Converted entries admitted for a destination that no latch cycle has taken yet. -/
def queuedEntries (s : State) (d : Nat) : List Bytes :=
  (s.fm.shadow.filter fun x => x.unit == d).filterMap fun x => match x.body with
    | .route e 3 => some e
    | .classChange 3 _ => some (getRoute s d).entry
    | _ => none

/-- A context takes the route entry that was admitted for it (R224, R248). Its window starts afresh only where the change has
withdrawn a migration (R253). -/
def contextTakes (s : State) (d : Nat) (e : Bytes) : State :=
  match getContext s d with
  | none => s
  | some x =>
    setContext s d { x with
      entry := e, source := reSource e, pendingEntries := queuedEntries s d, motionState := 1
      fresh := x.fresh || x.source != reSource e, film := if x.source = reSource e then x.film else {}
      window := if x.restart then [] else x.window, restart := false }

/-- The transmit lanes of an SDI output: its own, and those of its gang (R23). -/
def outputLanes (s : State) (d : Nat) : List Nat :=
  (if fmtLink (chargedFormat s d) = 3 then [d, d + 1, d + 2, d + 3] else [d]).map (0x100 + ·)

/-- Set `f` on the transmit lanes of an output. -/
def onOutputLanes (s : State) (d : Nat) (f : Lane → Lane) : State :=
  if isSdi d then (outputLanes s d).foldl (fun s i => setLane s i (f (getLane s i))) s else s

/-- Write PHASE_NS as an output stops following a direct source (R211, R284), unless a configuration of the same latch cycle has
already given it its timing; its lanes leave PI_LIMIT (R118). -/
def keepPhase (s : State) (d src : Nat) : State :=
  let s := onOutputLanes s d fun x => { x with piLimit := false }
  let o := getOutput s d
  if isSdi d && o.following then
    let put := fun (c : Bytes) => if c.isEmpty then c else sub c 0 20 ++ le 4 (phaseOf s (ocEngine c) src) ++ sub c 24 8
    setOutput s d { o with committed := put o.committed, config := put o.config, following := false }
  else s

/-- Set `k` fields of the counters of a route for a class change with a reason (R210, R231). -/
def countChange (c : RouteCounts) (reason : Nat) : RouteCounts :=
  match reason with
  | 0 => { c with switches := c.switches + 1 }
  | 1 => { c with classChanges := satInc 32 c.classChanges, demotions := satInc 32 c.demotions }
  | 2 => { c with classChanges := satInc 32 c.classChanges, demotions := satInc 32 c.demotions }
  | 3 => { c with classChanges := satInc 32 c.classChanges, restores := satInc 32 c.restores }
  | 4 => { c with classChanges := satInc 32 c.classChanges, promotions := satInc 32 c.promotions }
  | _ => { c with classChanges := satInc 32 c.classChanges }

/-- An AUTO direct destination that the host moves to a source which could be direct but for its timing becomes synchronised,
with reason NOT_COTIMED (R210, R217). -/
def notCotimed (s : State) (d : Nat) (n : NextRoute) : Bool :=
  n.reason == 0 && (getRoute s d).cls == 1 && n.cls == 2 && reClass n.entry == 0 && !reRemoves n.entry &&
  directButTiming s n.entry && !coTimed s (reSource n.entry) d

/-- The automatic change that a switch to a source which is not co-timed is (R210): journalled as it takes effect. -/
def journalCotiming (s : State) (d frame : Nat) (n : NextRoute) : State :=
  autoEntry s 3 2 d ((getRoute s d).cls + 256 * n.cls) (some frame)

/-- What a held route's switch point brings beside its class event: HOLDS and ROUTE_HELD (R213). -/
def raiseHeld (s : State) (d cause : Nat) : State :=
  let r := getRoute s d
  raise (setRoute s d { r with
    state := .held, heldCause := cause, counts := { r.counts with holds := satInc 32 r.counts.holds } }) 0x129 d (le 1 cause)

/-- The route in force becomes `n` at the switch point of output frame `frame`. A conversion is shown one frame later, which
its EFFECT_FRAME is (R248). -/
def routeTakes (s : State) (d : Nat) (n : NextRoute) (frame : Nat) : State :=
  let before := s
  let old := getRoute s d
  let gone := reRemoves n.entry
  let shown := frame + flag (!gone && n.cls == 3)
  let disc := !gone && n.reason == 0 && discontinuous s d n.entry n.cls
  let apart := notCotimed s d n
  let reason := if apart then 2 else n.reason
  let s := if apart then journalCotiming s d shown n else s
  let s := if old.cls = 1 ∧ (gone ∨ n.cls ≠ 1) then keepPhase s d (reSource old.entry) else s
  let s := if gone then s else onOutputLanes s d fun x => { x with buffer := 32 }
  let s := if n.cls = 3 then contextTakes s d n.entry else s
  let r := getRoute s d
  let c := countChange r.counts n.reason
  let c := if reason = 2 then { c with classChanges := satInc 32 c.classChanges, demotions := satInc 32 c.demotions } else c
  let c := if disc then { c with discontinuous := satInc 32 c.discontinuous } else c
  let s := setRoute s d { r with
    entry := if gone then [] else n.entry
    cls := if gone then 0 else n.cls
    state := if gone then .none else .active
    reason := if reason = 0 then r.reason else reason
    heldCause := 0, heldBlack := false, told := false, effectFrame := shown, gen := if apart then s.fm.gen else max r.gen n.gen
    effectGen := n.gen, setGen := if n.reason = 0 then n.gen else r.setGen, counts := c, next := r.next.erase n
    demoted := if n.reason = 0 then reason == 2 else if n.reason = 1 then true else if n.reason = 3 then false else r.demoted }
  let s := if isSdi d && !gone && n.cls == 1 then setOutput s d { getOutput s d with following := true } else s
  let s := if reason ≠ 0 ∧ !gone then
      raise s 0x128 d (le 1 old.cls ++ le 1 n.cls ++ le 1 reason ++ zeros 5 ++ le 8 shown) else s
  let s := if n.reason = 6 then raiseHeld s d n.cause else s
  let s := if disc then raise s 0x12A d (zeros 8 ++ le 8 shown) else s
  let s := if (old.cls = 3 ∨ n.reason = 0) ∧ (gone ∨ n.cls ≠ 3) ∧ !(baseClaims s d).any (fun p => p.2 == 3) then releaseContext s d else s
  let s := if reRemoves old.entry then s else dropPattern s (reSource old.entry)
  let s := salvoResult s n.gen d (if ((findChange s n.gen).map (·.late)) == some true then 2 else 1) (if gone then 0 else n.cls) (some shown)
  let s := appliedOn s n.gen d shown
  let s := if isSdi d then settleDomain s (0x10 + d / 8) else s
  settleDelta before (driveTallies (retireSalvos s)) n.gen

/-- The routes that a new format of a source is checked against (R135): the committed entries that read it. -/
def entriesFrom (s : State) (i : Nat) : List Bytes :=
  s.routes.filterMap fun p => if !reRemoves p.2.committed && reSource p.2.committed == i then some p.2.committed else none

/-- Of entries that are converted under a change that is admitted: a destination that has a context keeps it, if its engine
still holds it, and another takes one now, to be promoted at its switch point (R135, R239, R241). With the state, how many
found no engine. -/
def placeUnder (s : State) : List Bytes → State × Nat
  | [] => (s, 0)
  | e :: t =>
    match getContext s (reDest e), placeEntry s e with
    | some x, _ => ((placeUnder s t).1, (placeUnder s t).2 + flag (!engineFits s x.engine))
    | none, some s' => placeUnder s' t
    | none, none => ((placeUnder s t).1, (placeUnder s t).2 + 1)

/-- Contexts taken for promotions that a new format of source `i` would have brought, and that will not come, are released. -/
def dropUnused (s : State) (i : Nat) : State :=
  ((s.contexts.filter fun p => p.2.source == i && !(baseClaims s p.1).any fun q => q.2 == 3).map (·.1)).foldl releaseContext s

/-- R231: ROUTED tests ask whether a destination has a route, in force or committed. -/
def hasRoute (s : State) (d : Nat) : Bool :=
  !reRemoves (getRoute s d).entry || !reRemoves (getRoute s d).committed

/-- Whether a source is read: by a route, in force or admitted, or by an Ashlar layer (R135, R164). -/
def isRead (s : State) (src : Nat) : Bool := !(readersOf s src).isEmpty

/-- A route that blocks updates (R230, R528): class A, LIVE, or TALLY 2. -/
def routeLive (r : Route) : Bool :=
  !reRemoves r.entry && r.state != .shed && (reEnergy r.entry == 0 || reLive r.entry || reTally r.entry == 2)

def anyLive (s : State) : Bool := s.routes.any fun p => routeLive p.2

end Sys2Proof.Machine
end

