-- ==== Sys2Proof/Machine/RouteCmds.lean ====
section
/-! DEFINITION. The ROUTE and SALVO commands (R231), the GPI rows (R225), the Foreman's writing of shadow entries (R290)
and its automatic class changes (R210-R213). SWITCH_INSTANT follows in Outputs, HELD_RETRY in CrusherCmds. -/

namespace Sys2Proof.Machine

/-! ### GPIOs named by a target or a tally (R226) -/

/-- GPIO of a GPI target. -/
def gpiOf (target : Nat) : Nat := target % 64

/-- A command's target names a GPIO that is mapped as a tally output. -/
def gpiMapped (s : State) (c : Cmd) : Bool := c.kind == 3 && Tab.has s.tally (gpiOf c.target)

/-- Queued changes that wait for an edge of a GPIO. -/
def gpiWaiting (s : State) (g : Nat) : List Change :=
  s.fm.changes.filter fun x => x.targetKind == 3 && !x.armed && gpiOf x.target == g

/-- The checks of a target of a route command (R83, R226). -/
def routeTargetNack (s : State) (c : Cmd) (anchor : Nat) : Option Nack :=
  firstOf [targetNack s c anchor, need (!gpiMapped s c) { status := stBAD_ARGUMENT, field := 16 }]

/-! ### ROUTE commands -/

/-- ROUTE.SET (R231): a salvo of one entry, its destination the anchor. -/
def defRouteSet : CommandDef where
  opcode := 0x0501
  flags := flagsTarget
  lenOk c := c.len == 32
  check s c :=
    firstOf [entryNack s 0 0 c.p, routeTargetNack s c (reDest c.p)]
  admission s c := commitNack s c (reDest c.p) [c.p]
  timing s c := targetTiming s c (reDest c.p)
  missed s c := countMissed s (reDest c.p)
  run s c := commitDone s c (reDest c.p) [c.p] (commitRoutes s c (reDest c.p) [c.p]).1

def execRouteSet (ch : Fin 32) (s : State) : Result := .next (runCommand defRouteSet ch s)

/-- Whether a route change of `d` is admitted and not yet in effect. -/
def routePending (s : State) (d : Nat) : Bool :=
  (getRoute s d).next.any (fun n => n.reason == 0) ||
  s.fm.shadow.any fun x => x.unit == d && (match x.body with
    | .route _ _ => true
    | _ => false)

/-- STATE of ROUTE.GET (R231). -/
def routeStateNum (s : State) (d : Nat) : Nat :=
  if routePending s d then 4
  else
    match (getRoute s d).state with
    | .none => 0
    | .active => 1
    | .held => 2
    | .shed => 3

/-- LATENCY_NS of ROUTE.GET. -/
def reportedLatency (s : State) (d : Nat) : Nat :=
  let r := getRoute s d
  if r.state = .active ∧ !reRemoves r.entry then min (routeLatency s d r.entry r.cls) 0xFFFFFFFF else 0xFFFFFFFF

/-- ENTRY as last committed, SOURCE 0xFFFF when none (R205). -/
def committedEntry (s : State) (d : Nat) : Bytes :=
  let e := (getRoute s d).committed
  if reRemoves e then le 2 d ++ le 2 0xFFFF ++ zeros 28 else e

/-- The check of a payload of DEST and two reserved bytes. -/
def destNack (s : State) (c : Cmd) : Option Nack :=
  firstOf [need (validDest s.product (u16 c.p 0)) (badArg 0), need (zeroAt c.p 2 2) (badArg 2)]

/-- ROUTE.GET (R231). -/
def defRouteGet : CommandDef where
  opcode := 0x0502
  lenOk c := c.len == 4
  check s c := destNack s c
  run s c :=
    let d := u16 c.p 0
    let r := getRoute s d
    readDone { s with free := s.free + 1 } (committedEntry s d ++ le 1 (routeStateNum s d) ++ le 1 (shownClass r) ++ le 1 r.reason ++ le 1 r.heldCause ++
      le 4 (reportedLatency s d) ++ le 8 r.effectFrame ++ le 8 r.gen ++ le 8 s.now)

def execRouteGet (ch : Fin 32) (s : State) : Result := .next (runCommand defRouteGet ch s)

/-- One entry of ROUTE.LIST. -/
def listEntry (s : State) (d : Nat) : Bytes :=
  let r := getRoute s d
  let live := !reRemoves r.entry && r.state != .shed && (reEnergy r.entry == 0 || reLive r.entry)
  let e := if reRemoves r.committed then r.entry else r.committed
  le 2 d ++ le 2 (if reRemoves e then 0xFFFF else reSource e) ++ le 1 (routeStateNum s d) ++ le 1 (shownClass r) ++
  le 1 (flag (!reRemoves e && reClass e != 0) + 2 * flag live) ++ zeros 1 ++ le 8 r.effectFrame

/-- ROUTE.LIST (R231). -/
def defRouteList : CommandDef where
  opcode := 0x0503
  lenOk c := c.len == 4
  check s c := destNack s c
  run s c :=
    let all := (Tab.keys s.routes).filter fun d => decide (u16 c.p 0 ≤ d) && hasRoute s d
    let ds := all.take 240
    readDone s (le 2 ds.length ++ le 2 ((all.drop 240).headD 0xFFFF) ++ zeros 4 ++ ds.flatMap (listEntry s))

def execRouteList (ch : Fin 32) (s : State) : Result := .next (runCommand defRouteList ch s)

/-- ROUTE.COUNTERS (R231). -/
def defRouteCounters : CommandDef where
  opcode := 0x0504
  lenOk c := c.len == 4
  check s c := destNack s c
  run s c :=
    let k := (getRoute s (u16 c.p 0)).counts
    readDone s (le 2 (u16 c.p 0) ++ zeros 6 ++ le 8 k.switches ++ le 4 k.classChanges ++ le 4 k.demotions ++
      le 4 k.promotions ++ le 4 k.restores ++ le 4 k.discontinuous ++ le 4 k.holds ++ le 8 s.now)

def execRouteCounters (ch : Fin 32) (s : State) : Result := .next (runCommand defRouteCounters ch s)

/-- ROUTE.TALLY_GPIO (R226, R229, R231). -/
def defRouteTallyGpio : CommandDef where
  opcode := 0x0505
  flags := flagsChange
  lenOk c := c.len == 8
  check s c :=
    firstOf
      [need (decide (u8 c.p 0 < 64)) (badArg 0),
       need (decide (u8 c.p 1 ≤ 2)) (badArg 1),
       need (validSource s.product (u16 c.p 2)) (badArg 2),
       need (zeroAt c.p 4 4) (badArg 4),
       need (u8 c.p 1 == 0 || (gpiWaiting s (u8 c.p 0)).isEmpty) (badArg 0)]
  run s c :=
    let t := if u8 c.p 1 = 0 then Tab.erase s.tally (u8 c.p 0)
      else Tab.set s.tally (u8 c.p 0) { level := u8 c.p 1, source := u16 c.p 2 }
    { state := commit (driveTallies { s with tally := t }) c (u16 c.p 2), effect := some s.now }

def execRouteTallyGpio (ch : Fin 32) (s : State) : Result := .next (runCommand defRouteTallyGpio ch s)

/-! ### SALVO commands -/

/-- Number of a salvo state (R231). -/
def salvoNum : SalvoState → Nat
  | .open => 0
  | .armed => 1
  | .firing => 2
  | .done => 3
  | .withdrawn => 4
  | .discarded => 5

/-- Live salvos (R220). -/
def liveSalvos (s : State) : List Nat :=
  (s.salvos.filter fun p => p.2.state == .open || p.2.state == .armed || p.2.state == .firing).map (·.1)

/-- BAD_ARGUMENT unless the salvo is OPEN (R231). -/
def openNack (s : State) (c : Cmd) : Option Nack :=
  need (Tab.has s.salvos (u16 c.p 0) && (getSalvo s (u16 c.p 0)).state == .open) (badArg 0)

/-- NOT_OWNER unless the port created it (R221). -/
def ownerNack (s : State) (c : Cmd) : Option Nack :=
  need ((getSalvo s (u16 c.p 0)).creator == c.port) { status := stNOT_OWNER }

/-- A live salvo trails the newest, which is the identifier before the next, by 32,512 or more (R93). -/
def spanFull (s : State) : Bool :=
  (liveSalvos s).any fun i => decide (32512 ≤ serialDist 16 i ((s.nextSalvo + 65535) % 65536))

/-- SALVO.CREATE (R222, R93). -/
def defSalvoCreate : CommandDef where
  opcode := 0x0510
  lenOk c := c.len == 0
  admission s _ := need (decide ((liveSalvos s).length < 256) && !spanFull s) { status := stBUSY_DRAIN }
  run s c :=
    let i := s.nextSalvo
    let s' := { setSalvo s i { state := .open, creator := c.port } with
      nextSalvo := (i + 1) % 65536, finishedSalvos := s.finishedSalvos.filter (· != i) }
    { state := s', payload := le 2 i ++ zeros 2 }

def execSalvoCreate (ch : Fin 32) (s : State) : Result := .next (runCommand defSalvoCreate ch s)

/-- Entries of SALVO.ADD. -/
def addEntries (c : Cmd) : List Bytes := (List.range (u16 c.p 2)).map fun k => sub c.p (8 + 32 * k) 32

/-- Add an entry to a list of entries, replacing that of the same destination (R222). -/
def mergeEntry (l : List SalvoEntry) (e : Bytes) : List SalvoEntry :=
  if l.any fun x => reDest x.entry == reDest e then
    l.map fun x => if reDest x.entry = reDest e then { entry := e } else x
  else l ++ [{ entry := e }]

/-- SALVO.ADD (R222, R231). -/
def defSalvoAdd : CommandDef where
  opcode := 0x0511
  lenOk c := decide (8 ≤ c.len) && (c.len - 8) % 32 == 0
  check s c :=
    let es := addEntries c
    firstOf
      [openNack s c,
       need (decide (1 ≤ u16 c.p 2) && decide (u16 c.p 2 ≤ 123) && c.len == 8 + 32 * u16 c.p 2) (badArg 2),
       need (zeroAt c.p 4 4) (badArg 4),
       firstOf ((List.zip (List.range es.length) es).map fun p => entryNack s p.1 (8 + 32 * p.1) p.2),
       need (decide ((es.foldl mergeEntry (getSalvo s (u16 c.p 0)).entries).length ≤ 256)) (badArg 2)]
  admission s c := ownerNack s c
  run s c :=
    let v := getSalvo s (u16 c.p 0)
    { state := setSalvo s (u16 c.p 0) { v with entries := (addEntries c).foldl mergeEntry v.entries } }

def execSalvoAdd (ch : Fin 32) (s : State) : Result := .next (runCommand defSalvoAdd ch s)

/-- SALVO.REMOVE (R231). -/
def defSalvoRemove : CommandDef where
  opcode := 0x0512
  lenOk c := c.len == 4
  check s c :=
    firstOf
      [openNack s c,
       need ((getSalvo s (u16 c.p 0)).entries.any fun e => reDest e.entry == u16 c.p 2) (badArg 2)]
  admission s c := ownerNack s c
  run s c :=
    let v := getSalvo s (u16 c.p 0)
    { state := setSalvo s (u16 c.p 0) { v with entries := v.entries.filter fun e => reDest e.entry != u16 c.p 2 } }

def execSalvoRemove (ch : Fin 32) (s : State) : Result := .next (runCommand defSalvoRemove ch s)

/-- Route entries of the salvo a command names. -/
def salvoEntries (s : State) (c : Cmd) : List Bytes := (getSalvo s (u16 c.p 0)).entries.map (·.entry)

/-- SALVO.COMMIT (R223-R225): the whole salvo as one change. -/
def defSalvoCommit : CommandDef where
  opcode := 0x0513
  flags := flagsTarget
  lenOk c := c.len == 8
  check s c :=
    firstOf [need (zeroAt c.p 4 4) (badArg 4), routeTargetNack s c (u16 c.p 2)]
  admission s c :=
    let es := salvoEntries s c
    firstOf
      [openNack s c,
       need (es.any fun e => reDest e == u16 c.p 2) (badArg 2),
       ownerNack s c,
       firstOf ((List.zip (List.range es.length) es).map fun p =>
         (entryNack s p.1 0 p.2).map fun n => { n with field := 0xFFFF }),
       commitNack s c (u16 c.p 2) es]
  timing s c := targetTiming s c (u16 c.p 2)
  missed s c := (salvoEntries s c).foldl (fun s e => countMissed s (reDest e)) s
  run s c :=
    let i := u16 c.p 0
    let v := getSalvo s i
    let s' := (commitRoutes s c (u16 c.p 2) (salvoEntries s c)).1
    let s' := setSalvo s' i { v with state := .armed, gen := s'.fm.gen, target := c.target, kind := c.kind }
    let s' := onFm s' fun f => { f with changes := f.changes.map fun x =>
      if x.gen = f.gen then { x with salvo := some i } else x }
    commitDone s c (u16 c.p 2) (salvoEntries s c) s'

def execSalvoCommit (ch : Fin 32) (s : State) : Result := .next (runCommand defSalvoCommit ch s)

/-- SALVO.DISCARD (R221). -/
def defSalvoDiscard : CommandDef where
  opcode := 0x0514
  lenOk c := c.len == 4
  check s c := firstOf [openNack s c, need (zeroAt c.p 2 2) (badArg 2)]
  admission s c := ownerNack s c
  run s c := { state := discardSalvo s (u16 c.p 0) 0 }

def execSalvoDiscard (ch : Fin 32) (s : State) : Result := .next (runCommand defSalvoDiscard ch s)

/-- SALVO.STATUS (R231): live salvos and the last 256 that finished. -/
def defSalvoStatus : CommandDef where
  opcode := 0x0515
  lenOk c := c.len == 4
  check s c := firstOf [need (Tab.has s.salvos (u16 c.p 0)) (badArg 0), need (zeroAt c.p 2 2) (badArg 2)]
  run s c :=
    let v := getSalvo s (u16 c.p 0)
    readDone s (le 2 (u16 c.p 0) ++ le 1 (salvoNum v.state) ++ le 1 v.creator.num ++ le 2 v.entries.length ++
      le 2 v.applied ++ le 8 v.gen ++ le 8 v.target ++ le 1 v.kind ++ zeros 7)

def execSalvoStatus (ch : Fin 32) (s : State) : Result := .next (runCommand defSalvoStatus ch s)

/-- RESULT of a salvo's entry: held while the route it brought is HELD (R231, log entry 108). -/
def resultNum (s : State) (gen : Nat) (e : SalvoEntry) : Nat :=
  let r := getRoute s (reDest e.entry)
  if (e.result = 1 ∨ e.result = 2) ∧ r.state = .held ∧ r.setGen = gen then 3 else e.result

/-- One entry of SALVO.RESULT. -/
def resultEntry (s : State) (gen : Nat) (e : SalvoEntry) : Bytes :=
  le 2 (reDest e.entry) ++ le 1 (resultNum s gen e) ++ le 1 e.cls ++ zeros 4 ++ le 8 (orOnes e.effect)

/-- SALVO.RESULT (R227, R231). -/
def defSalvoResult : CommandDef where
  opcode := 0x0516
  lenOk c := c.len == 4
  check s c :=
    firstOf [need (Tab.has s.salvos (u16 c.p 0)) (badArg 0),
             need (decide (u16 c.p 2 ≤ (getSalvo s (u16 c.p 0)).entries.length)) (badArg 2)]
  run s c :=
    let v := getSalvo s (u16 c.p 0)
    let es := (v.entries.drop (u16 c.p 2)).take 240
    readDone s (le 2 v.entries.length ++ le 2 es.length ++ zeros 4 ++ es.flatMap (resultEntry s v.gen))

def execSalvoResult (ch : Fin 32) (s : State) : Result := .next (runCommand defSalvoResult ch s)

/-- SALVO_TIMEOUT (R221): 600 s without a command naming an OPEN salvo. -/
def execSalvoTimeout (i : BitVec 16) (s : State) : Result := .next (discardSalvo s i.toNat 2)

/-! ### GPI edges -/

/-- GPI_EDGE (R225): a GPIO is sampled at a new level; the edge waits to be qualified. -/
def execGpiEdge (g : Fin 64) (level : Bool) (s : State) : Result :=
  if Tab.get s.gpioIn g.val true = level then .next s
  else .next { s with gpioIn := Tab.set s.gpioIn g.val level, gpioEdge := Tab.set s.gpioEdge g.val level }

/-- Arm one change on a qualified edge: its shadow entries are shown by the first frame whose latch instant falls 50 µs
after the edge (R225). -/
def armChange (s : State) (gen : Nat) : State :=
  onFm s fun f =>
    { f with
      changes := f.changes.map fun x => if x.gen = gen then { x with armed := true } else x
      shadow := f.shadow.map fun x =>
        if x.gen = gen then { x with armed := true, target := firstFrame s x.unit (s.now + 50000) } else x }

/-- The GPI entries of the journal, one for each change an edge fires, all of one generation (R511, log entry 16). -/
def gpiEntries (s : State) (g reason part : Nat) : List Change → State
  | [] => s
  | x :: t =>
    let s := addEntry s
      { seq := 0, gen := s.fm.gen, time := s.now, opcode := 0, kind := 2, origin := originGpi, channel := 0xFF
        reason := reason, object := g, chSeq := 0, target := 0, effect := some s.now, detail := x.salvo.getD 0xFFFF
        targetKind := 0, effectRecorded := true, settled := true, last := t.isEmpty, part := part }
    gpiEntries s g reason (part + 1) t

/-- GPI_QUALIFIED (R225): the GPIO has held its level; the changes that wait for this edge fire together. -/
def execGpiQualified (g : Fin 64) (s : State) : Result :=
  match s.gpioEdge.find? fun p => p.1 == g.val with
  | none => .next s
  | some p =>
    let s := { s with gpioEdge := Tab.erase s.gpioEdge g.val }
    let fire := (gpiWaiting s g.val).filter fun x => bit x.target 8 != p.2
    if fire.isEmpty then .next s
    else .next (fire.foldl (fun s x => armChange s x.gen) (gpiEntries (advance s) g.val (flag (!p.2)) 0 fire))

/-! ### Automatic class changes (R210-R213, R218) -/

/-- ROUTE_CLASS (R232). -/
def classEvent (s : State) (d old new reason frame : Nat) : State :=
  raise s 0x128 d (le 1 old ++ le 1 new ++ le 1 reason ++ zeros 5 ++ le 8 frame)

/-- A change of class on its way for `d`. -/
def classPending (s : State) (d : Nat) : Bool :=
  (getRoute s d).next.any (fun n => n.reason != 0) ||
  s.fm.shadow.any fun x => x.unit == d && (match x.body with
    | .classChange _ _ => true
    | .hold _ => true
    | _ => false)

/-- Put the change that a decision of the Foreman for `d` brings at its next switch point in the queue (R210). A migration of
`d` that was scheduled is withdrawn (R253). -/
def scheduleAction (s : State) (d : Nat) (body : ShadowBody) : State :=
  let s := addShadow s { gen := s.fm.gen, unit := d, body := body, targetKind := kindFrame, target := firstFrame s d s.now
                         written := true }
  autoChange (withdrawMigration s d) d

/-- Decide a class change: journal it and schedule it at the next switch point (R210). -/
def scheduleClass (s : State) (d cls reason : Nat) : State :=
  recordDelta s (scheduleAction (autoEntry s 3 reason d ((getRoute s d).cls + 256 * cls)) d (.classChange cls reason))

/-- Hold a route that cannot be promoted, or whose pin forbids it (R213): an automatic action with reason HELD, which takes
effect at the next switch point as every other does (R210). -/
def holdRoute (s : State) (d cause : Nat) : State :=
  let r := getRoute s d
  if r.state = .held ∧ r.heldCause = cause then s
  else recordDelta s (scheduleAction (autoEntry s 3 6 d (r.cls + 256 * r.cls + 65536 * cause)) d (.hold cause))

/-- A pinned direct route whose source broke its contract stays direct (R218). -/
def holdContract (s : State) (d : Nat) : State :=
  let r := getRoute s d
  if r.told then s
  else
    let s := setRoute s d { r with heldCause := 5, told := true, counts := { r.counts with holds := satInc 32 r.counts.holds } }
    raise s 0x129 d (le 1 5)

/-- A promotion to converted, admitted like a one-entry commit (R213): the state it gives, with every charge the converted
route carries (R207), or the cause it is held for. A profile whose bank does not suit the route's TAPS holds it with cause
FORMAT, as a commit would complete FORMAT_MISMATCH (R262, log entry 109). -/
def tryPromote (s : State) (d : Nat) : State ⊕ Nat :=
  let e := (getRoute s d).entry
  if !tapsSuit s e then .inr 4
  else
    match placeEntry s e with
    | none => .inr 1
    | some s' =>
      let t := scheduleClass s' d 3 4
      if (bandwidthNack s t d).isSome then .inr 2
      else if (currentNack s t d).isSome then .inr 3
      else .inl t

def promoteOrHold (s : State) (d : Nat) : State :=
  match tryPromote s d with
  | .inl s' => s'
  | .inr cause => holdRoute s d cause

/-- A held route whose formats match again is active from the next switch point (log entry 17). -/
def resumeRoute (s : State) (d : Nat) : State := scheduleClass s d 2 5

/-- Whether the format of a route's source is settled enough to compare (log entry 17). -/
def formatKnown (s : State) (src : Nat) : Bool :=
  if isAshlarObj src then canvasOf s (src - 0xC0) == canvasNow s (src - 0xC0)
  else !isWeighed s.product src || (getSource s src).state == .formatted

/-- A context that a contract change took for a promotion (R135), of a route that needs none now that its source is measured. -/
def releaseUnused (s : State) (d : Nat) : State :=
  match getContext s d with
  | some x =>
    if (getSource s x.source).pendingContract.isNone && !(baseClaims s d).any fun p => p.2 == 3 then releaseContext s d else s
  | none => s

/-- The Foreman's decision for one destination (R210). During an update it is deferred (R35). -/
def decideClass (s : State) (d : Nat) : State :=
  let r := getRoute s d
  let src := reSource r.entry
  if reRemoves r.entry || r.state == .shed || s.updating || classPending s d || isAshlarObj d || fedByAshlar s src d then s
  else
    match r.cls with
    | 1 =>
      if !(s.triggers.any fun t => t.1 == src) then s
      else if reClass r.entry = 0 then scheduleClass s d 2 1
      else holdContract s d
    | 2 =>
      if !formatKnown s src then s
      else if syncEnds s src d then (if r.state = .held then resumeRoute s d else releaseUnused s d)
      else if reClass r.entry = 0 then promoteOrHold s d
      else holdRoute s d 4
    | 3 => if reClass r.entry = 0 && formatKnown s src && syncEnds s src d then scheduleClass s d 2 5 else s
    | _ => s

/-- Whether a route still has to answer the triggers of a source. -/
def undecided (s : State) (src : Nat) : Bool :=
  s.routes.any fun p =>
    !reRemoves p.2.entry && reSource p.2.entry == src && p.2.cls == 1 && p.2.state != .shed &&
    !classPending s p.1 && !p.2.told

/-- Triggers every direct route has answered are forgotten. -/
def pruneTriggers (s : State) : State := { s with triggers := s.triggers.filter fun t => undecided s t.1 }

/-- CLASS_CHANGE (R210). -/
def execClassChange (d : BitVec 16) (s : State) : Result := .next (pruneTriggers (decideClass s d.toNat))

/-- Whether a demoted route may return to direct (R206, R212). -/
def mayRestore (s : State) (d : Nat) : Bool :=
  let r := getRoute s d
  !reRemoves r.entry && r.state == .active && r.cls == 2 && r.demoted && reClass r.entry == 0 &&
  !reNoRestore r.entry && !s.updating && !classPending s d && directButTiming s r.entry && coTimed s (reSource r.entry) d

/-- RESTORE_TIMER (R212): the direct conditions have held for 10 s. -/
def execRestoreTimer (d : BitVec 16) (s : State) : Result :=
  if mayRestore s d.toNat then .next (scheduleClass s d.toNat 1 3) else .next s

/-- LOSS_HOLD of a route's source, in nanoseconds, and none where it never expires; a source without a contract has the default
of 2 s (R133, R213). -/
def lossHoldOf (s : State) (src : Nat) : Option Nat :=
  match (getSource s src).contract with
  | some c => ctLossHold c
  | none => some 2000000000

/-- HELD_LOSS_HOLD_EXPIRED (R213): from now on the destination sends black. -/
def execHeldLossHoldExpired (d : BitVec 16) (s : State) : Result :=
  let r := getRoute s d.toNat
  if r.state = .held ∧ (lossHoldOf s (reSource r.entry)).isSome then .next (setRoute s d.toNat { r with heldBlack := true }) else .next s

/-- Held routes in the order they are served (R213): ENERGY_CLASS, PRIORITY from the highest, destination. -/
def heldBefore (s : State) (a b : Nat) : Bool :=
  let x := (getRoute s a).entry
  let y := (getRoute s b).entry
  decide (reEnergy x < reEnergy y) ||
  (reEnergy x == reEnergy y && (decide (rePriority y < rePriority x) || (rePriority x == rePriority y && decide (a < b))))

def insertHeld (s : State) (d : Nat) : List Nat → List Nat
  | [] => [d]
  | x :: t => if heldBefore s d x then d :: x :: t else x :: insertHeld s d t

def heldRoutes (s : State) : List Nat :=
  ((s.routes.filter fun p =>
    p.2.state == .held && 1 ≤ p.2.heldCause && p.2.heldCause ≤ 3 && !reRemoves p.2.entry).map (·.1)).foldr (insertHeld s) []

/-- Retry the promotion of one held route. -/
def retryHeld (s : State) (d : Nat) : State :=
  if s.updating || classPending s d || !formatKnown s (reSource (getRoute s d).entry) then s
  else
    match tryPromote s d with
    | .inl s' => s'
    | .inr _ => s

end Sys2Proof.Machine
end

