-- ==== Sys2Proof/Machine/CrusherCmds.lean ====
section
/-! DEFINITION. The Crusher pool (08): spares (R243), migration (R250-R253), the scheduling commands (R255, R256) and
HELD_RETRY (R213, R243, R250). -/

namespace Sys2Proof.Machine

def engines (s : State) : List Nat := List.range (engineCount s)

/-! ### Spares (R243) -/

/-- Engines a spare may be made of: in service, with no context, and no spare yet. -/
def sparable (s : State) : List Nat :=
  (engines s).filter fun k => inService s k && (contextsOn s k).isEmpty && !(getCrusher s k).spare

/-- The next spare: non-derated first, the highest number first. -/
def nextSpare (s : State) : Option Nat :=
  match ((sparable s).filter fun k => !(getCrusher s k).derated).getLast? with
  | some k => some k
  | none => (sparable s).getLast?

def spareCount (s : State) : Nat := ((engines s).filter fun k => (getCrusher s k).spare).length

/-- Make an engine a spare and power it. -/
def makeSpare (s : State) (k : Nat) : State := powerEngine (setCrusher s k { getCrusher s k with spare := true }) k

/-- Power spares until there are SPARES of them, as far as engines and the ledger allow. -/
def fillSpares (s : State) : Nat → State
  | 0 => s
  | fuel + 1 =>
    if s.spares ≤ spareCount s then s
    else
      match nextSpare s with
      | none => s
      | some k => if (currentNack s (makeSpare s k) 0xFFFF).isSome then s else fillSpares (makeSpare s k) fuel

/-- The Foreman replaces spares of its own accord, in HELD_RETRY: one POWER entry for each it powers (R511). -/
def replenish (s : State) : State :=
  let t := fillSpares s 8
  ((engines t).filter fun k => (getCrusher t k).spare && !(getCrusher s k).spare).foldl
    (fun u k => autoEntry u 6 2 (0x20 + k) (getDomain u (0x20 + k)).epoch) t

/-- An engine that takes an assignment is a spare no more. -/
def unspare (s : State) (k : Nat) : State :=
  if (getCrusher s k).spare then setCrusher s k { getCrusher s k with spare := false } else s

/-- Spares beyond SPARES go back: derated ones first, then from the lowest number (log entry 20). -/
def dropSpares (s : State) : State :=
  let all := (engines s).filter fun k => (getCrusher s k).spare
  let order := (all.filter fun k => (getCrusher s k).derated) ++ all.filter fun k => !(getCrusher s k).derated
  (order.take (all.length - s.spares)).foldl (fun s k => settleDomain (unspare s k) (0x20 + k)) s

/-- SPARES_READY: spares powered now. -/
def sparesReady (s : State) : Nat :=
  ((engines s).filter fun k => (getCrusher s k).spare && (getDomain s (0x20 + k)).state == .on).length

/-! ### Migration (R250-R253) -/

/-- The context of `d` with a migration to engine `k` scheduled, at the first frame whose work period begins at least
1 ms away (R251). -/
def withMigration (s : State) (d k gen : Nat) : State :=
  match getContext s d with
  | none => s
  | some x => setContext s d { x with
      migration := some { engine := k, frame := firstFrame s d (s.now + ms) + 1, gen := gen }, blocked := false, deferred := false }

/-- The engine a migration of `d` goes to (R250): none derated, then any, the present engine apart. -/
def migrationTarget (s : State) (d : Nat) (x : Context) : Option Nat :=
  let pick := fun (derated : Bool) => chooseEngine s (fun k => k != x.engine && (getCrusher s k).derated == derated)
    (fun k => withMigration s d k 0)
  match pick false with
  | some k => some k
  | none => pick true

/-- The new engine is taken and powered. -/
def landMigration (s : State) (d k gen : Nat) : State := unspare (powerEngine (withMigration s d k gen) k) k

/-- The refusal of a migration of `d` to engine `k`: room, bandwidth, current. -/
def migrationNack (s : State) (d : Nat) (k : Option Nat) : Option Nack :=
  match k with
  | none => some { status := stNO_ENGINE, object := d, shortfall := 1 }
  | some k =>
    let t := landMigration s d k 0
    firstOf [need (engineFits t k) { status := stNO_ENGINE, object := d, shortfall := 1 },
             forcedOffNack s (0x20 + k), resourceNack s t d]

/-- Schedule a migration under the generation just made: the context, the engines' events, and its place in the queue.
CRUSHER.SERVICE queues no change of its own. -/
def scheduleMigration (s : State) (d k : Nat) (change : Option Change) : State :=
  match getContext s d with
  | none => s
  | some x =>
    let s := landMigration s d k s.fm.gen
    let s := match change with
      | some v => enqueue s v
      | none => s
    let s := crusherEvent s x.engine 6 x.placement d
    crusherEvent s k 5 ((x.placement + 1) % 256) d

/-- The queued change of a migration the Foreman decides, and of one a command orders. -/
def foremanMigration (s : State) (d : Nat) : Change :=
  { gen := s.fm.gen, origin := originForeman, anchor := d, remaining := [d] }

def commandMigration (s : State) (c : Cmd) (d : Nat) : Change :=
  { gen := s.fm.gen, opcode := c.opcode, channel := c.ch, origin := c.port.num, seq := c.seq, anchor := d
    remaining := [d] }

/-- Frame of a scheduled migration of `d`. -/
def migrationFrame (s : State) (d : Nat) : Nat :=
  match (getContext s d).bind (·.migration) with
  | some m => m.frame
  | none => 0

/-- The Foreman migrates an assignment of its own accord, or counts it blocked (R250). During an update the decision is deferred
(R35). -/
def autoMigrate (s : State) (d : Nat) : State :=
  match getContext s d with
  | none => s
  | some x =>
    if x.migration.isSome then s
    else if s.updating then setContext s d { x with deferred := true }
    else
      let k := migrationTarget s d x
      match k, migrationNack s d k with
      | some j, none =>
        let detail := x.engine + 256 * j + 65536 * ((x.placement + 1) % 256)
        let before := s
        let s := autoEntry s 4 1 d detail
        recordDelta before (scheduleMigration s d j (some (foremanMigration s d)))
      | _, _ =>
        if x.blocked then s
        else
          let v := getConv s d
          setConv (setContext s d { x with blocked := true }) d { v with blocked := satInc 32 v.blocked }

/-- Migrations that an update deferred are decided once the new image has taken over (R35, R36). -/
def deferredMigrations (s : State) : State :=
  (s.contexts.filter fun p => p.2.deferred).foldl (fun s p => match getContext s p.1 with
    | some x => autoMigrate (setContext s p.1 { x with deferred := false }) p.1
    | none => s) s

/-! ### CRUSHER commands: scheduling (R255, R256) -/

/-- Loads in tenths of a megapixel a second, rounded up. -/
def tenths (n : Nat) : Nat := ceilDiv n 100000

/-- STATE of an engine (R255). -/
def engineState (s : State) (k : Nat) : Nat :=
  if engineCount s ≤ k then 5
  else if !(contextsOn s k).isEmpty then 2
  else if (getCrusher s k).withdrawn then 4
  else if (getCrusher s k).spare then 3
  else if powered s (0x20 + k) then 1 else 0

def engineFlags (s : State) (k : Nat) : Nat := flag (getCrusher s k).derated + 2 * flag (engineMotion s k)

/-- One engine entry of CRUSHER.POOL_STATUS. -/
def engineEntry (s : State) (k : Nat) : Bytes :=
  if engineCount s ≤ k then le 1 5 ++ zeros 15
  else
    let x := getCrusher s k
    le 1 (engineState s k) ++ le 1 (engineFlags s k) ++ le 1 (contextsOn s k).length ++ zeros 1 ++
    le 2 (if x.derated then 4500 else 6000) ++ le 2 (tenths (engineLoad s k).1) ++ le 2 (tenths (engineLoad s k).2) ++
    le 2 (min x.late 65535) ++ zeros 4

/-- CRUSHER.POOL_STATUS. -/
def defCrusherPoolStatus : CommandDef where
  opcode := 0x0601
  lenOk c := c.len == 0
  run s _ :=
    let on := (engines s).filter fun k => !(getCrusher s k).withdrawn
    readDone s (le 1 s.spares ++ le 1 (sparesReady s) ++ le 1 on.length ++
      le 1 ((engines s).filter fun k => (getCrusher s k).derated).length ++ le 2 (sumOf ((engines s).map fun k => (contextsOn s k).length)) ++
      le 2 (s.contexts.filter fun p => p.2.migration.isSome).length ++ le 8 s.now ++
      (List.range 32).flatMap (engineEntry s))

def execCrusherPoolStatus (ch : Fin 32) (s : State) : Result := .next (runCommand defCrusherPoolStatus ch s)

/-- Late frames in the window of a context. -/
def lateWindow (x : Context) : Nat := (x.window.filter id).length

/-- One context entry of CRUSHER.STATUS. -/
def contextEntry (s : State) (d : Nat) (x : Context) : Bytes :=
  let f := contextSource s x.source
  let g := destFormat s d
  let e := x.entry
  let chase := !reStable e && !isHostSource x.source && !isPattern x.source
  le 2 d ++ le 2 x.source ++ le 1 x.placement ++
  le 1 (flag (interpolating f g (reFrc e)) + 2 * flag (deinterlaces f g) +
    4 * flag (ratesDiffer f g && reFrc e == 2) + 8 * flag chase) ++
  le 1 (reFrc e) ++ le 1 (reTaps e) ++ le 2 (tenths (contextLoad s d x).1) ++ le 2 (tenths (contextLoad s d x).2) ++
  le 1 (lateWindow x) ++ zeros 1 ++ le 4 (ceilDiv (contextReads s d e) 1000) ++ le 4 (ceilDiv (contextWrites s d) 1000) ++
  le 8 x.lastFrame ++ zeros 2

/-- CRUSHER.STATUS. -/
def defCrusherStatus : CommandDef where
  opcode := 0x0602
  lenOk c := c.len == 4
  check s c := firstOf [need (decide (u8 c.p 0 < engineCount s)) (badArg 0), need (zeroAt c.p 1 3) (badArg 1)]
  run s c :=
    let k := u8 c.p 0
    let cs := (contextsOn s k).take 4
    readDone s (le 1 k ++ le 1 (engineState s k) ++ le 1 (engineFlags s k) ++ le 1 (contextsOn s k).length ++
      le 2 (tenths (engineLoad s k).1) ++ le 2 (tenths (engineLoad s k).2) ++ le 8 s.now ++
      cs.flatMap (fun p => contextEntry s p.1 p.2) ++ zeros (32 * (4 - cs.length)))

def execCrusherStatus (ch : Fin 32) (s : State) : Result := .next (runCommand defCrusherStatus ch s)

/-- CRUSHER.COUNTERS. -/
def defCrusherCounters : CommandDef where
  opcode := 0x0603
  lenOk c := c.len == 4
  check s c := destNack s c
  run s c :=
    let v := getConv s (u16 c.p 0)
    readDone s (le 2 (u16 c.p 0) ++ zeros 6 ++ le 8 v.delivered ++ le 4 v.late ++ le 4 v.stale ++ le 4 v.repeats ++
      le 4 v.migrations ++ le 4 v.blocked ++ zeros 4 ++ le 8 s.now)

def execCrusherCounters (ch : Fin 32) (s : State) : Result := .next (runCommand defCrusherCounters ch s)

/-- The state CRUSHER.POLICY gives. -/
def policyTakes (s : State) (n : Nat) : State :=
  let s := { s with spares := n }
  if spareCount s ≤ n then fillSpares s 8 else dropSpares s

/-- Enough spares, but the ledger left out: what NO_ENGINE asks. -/
def sparesShort (s : State) (n : Nat) : Nat := n - spareCount s - (sparable s).length

/-- The spares a raise would power, whether or not the ledger takes them. -/
def forceSpares (s : State) : Nat → State
  | 0 => s
  | n + 1 =>
    match nextSpare s with
    | some k => forceSpares (makeSpare s k) n
    | none => s

/-- CRUSHER.POLICY. -/
def defCrusherPolicy : CommandDef where
  opcode := 0x0604
  flags := flagsChange
  lenOk c := c.len == 4
  check _ c := firstOf [need (decide (u8 c.p 0 ≤ 8)) (badArg 0), need (zeroAt c.p 1 3) (badArg 1)]
  admission s c :=
    firstOf
      [need (decide (u8 c.p 0 ≤ s.spares) || sparesShort s (u8 c.p 0) == 0)
        { status := stNO_ENGINE, shortfall := sparesShort s (u8 c.p 0) },
       if u8 c.p 0 ≤ s.spares then none
       else currentNack s (forceSpares { s with spares := u8 c.p 0 } (u8 c.p 0 - spareCount s)) 0xFFFF]
  run s c :=
    let s' := policyTakes (commit s c 0xFFFF) (u8 c.p 0)
    if sparesReady s' < spareCount s' then { state := s', wait := some .spares, effect := some s.now }
    else { state := s', effect := some s.now }

def execCrusherPolicy (ch : Fin 32) (s : State) : Result := .next (runCommand defCrusherPolicy ch s)

/-- The engine a CRUSHER.MIGRATE goes to. -/
def migrateEngine (s : State) (c : Cmd) : Option Nat :=
  if u8 c.p 2 = 0xFF then (getContext s (u16 c.p 0)).bind (migrationTarget s (u16 c.p 0)) else some (u8 c.p 2)

/-- The Crushers that a migration of `d` gives descriptors: the one it leaves and the one it goes to (R92). -/
def migrationUnits (s : State) (d : Nat) (k : Option Nat) : List Nat :=
  (getContext s d).toList.map (fun x => crusherUnit x.engine) ++ k.toList.map crusherUnit

/-- CRUSHER.MIGRATE (R256). -/
def defCrusherMigrate : CommandDef where
  opcode := 0x0605
  flags := flagsChange
  lenOk c := c.len == 4
  check s c :=
    firstOf
      [need (validDest s.product (u16 c.p 0) && (getContext s (u16 c.p 0)).isSome) (badArg 0),
       need (u8 c.p 2 == 0xFF || (decide (u8 c.p 2 < engineCount s) && !(getCrusher s (u8 c.p 2)).withdrawn &&
         ((getContext s (u16 c.p 0)).map (·.engine)) != some (u8 c.p 2))) (badArg 2),
       need (zeroAt c.p 3 1) (badArg 3)]
  admission s c :=
    firstOf
      [migrationNack s (u16 c.p 0) (migrateEngine s c),
       need (((getContext s (u16 c.p 0)).bind (·.migration)).isNone) { status := stBUSY_DRAIN, object := u16 c.p 0 },
       queueNack s (migrationUnits s (u16 c.p 0) (migrateEngine s c))]
  run s c :=
    let d := u16 c.p 0
    match migrateEngine s c with
    | none => { state := s }
    | some k =>
      let s' := commitLater s c d
      let s' := (migrationUnits s d (some k)).foldl (fun s u => tagUnit s u d)
        (scheduleMigration s' d k (some (commandMigration s' c d)))
      queuedDone s' c { late := false, armed := true, time := 0 } (some (migrationFrame s' d))

def execCrusherMigrate (ch : Fin 32) (s : State) : Result := .next (runCommand defCrusherMigrate ch s)

/-- Migrate every context of engine `k` that is being withdrawn; the first refusal stops it. A context that is only to move
there goes to another engine under the generation of the migration it has. -/
def evacuate (s : State) (k : Nat) : List Nat → State × Option Nack
  | [] => (s, none)
  | d :: t =>
    match getContext s d with
    | none => evacuate s k t
    | some x =>
      let bound := (x.migration.filter fun m => m.engine == k).map (·.gen)
      if x.migration.isSome ∧ bound.isNone then evacuate s k t
      else
        let s := match bound with
          | some _ => crusherEvent (setContext s d { x with migration := none }) k 4 ((x.placement + 1) % 256) d
          | none => s
        let j := migrationTarget s d x
        match j, migrationNack s d j with
        | some j, none =>
          match bound with
          | some gen => evacuate (crusherEvent (landMigration s d j gen) j 5 ((x.placement + 1) % 256) d) k t
          | none => evacuate (scheduleMigration s d j none) k t
        | _, n => (s, n)

/-- Destinations whose contexts run on an engine, or are to move there. -/
def contextDests (s : State) (k : Nat) : List Nat := (contextsOn s k).map (·.1)

/-- A withdrawal in its first step: no new assignment, no spare. -/
def withdrawEngine (s : State) (k : Nat) : State :=
  setCrusher s k { getCrusher s k with withdrawn := true, spare := false }

/-- A command that waits on the service state of an engine (R95). -/
def serviceBusy (s : State) (k : Nat) : Bool :=
  s.channels.any fun p => (p.2.waiting.map (·.cause)) == some (.service k)

/-- CRUSHER.SERVICE (R256). -/
def defCrusherService : CommandDef where
  opcode := 0x0606
  flags := flagsChange
  lenOk c := c.len == 4
  check s c :=
    firstOf [need (decide (u8 c.p 0 < engineCount s)) (badArg 0), need (decide (u8 c.p 1 ≤ 1)) (badArg 1),
             need (zeroAt c.p 2 2) (badArg 2)]
  admission s c :=
    let k := u8 c.p 0
    firstOf
      [if u8 c.p 1 = 0 then (evacuate (withdrawEngine (advance s) k) k (contextDests s k)).2 else none,
       need (!serviceBusy s k) { status := stBUSY_DRAIN, object := 0x20 + k }]
  run s c :=
    let k := u8 c.p 0
    let s' := commit s c 0xFFFF
    if u8 c.p 1 = 1 then
      let was := (getCrusher s' k).withdrawn
      let s' := setCrusher s' k { getCrusher s' k with withdrawn := false }
      { state := if was then crusherEvent s' k 9 0 0xFFFF else s', effect := some s.now }
    else
      let s' := crusherEvent (evacuate (withdrawEngine s' k) k (contextDests s k)).1 k 8 0 0xFFFF
      if (contextDests s' k).isEmpty then { state := settleService s' k, effect := some s.now }
      else { state := s', wait := some (.service k) }

def execCrusherService (ch : Fin 32) (s : State) : Result := .next (runCommand defCrusherService ch s)

/-- CRUSHER_IDLE_TIMEOUT (R242): an engine with no context for 10 s begins its power-down, and the journal says so. -/
def execCrusherIdleTimeout (k : Fin 32) (s : State) : Result :=
  let d := 0x20 + k.val
  let x := getDomain s d
  if x.idle && x.mode == 0 && !domainNeeded s d && powered s d then
    .next (closeDomain (autoEntry (setDomain s d { x with idle := false }) 6 1 d x.epoch) d)
  else .next s

/-! ### HELD_RETRY (R213, R243, R250) -/

/-- Contexts whose migration is blocked, and those left on a withdrawn engine (log entry 20). -/
def blockedMigrations (s : State) : List Nat :=
  (s.contexts.filter fun p =>
    p.2.migration.isNone && (p.2.blocked || (getCrusher s p.2.engine).withdrawn)).map (·.1)

/-- HELD_RETRY: held routes in their order, then blocked migrations, then spares. -/
def execHeldRetry (s : State) : Result :=
  let s := (heldRoutes s).foldl retryHeld s
  .next (replenish ((blockedMigrations s).foldl autoMigrate s))

end Sys2Proof.Machine
end

