-- ==== Sys2Proof/Machine/CrusherProc.lean ====
section
/-! DEFINITION. Inside a Crusher (09): the stages of a conversion, tables and profiles (R259-R282), and timecode across a
conversion (R269, R270). -/

namespace Sys2Proof.Machine

/-! ### Profiles (R260) -/

def pfColour (p : Bytes) : Nat := u8 p 2
def pfAspect (p : Bytes) : Nat := u8 p 3
def pfDeint (p : Bytes) : Nat := u8 p 4
def pfTc (p : Bytes) : Nat := u8 p 5
def pfBank (p : Bytes) : Nat := u8 p 6
def pfLutIn (p : Bytes) : Nat := u16 p 8
def pfLut3d (p : Bytes) : Nat := u16 p 10
def pfLutOut (p : Bytes) : Nat := u16 p 12

/-- COLOUR, TRANSFER and RANGE of two formats are equal (R275). -/
def sameColour (f g : Bytes) : Bool := sub f 8 3 == sub g 8 3

/-- Whether the colour stage runs (R275). -/
def colourRuns (prof f g : Bytes) : Bool :=
  match pfColour prof with
  | 0 => !sameColour f g
  | 1 => true
  | _ => false

/-- The picture is as large and of the same aspect: the scale stage is bypassed (R257, R263). -/
def sameSize (f g : Bytes) : Bool := fmtWidth f == fmtWidth g && fmtHeight f == fmtHeight g

/-- STAGES (R282): chroma up, deinterlace, temporal, colour, scale, chroma down. -/
def stagesOf (prof f g : Bytes) (frc : Nat) : Nat :=
  flag (fmtSampling f != 1) + 2 * flag (deinterlaces f g) + 4 * flag (ratesDiffer f g && frc != 0) +
  8 * flag (colourRuns prof f g) + 16 * flag (!sameSize f g) + 32 * flag (fmtSampling g != 1)

/-! ### Tables and profiles -/

/-- Key of a host table (R276): 1D slots, 3D slots from 0x100, banks from 0x200. -/
def tableKey (kind slot : Nat) : Nat := 256 * kind + slot

/-- Length a table of a kind has (R280). -/
def tableLength (kind taps : Nat) : Nat :=
  match kind with
  | 0 => 24576
  | 1 => 215622
  | _ => 256 * taps

/-- Converted routes, in force or admitted, that name a profile. -/
def profileUsers (s : State) (p : Nat) : List (Nat × Bytes) :=
  (Tab.keys s.routes).flatMap fun d =>
    ((routeClaims s d).filter fun x => x.2 == 3 && reProfile x.1 == p).map fun x => (d, x.1)

/-- Any route in force or admitted that names a profile (R282). -/
def profileNamed (s : State) (p : Nat) : Bool :=
  (Tab.keys s.routes).any fun d => (routeClaims s d).any fun x => reProfile x.1 == p

/-- Contexts whose profile is `p`. -/
def profileContexts (s : State) (p : Nat) : List Nat :=
  (s.contexts.filter fun x => reProfile x.2.entry == p).map (·.1)

/-- Whether a profile uses a host table. -/
def usesTable (prof : Bytes) (key : Nat) : Bool :=
  (pfBank prof == key - 0x200 && decide (0x200 ≤ key)) ||
  (pfColour prof == 1 && ((decide (key < 64) && (pfLutIn prof == key || pfLutOut prof == key)) ||
    (decide (0x100 ≤ key) && pfLut3d prof + 0x100 == key)))

/-- Contexts that use a host table. -/
def tableContexts (s : State) (key : Nat) : List Nat :=
  (s.contexts.filter fun x => usesTable (profileBytes s (reProfile x.2.entry)) key).map (·.1)

/-- Slots of a kind the host may load. -/
def hostSlot (kind slot : Nat) : Bool :=
  match kind with
  | 0 => decide (slot < 64)
  | 1 => decide (slot < 16)
  | _ => decide (1 ≤ slot) && decide (slot < 16)

/-- First bad 3D node (R281): an index below `n` whose bits 15:12 are set. -/
def badNode (b : Bytes) (n : Nat) : Option Nat :=
  (List.range n).find? fun i => (List.range 3).any fun c => decide (4096 ≤ u16 b (6 * i + 2 * c))

/-- First bad phase of a bank: its coefficients do not sum to 16,384; the chroma set counts from 64. -/
def badPhase (b : Bytes) (taps : Nat) : Option Nat :=
  (List.range 128).find? fun p =>
    ((List.range taps).foldl (fun (n : Int) j => n + signed 2 (u16 b (2 * (taps * p + j)))) 0) != 16384

/-- The check of the payload both table commands take. -/
def tableNack (c : Cmd) (builtin : Bool) : Option Nack :=
  let kind := u8 c.p 0
  firstOf
    [need (decide (kind ≤ 2)) (badArg 0),
     need (hostSlot kind (u8 c.p 1) || (builtin && decide (0x80 ≤ u8 c.p 1))) (badArg 1),
     need (if kind = 2 then u8 c.p 2 == 4 || u8 c.p 2 == 8 || u8 c.p 2 == 12 else u8 c.p 2 == 0) (badArg 2),
     need (zeroAt c.p 3 1) (badArg 3),
     need (u32 c.p 4 % 4 == 0) (badArg 4),
     need (u32 c.p 8 == tableLength kind (u8 c.p 2)) (badArg 8),
     need (decide (u32 c.p 4 + u32 c.p 8 ≤ stagingSize)) (badArg 4),
     need (zeroAt c.p 12 4) (badArg 12)]

/-- Data of a load, from the staging area of the port that rang. -/
def stagedData (s : State) (c : Cmd) : Bytes := storeRead s (stagingBase c.port + u32 c.p 4) (u32 c.p 8)

/-- The content checks of a load (R281). -/
def contentNack (s : State) (c : Cmd) : Option Nack :=
  let b := stagedData s c
  match u8 c.p 0 with
  | 1 => (badNode b 35937).map fun i => { status := stBAD_ARGUMENT, item := i }
  | 2 => (badPhase b (u8 c.p 2)).map fun i => { status := stBAD_ARGUMENT, item := i }
  | _ => none

/-- A bank named by a profile of a route keeps its tap count (R281). -/
def tapsNack (s : State) (c : Cmd) : Option Nack :=
  let used := s.profiles.any fun p => profileNamed s p.1 && pfBank p.2 == u8 c.p 1
  need (u8 c.p 0 != 2 || !used || bankTaps s (u8 c.p 1) == 0 || bankTaps s (u8 c.p 1) == u8 c.p 2) (badArg 2)

/-- A change of a table or profile: in force at once where no context uses it, and otherwise as the last one switches
(R277). -/
def changeTable (s : State) (c : Cmd) (key : Nat) (profile : Bool) (data : Option Bytes) (taps : Nat) (users : List Nat) :
    Done :=
  let s' := commit s c 0xFFFF
  let t : TableChange := { gen := s'.fm.gen, key := key, profile := profile, data := data, taps := taps, waitingOn := users }
  let s' := settleTables { s' with tableChanges := s'.tableChanges ++ [t] }
  if users.isEmpty then { state := s', effect := some s.now } else { state := s', wait := some (.tables s'.fm.gen) }

/-- BUSY_DRAIN while a change of the same slot or profile is pending (R277). -/
def tableBusy (s : State) (key : Nat) (profile : Bool) : Option Nack :=
  need (!s.tableChanges.any fun t => t.key == key && t.profile == profile) { status := stBUSY_DRAIN }

/-- CRUSHER.TABLE_LOAD (R277, R281). -/
def defCrusherTableLoad : CommandDef where
  opcode := 0x0610
  flags := flagsChange
  lenOk c := c.len == 16
  check s c := firstOf [tableNack c false, contentNack s c, tapsNack s c]
  admission s c := tableBusy s (tableKey (u8 c.p 0) (u8 c.p 1)) false
  run s c :=
    let key := tableKey (u8 c.p 0) (u8 c.p 1)
    changeTable s c key false (some (stagedData s c)) (u8 c.p 2) (tableContexts s key)

def execCrusherTableLoad (ch : Fin 32) (s : State) : Result := .next (runCommand defCrusherTableLoad ch s)

/-- The coefficients of phase `p` of a built-in bank (R262), which the manual does not list: any that sum to 16,384, the first
being what the others leave (log entry 24). -/
def builtinPhase (slot taps p : Nat) : List Int :=
  let raw := fun (j : Nat) => signed 2 ((Config.builtinTable (tableKey 2 slot) (2 * (taps * p + j))).toNat +
    256 * (Config.builtinTable (tableKey 2 slot) (2 * (taps * p + j) + 1)).toNat)
  let others := (List.range (taps - 1)).map fun j => raw (j + 1)
  let first := 16384 - others.foldl (· + ·) 0
  if -32768 ≤ first ∧ first ≤ 32767 then first :: others else 16384 :: List.replicate (taps - 1) 0

/-- Bytes of a built-in table, whose contents the manual does not list: a bank's phases sum to 16,384, and a 3D node has twelve bits
(log entry 24). -/
def builtinBytes (kind slot n : Nat) : Bytes :=
  let free := fun (i : Nat) => Config.builtinTable (tableKey kind slot) i
  match kind with
  | 0 => (List.range n).map free
  | 1 => (List.range n).map fun i => if i % 2 = 1 then free i &&& 0x0F else free i
  | _ => (List.range 128).flatMap fun p => (builtinPhase slot (n / 256) p).flatMap fun c => le 2 (c % 65536).toNat

/-- Bytes of a table: a host slot's, or a built-in one. -/
def tableBytes (s : State) (kind slot n : Nat) : Bytes :=
  if slot < 0x80 then (Tab.get s.tables (tableKey kind slot) { taps := 0, data := [] }).data else builtinBytes kind slot n

/-- CRUSHER.TABLE_READ (R281). -/
def defCrusherTableRead : CommandDef where
  opcode := 0x0611
  lenOk c := c.len == 16
  check s c :=
    let slot := u8 c.p 1
    let key := tableKey (u8 c.p 0) slot
    firstOf
      [tableNack c true,
       need (decide (0x80 ≤ slot) || Tab.has s.tables key) (badArg 1),
       need (u8 c.p 0 != 2 || (if slot < 0x80 then bankTaps s slot == u8 c.p 2
         else bankTaps s slot == 0 || bankTaps s slot == u8 c.p 2)) (badArg 2)]
  run s c :=
    { state := storeWrite s (stagingBase c.port + u32 c.p 4) (tableBytes s (u8 c.p 0) (u8 c.p 1) (u32 c.p 8)) }

def execCrusherTableRead (ch : Fin 32) (s : State) : Result := .next (runCommand defCrusherTableRead ch s)

/-- Whether a 1D or 3D LUT field of a TABLES profile names a slot that may be named: identity, built-in, or loaded. -/
def lutOk (s : State) (kind v : Nat) : Bool :=
  v == 0xFFFF || (decide (0x80 ≤ v) && decide (v ≤ 0xFF)) || (hostSlot kind v && Tab.has s.tables (tableKey kind v))

/-- The checks of a profile that is set (R260, R282). Reserved bits and bytes must be 0 in every mode (R11). -/
def profileNack (s : State) (p : Bytes) : Option Nack :=
  let tables := pfColour p == 1
  firstOf
    ([need (decide (1 ≤ u16 p 0) && decide (u16 p 0 ≤ 255)) (badArg 0), need (decide (u8 p 7 < 4)) (badArg 7),
      need (zeroAt p 14 2) (badArg 14)] ++
      (if bit (u8 p 7) 1 then []
       else
        [need (decide (pfColour p ≤ 2)) (badArg 2), need (decide (pfAspect p ≤ 2)) (badArg 3),
         need (decide (pfDeint p ≤ 2)) (badArg 4), need (decide (pfTc p ≤ 1)) (badArg 5),
         need (decide (pfBank p ≤ 15) || (decide (0x80 ≤ pfBank p) && decide (pfBank p ≤ 0x82))) (badArg 6),
         need (!tables || pfBank p == 0 || bankTaps s (pfBank p) != 0) (badArg 6),
         need (!tables || lutOk s 0 (pfLutIn p)) (badArg 8), need (!tables || lutOk s 1 (pfLut3d p)) (badArg 10),
         need (!tables || lutOk s 0 (pfLutOut p)) (badArg 12)] ++
        (List.range 9).map fun i =>
          need (!tables || (decide (-524288 ≤ signed 4 (u32 p (16 + 4 * i))) && decide (signed 4 (u32 p (16 + 4 * i)) ≤ 524288)))
            (badArg (16 + 4 * i))))

/-- CRUSHER.PROFILE_SET (R260, R282). -/
def defCrusherProfileSet : CommandDef where
  opcode := 0x0612
  flags := flagsChange
  lenOk c := c.len == 64
  check s c := profileNack s c.p
  admission s c :=
    let p := u16 c.p 0
    let taps := bankTaps s (pfBank c.p)
    firstOf
      [need (!bit (u8 c.p 7) 1 || !profileNamed s p) { status := stROUTED },
       need (bit (u8 c.p 7) 1 || taps == 0 || !(profileUsers s p).any fun x => reTaps x.2 != taps)
         { status := stFORMAT_MISMATCH },
       tableBusy s p true]
  run s c :=
    let p := u16 c.p 0
    changeTable s c p true (if bit (u8 c.p 7) 1 then none else some c.p) 0 (profileContexts s p)

def execCrusherProfileSet (ch : Fin 32) (s : State) : Result := .next (runCommand defCrusherProfileSet ch s)

/-- Profile 0 for two formats, as a TABLES or BYPASS profile (R278, R282). The manual does not fix the split: its tables are
identity or built-in slots, its coefficients any in range (log entry 24). -/
def derivedBytes (f g : Bytes) : Bytes :=
  let free := fun (i : Nat) => (Config.derivedProfile f g i).toNat
  le 2 0 ++ le 1 (if sameColour f g then 2 else 1) ++ zeros 5 ++
  (List.range 3).flatMap (fun i => le 2 (if free i % 129 = 128 then 0xFFFF else 0x80 + free i % 129)) ++ zeros 2 ++
  (List.range 9).flatMap (fun i => le 4 ((free (3 + i) % 1048577 + (4294967296 - 524288)) % 4294967296)) ++
  (List.range 3).flatMap fun i => le 4 (free (12 + i))

/-- The tables and profiles as the context of `d` has them: a change that it has switched to is in force for it (R277). -/
def viewTables (s : State) (d : Nat) : State :=
  (s.tableChanges.filter fun t => !t.waitingOn.contains d).foldl putTable s

/-- CRUSHER.PROFILE_GET. -/
def defCrusherProfileGet : CommandDef where
  opcode := 0x0613
  lenOk c := c.len == 40
  check s c :=
    let p := u16 c.p 0
    firstOf
      [need (p == 0 || Tab.has s.profiles p) (badArg 0),
       need (zeroAt c.p 2 6) (badArg 2),
       if p = 0 then firstOf [(fmtBadField (sub c.p 8 16)).map fun o => badArg (8 + o),
                              (fmtBadField (sub c.p 24 16)).map fun o => badArg (24 + o)]
       else firstOf [need (zeroAt c.p 8 16) (badArg 8), need (zeroAt c.p 24 16) (badArg 24)]]
  run s c :=
    let p := u16 c.p 0
    readDone s (if p = 0 then derivedBytes (sub c.p 8 16) (sub c.p 24 16) else sub (profileBytes s p) 0 64)

def execCrusherProfileGet (ch : Fin 32) (s : State) : Result := .next (runCommand defCrusherProfileGet ch s)

/-! ### Cadences (R264) -/

/-- CADENCE of PROC_STATUS: none until ten fields have been examined, then video, or the cadence that is locked (log entry 98). -/
def Film.shown (v : Film) : Nat := if 2 ≤ v.lock then v.lock else flag (decide (10 ≤ v.seen))

/-- One more field, and whether it broke a lock: ten consistent fields in a row lock a cadence, and PsF is always 2:2. -/
def Film.next (v : Film) (psf : Bool) (x : FieldFact) : Film × Bool :=
  let two := if psf || x.two then min 10 (v.two + 1) else 0
  let three := if x.three then min 10 (v.three + 1) else 0
  let broken := (v.lock == 2 && two == 0) || (v.lock == 3 && three == 0)
  ({ two := two, three := three, seen := min 10 (v.seen + 1)
     lock := if 2 ≤ v.lock ∧ !broken then v.lock else if two = 10 then 2 else if three = 10 then 3 else 0 }, broken)

/-- A list of fields, with how many broke a lock. -/
def Film.run (v : Film) (psf : Bool) : List FieldFact → Film × Nat
  | [] => (v, 0)
  | x :: t => ((Film.run (v.next psf x).1 psf t).1, (Film.run (v.next psf x).1 psf t).2 + flag (v.next psf x).2)

/-- The profile a context runs: the host's, or the derived one of its formats. -/
def profileInForce (s : State) (d : Nat) (x : Context) : Bytes :=
  if reProfile x.entry = 0 then derivedBytes (contextSource s x.source) (destFormat s d)
  else profileBytes s (reProfile x.entry)

/-- BANK in force: the built-in bank of TAPS where the profile leaves it (R259). -/
def bankInForce (e prof : Bytes) : Nat :=
  if reProfile e ≠ 0 ∧ pfBank prof ≠ 0 then pfBank prof
  else match reTaps e with
    | 4 => 0x80
    | 8 => 0x81
    | _ => 0x82

/-- CRUSHER.PROC_STATUS (R282). CADENCE, PHASE and FALLBACK_PERMILLE are those of the last frame, where their stage runs. -/
def procBytes (s : State) (d : Nat) (x : Context) : Bytes :=
  let s := viewTables s d
  let f := contextSource s x.source
  let g := destFormat s d
  let prof := profileInForce s d x
  let run := stagesOf (if reProfile x.entry = 0 then [] else prof) f g (reFrc x.entry)
  let v := getConv s d
  let motion := bit run 2 && reFrc x.entry == 2
  le 2 d ++ le 2 (reProfile x.entry) ++ le 1 run ++
  le 1 (if bit run 1 && pfDeint prof == 0 then x.film.shown else 0) ++
  le 1 (if bit run 2 then x.phase else 0) ++ le 1 (if motion then x.motionState else 0) ++
  le 2 (pfLutIn prof) ++ le 2 (pfLut3d prof) ++ le 2 (pfLutOut prof) ++ le 1 (bankInForce x.entry prof) ++ zeros 1 ++
  le 8 x.lastSource ++ le 4 v.sceneCuts ++ le 4 v.cadenceBreaks ++ le 4 v.tcReanchors ++
  le 2 (if motion then x.fallback else 0) ++ zeros 2 ++ le 8 s.now ++ zeros 16

def defCrusherProcStatus : CommandDef where
  opcode := 0x0614
  lenOk c := c.len == 4
  check s c := firstOf [destNack s c, need (getContext s (u16 c.p 0)).isSome (badArg 0)]
  run s c :=
    match getContext s (u16 c.p 0) with
    | none => { state := s }
    | some x => readDone s (procBytes s (u16 c.p 0) x)

def execCrusherProcStatus (ch : Fin 32) (s : State) : Result := .next (runCommand defCrusherProcStatus ch s)

/-- TABLE_SWITCH (R277): the context of `d` reaches its work period and uses the new contents. -/
def execTableSwitch (d : BitVec 16) (s : State) : Result :=
  .next (settleTables { s with
    tableChanges := s.tableChanges.map fun t => { t with waitingOn := t.waitingOn.filter (· != d.toNat) } })

/-! ### Timecode across conversion (R269, R270) -/

/-- A field of the ST 12-1 word, `n` bits at `lo` (PRESUMED, log entry 22). -/
def tcField (v : Nat) (lo n : Nat) : Nat := v / 2 ^ lo % 2 ^ n

/-- Hours, minutes, seconds and frames of an ST 12-1 word. -/
def tcParts (v : Nat) : Nat × Nat × Nat × Nat :=
  (10 * tcField v 56 2 + tcField v 48 4, 10 * tcField v 40 3 + tcField v 32 4, 10 * tcField v 24 3 + tcField v 16 4,
   10 * tcField v 8 2 + tcField v 0 4)

/-- Frames a second that a timecode counts at a rate, rounded up to a whole number. -/
def tcRate (g : Bytes) : Nat := ceilDiv (fpsNum g) (fpsDen g)

/-- Frames, or frame pairs, to a second of a destination rate, rounded up to a whole number. -/
def tcBase (g : Bytes) : Nat :=
  let fps := ceilDiv (fpsNum g) (fpsDen g)
  if 30 < fps then fps / 2 else fps

/-- Whether the count drops frames: 29.97 and 59.94. -/
def tcDrops (g : Bytes) : Bool := fpsDen g % 1001 == 0 && tcBase g == 30

/-- The flag that marks the second frame of a pair: bit 27, and bit 59 on counts of 25. -/
def tcPairBit (g : Bytes) : Nat := if tcBase g = 25 then 59 else 27

/-- Set the time fields of a word. -/
def tcBuild (v : Nat) (h m sec f : Nat) : Nat :=
  let clear := v - tcField v 0 4 - 2 ^ 8 * tcField v 8 2 - 2 ^ 16 * tcField v 16 4 - 2 ^ 24 * tcField v 24 3 -
    2 ^ 32 * tcField v 32 4 - 2 ^ 40 * tcField v 40 3 - 2 ^ 48 * tcField v 48 4 - 2 ^ 56 * tcField v 56 2
  clear + f % 10 + 2 ^ 8 * (f / 10 % 4) + 2 ^ 16 * (sec % 10) + 2 ^ 24 * (sec / 10) + 2 ^ 32 * (m % 10) +
    2 ^ 40 * (m / 10) + 2 ^ 48 * (h % 10) + 2 ^ 56 * (h / 10)

/-- The time a word shows at a rate, in 1/1200 ns: every rate's frames are whole in that unit. -/
def tcTime (g : Bytes) (w : Nat) : Nat :=
  let (h, m, sec, f) := tcParts w
  let frames := if 30 < tcRate g then 2 * f + tcField w (tcPairBit g) 1 else f
  ((3600 * h + 60 * m + sec) * tcRate g + frames) * (1200000000000 / tcRate g)

/-- The word that shows time `t`, in 1/1200 ns, at a destination rate: the last count at or before it (R270, log entry 22). -/
def tcAnchor (g : Bytes) (w t : Nat) : BitVec 64 :=
  let n := t * tcRate g / 1200000000000 % (86400 * tcRate g)
  let sec := n / tcRate g
  let pairs := decide (30 < tcRate g)
  let f := if pairs then n % tcRate g / 2 else n % tcRate g
  let f := if tcDrops g ∧ sec % 60 = 0 ∧ sec / 60 % 10 ≠ 0 ∧ f < 2 then 2 else f
  let w := w - 2 ^ 10 * tcField w 10 1 + 2 ^ 10 * flag (tcDrops g)
  let w := if pairs then w - 2 ^ tcPairBit g * tcField w (tcPairBit g) 1 + 2 ^ tcPairBit g * (n % tcRate g % 2) else w
  BitVec.ofNat 64 (tcBuild w (sec / 3600) (sec / 60 % 60) (sec % 60) f)

/-- How far two times of day are apart, in 1/1200 ns. -/
def tcApart (a b : Nat) : Nat :=
  let day := 86400 * 1200000000000
  let x := (a + day - b % day) % day
  min x (day - x)

/-- The next value of the regenerated count (R270). -/
def tcNext (g : Bytes) (v : BitVec 64) : BitVec 64 :=
  let w := v.toNat
  let pairs := decide (30 < ceilDiv (fpsNum g) (fpsDen g))
  let pair := tcField w (tcPairBit g) 1
  if pairs ∧ pair = 0 then BitVec.ofNat 64 (w + 2 ^ tcPairBit g)
  else
    let w := if pairs then w - 2 ^ tcPairBit g else w
    let (h, m, sec, f) := tcParts w
    let (c1, f) := if tcBase g ≤ f + 1 then (1, 0) else (0, f + 1)
    let (c2, sec) := if 60 ≤ sec + c1 then (1, 0) else (0, sec + c1)
    let (c3, m') := if 60 ≤ m + c2 then (1, 0) else (0, m + c2)
    let h := (h + c3) % 24
    let f := if tcDrops g ∧ c2 = 1 ∧ m' % 10 ≠ 0 then 2 else f
    BitVec.ofNat 64 (tcBuild w h m' sec f)

end Sys2Proof.Machine
end

