-- ==== Sys2Proof/Machine/NetFlows.lean ====
section
/-! DEFINITION. ST 2110 flows as they are declared (R415-R422, R431-R437, R439): the fields of a flow, its rate, quota and
wire rate, the groups and next hops of its legs, and how a change or a move of it comes into force. -/

namespace Sys2Proof.Machine

/-! ### Fields of NET.RX_FLOW and NET.TX_FLOW (R439) -/

def fcKind (c : Bytes) : Nat := u8 c 0
def fcIndex (c : Bytes) : Nat := u8 c 1
def fcSender (c : Bytes) : Nat := u8 c 4
def fcPt (c : Bytes) : Nat := u8 c 5
def fcAssoc (c : Bytes) : Nat := u8 c 7
def fcSsrc (c : Bytes) : Nat := u32 c 8
def fcDst (c : Bytes) (j : Nat) : Nat := u32 c (12 + 4 * j)
def fcUdp (c : Bytes) (j : Nat) : Nat := u16 c (20 + 2 * j)
def fcSrc (c : Bytes) (j : Nat) : Nat := u32 c (24 + 4 * j)
def fcMargin (c : Bytes) : Nat := if u8 c 36 = 0 then 10 else u8 c 36
def fcBpm (c : Bytes) : Bool := u8 c 37 == 1

/-- Ports of a flow, leg 0 first (R429). -/
def legPorts (c : Bytes) : List Nat := ([0, 1, 2, 3] : List Nat).filter fun p => bit (fcPorts c) p

/-- Legs of a flow, by number and port. -/
def legsOf (c : Bytes) : List (Nat × Nat) := match legPorts c with
  | p :: q :: _ => [(0, p), (1, q)]
  | [p] => [(0, p)]
  | [] => []

/-- A flow as last committed: a change or a move on its way comes first. -/
def flowCommitted (x : Flow) : Bytes :=
  match x.moving with
  | some m => m.config
  | none => x.pending.getD x.config

/-- Key parts of a flow: direction, kind and index (R415). -/
def keyDir (k : Nat) : Nat := k / 1024
def keyKind (k : Nat) : Nat := k / 256 % 4
def keyIndex (k : Nat) : Nat := k % 256

/-- The unit a move of a flow is queued on: the model's own number, above every identifier of R12. -/
def flowUnit (k : Nat) : Nat := 0x20000 + k

/-- Packet time of an audio flow in nanoseconds (R343). -/
def packetTime (cfg : Bytes) : Nat := if u8 cfg 6 = 1 then 125000 else 1000000

/-- Samples of a packet, and packets of a second. -/
def packetSamples (cfg : Bytes) : Nat := if u8 cfg 6 = 1 then 6 else 48
def packetRate (cfg : Bytes) : Nat := if u8 cfg 6 = 1 then 8000 else 1000

/-- Playout offset of an audio receive flow in nanoseconds (R427): three packet times by default. -/
def playoutNs (cfg : Bytes) : Nat := if u32 cfg 40 = 0 then 3 * packetTime cfg else 1000 * u32 cfg 40

/-- LATENESS of a video receive flow in microseconds (R424). -/
def latenessUs (cfg : Bytes) : Nat := if u32 cfg 40 ≠ 0 then u32 cfg 40 else if fcSender cfg = 2 then 2000 else 1000

/-! ### Rates and quotas (R418, R420) -/

/-- Sample bytes of one row of a format under ST 2110-20; 4:2:0 carries half the chroma rows (log entry 43). -/
def rowBytes (f : Bytes) : Nat :=
  fmtWidth f * fmtDepth f * (if fmtSampling f = 1 then 6 else if fmtSampling f = 2 then 3 else 4) / 16

/-- Channels an audio flow is bound to. -/
def flowChannels (s : State) (dir index : Nat) : Nat := match bindOf s dir index with
  | some b => b.count
  | none => 0

/-- Bytes of one sample of an audio receive flow. -/
def sampleBytes (c : Bytes) : Nat := if fcSender c = 1 then 2 else 3

/-- RATE of a receive flow: as declared, or the default of its kind (R418). -/
def flowRate (s : State) (c : Bytes) : Nat :=
  if u32 c 32 ≠ 0 then u32 c 32
  else
    match fcKind c with
    | 0 =>
      let f := ctFormat (contractOf s (0x80 + fcIndex c))
      ceilDiv (105 * perSecond f (rowBytes f * fmtHeight f)) 100
    | 1 => (flowChannels s 0 (fcIndex c) * sampleBytes c * packetSamples c + 40) * packetRate c
    | _ =>
      let v := contractOf s (0x80 + fcAssoc c)
      max 125000 (perSecond (ctFormat v) (2 * ctAncQuota v))

/-- The filling rate of a leg's bucket, in hundredths of a byte per second. -/
def fillRate (s : State) (c : Bytes) : Nat := flowRate s c * (100 + fcMargin c)

/-- Depth of a leg's bucket, in 10⁻¹¹ bytes (R418). -/
def bucketDepth (s : State) (c : Bytes) : Nat :=
  let t := if fcKind c = 0 then lineNs (ctFormat (contractOf s (0x80 + fcIndex c))) else packetTime c
  max (65536 * 100000000000) (fillRate s c * t)

/-- Quota of a receive flow in the flow buffer, in bytes (R420). -/
def flowQuota (s : State) (c : Bytes) : Nat :=
  if u16 c 38 ≠ 0 then 1024 * u16 c 38
  else
    match fcKind c with
    | 0 => roundUp (ceilDiv (flowRate s c * latenessUs c) 1000000 + 65536) 1024
    | 1 => roundUp (ceilDiv (flowRate s c * playoutNs c) 1000000000 + 16384) 1024
    | _ => 65536

/-- Receive flows as committed, enabled. -/
def rxFlows (s : State) : List (Nat × Bytes) :=
  (s.flows.map fun p => (p.1, flowCommitted p.2)).filter fun p => keyDir p.1 == 0 && fcEnable p.2

/-- Send flows as committed, enabled. -/
def txFlows (s : State) : List (Nat × Bytes) :=
  (s.flows.map fun p => (p.1, flowCommitted p.2)).filter fun p => keyDir p.1 == 1 && fcEnable p.2

/-- Sum of the quotas (R420). -/
def quotaSum (s : State) : Nat := (rxFlows s).foldl (fun n p => n + flowQuota s p.2) 0

/-- R420: more than 24 MiB of quotas. -/
def quotaNack (before after : State) : Option Nack :=
  need (decide (quotaSum after ≤ 25165824) || decide (quotaSum after ≤ quotaSum before))
    { status := stNO_BANDWIDTH, shortfall := 0xFFFFFFFF }

/-! ### Traffic sent (R431-R436) -/

/-- Wire bytes a second of a send flow: a video flow while its output is enabled. Ancillary packets are not charged (log
entry 43). -/
def sendWire (s : State) (c : Bytes) : Nat :=
  match fcKind c with
  | 0 =>
    let d := 0x80 + fcIndex c
    let f := ocFormat (getOutput s d).committed
    if !outputOn s d then 0
    else if fcBpm c then
      let n := if fmtScan f = 1 then 2 else 1
      let b := rowBytes f * fmtHeight f / n
      perSecond f (n * (b + ceilDiv b 1260 * 86))
    else perSecond f (fmtHeight f * (rowBytes f + ceilDiv (rowBytes f) 1200 * 86))
  | 1 => (flowChannels s 1 (fcIndex c) * 3 * packetSamples c + 78) * packetRate c
  | _ => 0

/-- Bytes a second port `p` sends. -/
def portSend (s : State) (p : Nat) : Nat :=
  (txFlows s).foldl (fun n x => if (legPorts x.2).contains p then n + sendWire s x.2 else n) 0

/-- R436: a port sends 95 Gb/s at most. -/
def sendNack (before after : State) : Option Nack :=
  firstOf (([0, 1, 2, 3] : List Nat).map fun p =>
    let n := portSend after p
    need (decide (n ≤ 11875000000) || decide (n ≤ portSend before p))
      { status := stNO_BANDWIDTH, object := 0x48 + p, shortfall := ceilDiv (n - 11875000000) 1000000 })

/-- R442: whether a video send flow has a transport. -/
def hasTransport (s : State) (d : Nat) : Bool := !isIp d || fcEnable (flowCommitted (getFlow s (flowKey 1 0 (d - 0x80))))

/-! ### Media clocks (R422) -/

/-- C₉₀ and C₄₈ of an instant, and the first instant with a count. -/
def clock90 (t : Nat) : Nat := t * 90000 / 1000000000
def clock48 (t : Nat) : Nat := t * 48000 / 1000000000
def media90 (e : Nat) : Nat := ceilDiv (e * 1000000000) 90000
def media48 (e : Nat) : Nat := ceilDiv (e * 1000000000) 48000

/-- The media count of a flow's clock. -/
def flowClock (kind t : Nat) : Nat := if kind = 1 then clock48 t else clock90 t

/-- The 64-bit extension of a received timestamp: nearest to the count at arrival, the earlier at a distance of 2³¹. No count lies
before the epoch. -/
def extend (count stamp : Nat) : Nat :=
  let d := (stamp + 4294967296 - count % 4294967296) % 4294967296
  if d < 2147483648 ∨ count + d < 4294967296 then count + d else count + d - 4294967296

/-! ### Addresses (R411, R412, R439) -/

def isMulticast (a : Nat) : Bool := decide (0xE0000000 ≤ a) && decide (a < 0xF0000000)
def isUnicast (a : Nat) : Bool := decide (0x01000000 ≤ a) && decide (a < 0xE0000000) && a / 16777216 != 127

def npPrefix (c : Bytes) : Nat := u8 c 3
def npAddress (c : Bytes) : Nat := u32 c 4
def npGateway (c : Bytes) : Nat := u32 c 8
def npVid (c : Bytes) : Nat := u16 c 12 % 4096

/-- Whether an address lies in a port's subnet. -/
def onSubnet (c : Bytes) (a : Nat) : Bool := a / 2 ^ (32 - npPrefix c) == npAddress c / 2 ^ (32 - npPrefix c)

/-- The next hop of a unicast destination on port `p`: itself, the gateway, or none. -/
def nextHop (s : State) (p a : Nat) : Option Nat :=
  let c := (getNet s p).config
  if onSubnet c a then some a else if npGateway c = 0 then none else some (npGateway c)

/-- Next hops a port's send flows need, each once: 64 at most (R412). -/
def hopsOf (s : State) (p : Nat) : List Nat :=
  (((txFlows s).flatMap fun x =>
    (legsOf x.2).filterMap fun l =>
      if l.2 = p ∧ !isMulticast (fcDst x.2 l.1) then nextHop s p (fcDst x.2 l.1) else none).eraseDups).take 64

/-- Whether a leg's destination can be sent to: a group, or resolved. -/
def resolved (s : State) (p a : Nat) : Bool :=
  isMulticast a || (match nextHop s p a with
    | some h => (Tab.get (getNet s p).arp h {}).mac.isSome
    | none => false)

/-- The group of PTP messages, 224.0.1.129 (IEEE 1588-2019; PRESUMED, log entry 122), on a port that a candidate names (R412). -/
def ptpGroups (s : State) (p : Nat) : List Nat :=
  if s.refs.engines.any fun x => slots.any fun k =>
      ceKind (rcEntry x.2.config k) == 2 && bit (ceIndex (rcEntry x.2.config k)) p then [0xE0000181]
  else []

/-- Groups joined on a port: those of its receive flows, of the old and the new legs of a move, and those of its PTP candidates
(R412, R437). -/
def groupsOn (s : State) (p : Nat) : List Nat :=
  (ptpGroups s p ++ s.flows.flatMap fun x =>
    if keyDir x.1 ≠ 0 then []
    else
      ([x.2.config, flowCommitted x.2].filter fcEnable).flatMap fun c =>
        (legsOf c).filterMap fun l => if l.2 = p ∧ isMulticast (fcDst c l.1) then some (fcDst c l.1) else none).eraseDups

/-- Frames a port sends of its own, in UP. -/
def portSends (s : State) (p n : Nat) : State :=
  let x := getNet s p
  if x.link = .up then setNet s p { x with tx := x.tx + n } else s

/-- Joins and leaves of port `p` since `before`: two reports wait for each group joined, and a leave goes out for each one
left; next hops no longer needed leave the cache. -/
def settlePort (before s : State) (p : Nat) : State :=
  let old := groupsOn before p
  let new := groupsOn s p
  let left := old.filter fun g => !new.contains g
  let x := getNet s p
  let reports := (new.filter fun g => !old.contains g).foldl (fun t g => Tab.set t g 2) (left.foldl Tab.erase x.reports)
  let hops := hopsOf s p
  portSends (setNet s p { x with reports := reports, arp := x.arp.filter fun a => hops.contains a.1 }) p left.length

/-- Settle the joins and hops of every port. -/
def settlePorts (before s : State) : State := ([0, 1, 2, 3] : List Nat).foldl (settlePort before) s

/-! ### Changes and moves coming into force (R437, R441, R442) -/

/-- A rule change comes into force, and its command completes. -/
def flowPending (s : State) (k : Nat) : State :=
  let x := getFlow s k
  match x.pending with
  | none => s
  | some c => wake (settlePorts s (setFlow s k { x with config := c, pending := none })) (.flow k) (some s.now)

/-- A move takes effect: one more on the placement generation, and the legs that left are dropped. -/
def flowMoves (s : State) (k eff : Nat) : State :=
  let x := getFlow s k
  match x.moving with
  | none => s
  | some m =>
    let ports := legPorts m.config
    let t := setFlow s k { x with
      config := m.config, moving := none, placement := (x.placement + 1) % 256
      legs := x.legs.filter fun l => ports.contains l.1 }
    appliedOn (settlePorts s t) m.gen (flowUnit k) eff

/-- What is due on a send flow at a frame or packet boundary: `eff` is the EFFECT of a move. -/
def sendBoundary (s : State) (k eff : Nat) : State :=
  let x := getFlow s k
  if x.pending.isSome ∧ x.pendingAt ≤ s.now then flowPending s k
  else
    match x.moving with
    | some m => if m.first ≤ s.now then flowMoves s k eff else s
    | none => s

/-- A send flow whose output has gone OFF has no boundary to come: what is due on it takes effect now. -/
def sendFlush (s : State) (k eff : Nat) : State :=
  let s := if (getFlow s k).pending.isSome then flowPending s k else s
  flowMoves s k eff

/-- Send flows tied to an IP output. -/
def tiedTo (s : State) (d : Nat) : List Nat :=
  ((txFlows s).filter fun p => keyKind p.1 == 2 && fcAssoc p.2 == d - 0x80).map (·.1)

/-- An IP output has gone OFF. -/
def flushFlows (s : State) (d n : Nat) : State :=
  if !isIp d then s else (tiedTo s d).foldl (fun s k => sendFlush s k s.now) (sendFlush s (flowKey 1 0 (d - 0x80)) n)

/-- The latch cycle of frame `n` of an output, for the send flow that is the output and those tied to it. -/
def latchFlows (s : State) (d n : Nat) : State :=
  if !isIp d then s
  else
    (tiedTo s d).foldl (fun s k => sendBoundary s k s.now) (sendBoundary s (flowKey 1 0 (d - 0x80)) n)

end Sys2Proof.Machine
end

