-- ==== Sys2Proof/Machine/Outputs.lean ====
section
/-! DEFINITION. Outputs (10): OUTPUT.CONFIG and the other OUTPUT commands (R304, R305), the changes of an output's state
(R298, R299) and the events of a frame (R302). Latch cycles and frame starts follow in Latch. -/

namespace Sys2Proof.Machine

def outNum : OutState → Nat
  | .off => 0
  | .idle => 1
  | .active => 2

/-- Move an output to a state, with OUTPUT_STATE (R299). -/
def moveOutput (s : State) (d : Nat) (goal : OutState) : State :=
  let o := getOutput s d
  if o.state = goal then s
  else raise (setOutput s d { o with state := goal }) 0x130 d (le 1 (outNum o.state) ++ le 1 (outNum goal))

/-! ### Gangs (R305) -/

def quadFormat (f : Bytes) : Bool := fmtLink f == 3

/-- The outputs an OUTPUT.CONFIG configures: a gang while a quad-link format comes or goes. -/
def gangMembers (s : State) (d : Nat) (f : Bytes) : List Nat :=
  if isSdi d && (quadFormat f || quadFormat (ocFormat (getOutput s d).committed)) then [d, d + 1, d + 2, d + 3] else [d]

/-- The configuration a member takes: the gang's, the command's own, or none when a gang dissolves. -/
def memberConfig (d m : Nat) (c : Bytes) : Bytes :=
  if m = d then c else if quadFormat (ocFormat c) then le 2 m ++ sub c 2 30 else []

/-! ### OUTPUT.CONFIG (R305) -/

/-- The first bad field of a configuration. -/
def configNack (s : State) (c : Cmd) : Option Nack :=
  let d := u16 c.p 0
  let f := ocFormat c.p
  firstOf
    [need (validDest s.product d && isTimed d && !gangTail s d) (badArg 0),
     need (decide (u8 c.p 2 ≤ 1)) (badArg 2), need (decide (u8 c.p 3 ≤ 7)) (badArg 3),
     (fmtBadField f).map fun o => badArg (4 + o),
     need (!isSdi d || sdiFormat f) (badArg 4),
     need (isSdi d || fmtLink f == 0) (badArg 15),
     need (!quadFormat f || d % 4 == 0) (badArg 15),
     need (decide (u32 c.p 20 < frameNs f)) (badArg 20),
     need (decide (u8 c.p 24 ≤ 1)) (badArg 24), need (zeroAt c.p 25 1) (badArg 25),
     need (decide (u16 c.p 26 ≤ totalLines f)) (badArg 26), need (zeroAt c.p 28 4) (badArg 28)]

/-- Canvas limits of R306 on a format. -/
def canvasOk (f : Bytes) : Bool :=
  fmtLink f != 3 && fmtSampling f != 2 && decide (fmtWidth f ≤ 3840) &&
  decide (fmtWidth f * fmtHeight f * fpsNum f ≤ 497664000 * fpsDen f)

/-- Enabled Ashlars that drive `d`: while there is one, the output counts as routed (R310). -/
def drives (s : State) (d : Nat) : Bool := (ashlarDriving s d).isSome

/-- An output that is OFF and stays, or becomes, so. -/
def isOff (s : State) (d : Nat) : Bool := (getOutput s d).state == .off

/-- The shadow entries of a unit that no latch will show are overtaken (log entry 14). -/
def overtake (s : State) (d : Nat) : State :=
  let gone := s.fm.shadow.filter fun x => x.unit == d && (match x.body with
    | .output _ => true
    | _ => false)
  let s := onFm s fun f => { f with shadow := f.shadow.filter fun x => !(gone.contains x) }
  gone.foldl (fun s x => appliedOn s x.gen d (getOutput s d).frame) s

/-- The committed configuration of every member. -/
def commitConfig (s : State) (d : Nat) (c : Bytes) : State :=
  (gangMembers s d (ocFormat c)).foldl (fun s m => setOutput s m { getOutput s m with committed := memberConfig d m c }) s

/-- An OFF output that stays OFF takes its configuration at admission (R305). -/
def configOff (s : State) (d : Nat) (c : Bytes) : State :=
  let ms := gangMembers s d (ocFormat c)
  let s := commitConfig s d c
  ms.foldl (fun s m => overtake (setOutput s m { getOutput s m with config := memberConfig d m c }) m) s

/-- The class a route takes under a new format, when it changes (R297). -/
def reclassed (s : State) (d : Nat) : Option (Nat × Nat) :=
  let r := getRoute s d
  if reRemoves r.committed || reClass r.committed ≠ 0 then none
  else
    let cls := chooseClass s r.committed
    if cls = r.cls then none else some (cls, if cls = 3 then 4 else if cls = 2 then 5 else 3)

/-- The state a change of an enabled, or newly enabled, output gives, up to its journal. -/
def configOn (s : State) (c : Cmd) : State :=
  let d := u16 c.p 0
  let w := resolve s d c.kind c.target
  let ms := gangMembers s d (ocFormat c.p)
  let formatChanges := ocFormat (getOutput s d).committed != ocFormat c.p
  let removes := u8 c.p 2 == 0 && hasRoute s d
  let s := advance s
  let s := addEntry s { commandEntry s c d 0 none false with last := !removes }
  let s := enqueue s (changeOf s c d w ms)
  let frame := if isOff s d then (getOutput s d).frame else frameFor s w d d
  let s := commitConfig s d c.p
  let s := ms.foldl (fun s m => shadowFor s m (.output (memberConfig d m c.p)) w frame) s
  let s := if removes then
      let gone := le 2 d ++ le 2 0xFFFF ++ zeros 28
      let s := routeJournal s c gone 1 true
      let s := shadowFor s d (.route gone 0) w frame
      setRoute s d { getRoute s d with committed := [], gen := s.fm.gen }
    else if formatChanges then
      match reclassed s d with
      | some (cls, reason) => shadowFor s d (.classChange cls reason) w frame
      | none => s
    else s
  let s := if u8 c.p 2 = 1 ∧ isSdi d then needDomain s (0x10 + d / 8) else s
  countLate (settleDomains s [0x4C, 0x4D]) d w.late

/-- The benches that a new format of `d` lays out anew: its destination bench and the writeback of the Ashlar it drives (R175,
R310). Each with its layout. -/
def newLayouts (s : State) (d : Nat) (f : Bytes) : List (Nat × Layout) :=
  (match getContext s d with
    | some _ => [(benchKey d true, { slots := 3, frameArea := frameBytes f, ancArea := 131072, flat := true })]
    | none => []) ++
  ((Tab.keys s.ashlars).filter fun k => ashlarCharged s k && driveOf s k == d).map fun k =>
    (benchKey (0xC0 + k) false, { slots := acSlots (getAshlar s k).committed, frameArea := frameBytes f, ancArea := 0 })

/-- The routes that read the writeback of the Ashlar that `d` drives: a new format of `d` is checked against them (R310). -/
def canvasReaders (s : State) (d : Nat) : List Bytes :=
  match ashlarDriving s d with
  | some k => (entriesFrom s (0xC0 + k)).filter fun e => reDest e != d
  | none => []

/-- What a command that changes the format of an enabled output takes beside its configuration: the blocks of the benches laid out
anew, and contexts for its own route and the routes that read its canvas, where they are converted under the new format
(R297, R310). With the state, how many found no engine. -/
def configPlaced (s : State) (c : Cmd) : State × Nat :=
  let d := u16 c.p 0
  let t := commitConfig s d c.p
  if u8 c.p 2 = 0 ∨ ocFormat (getOutput s d).committed = ocFormat c.p then (s, 0)
  else
    let t := (newLayouts s d (ocFormat c.p)).foldl (fun t p => grantChange t p.1 p.2 true) t
    let r := placeUnder t (convertedEntries t ((getRoute t d).committed :: canvasReaders s d))
    ({ r.1 with outputs := s.outputs }, r.2)

/-- Whether the command keeps an OFF output OFF. -/
def staysOff (s : State) (c : Cmd) : Bool := isOff s (u16 c.p 0) && u8 c.p 2 == 0

/-- Steps 6 and 7 of OUTPUT.CONFIG (R297, R305, R310). -/
def configAdmit (s : State) (c : Cmd) : Option Nack :=
  let d := u16 c.p 0
  let f := ocFormat c.p
  let ms := gangMembers s d f
  let family := !isSdi d || (getGroup s (d / 8)).family == fmtFamily f
  let t := commitConfig s d c.p
  let e := (getRoute s d).committed
  let formatChanges := ocFormat (getOutput s d).committed != f
  let recheck := u8 c.p 2 == 1 && formatChanges && !reRemoves e
  let readers := if u8 c.p 2 == 1 && formatChanges then canvasReaders s d else []
  let p := configPlaced s c
  let after := if staysOff s c then configOff (advance s) d c.p else configOn p.1 c
  firstOf
    [need family (refuse stFORMAT_MISMATCH d),
     need (!(embedOf s d != 0 && (fmtHeight f == 486 || fmtHeight f == 576))) (refuse stFORMAT_MISMATCH d),
     if recheck then formatNack t 0xFFFF e else none,
     firstOf (readers.map (formatNack t 0xFFFF)),
     need (!(u8 c.p 2 == 0 && hasRoute s d) || c.force) (refuse stROUTED d),
     need (!(u8 c.p 2 == 0 && drives s d)) (refuse stROUTED d),
     firstOf (ms.map fun m => need (m == d || !quadFormat f || !hasRoute s m) (refuse stROUTED m)),
     if recheck then slotsNack t 0xFFFF e else none,
     firstOf (readers.map (slotsNack t 0xFFFF)),
     need (p.2 == 0) { status := stNO_ENGINE, object := d, shortfall := p.2 },
     bandwidthNack s after d,
     if u8 c.p 2 = 1 ∧ isSdi d then forcedOffNack s (0x10 + d / 8) else none,
     domainsNack after (([0, 1] : List Nat).flatMap fun h => if servedIn s h < servedIn after h then [0x4C + h] else []),
     currentNack s after d, sendNack s after,
     if staysOff s c then none else queueNack s ms]

/-- The first frame start of a configuration's timing at or after `t` (R285, R299, R391): its engine's alignment points, and
PHASE_NS after them. -/
def alignedStart (s : State) (c : Bytes) (t : Nat) : Nat :=
  let f := ocFormat c
  let e := getRef s (ocEngine c)
  let off : Int := e.offset - e.shown - (ocPhase c : Int)
  let k : Int := -(-(((t : Int) + off) * (fpsNum f : Int)) / (1000000000 * (fpsDen f : Int)))
  (-(-(k * (1000000000 * (fpsDen f : Int))) / (fpsNum f : Int)) - off).toNat

/-- OUTPUT.CONFIG (R305). -/
def defOutputConfig : CommandDef where
  opcode := 0x0401
  flags := flagsAll
  lenOk c := c.len == 32
  check s c :=
    let d := u16 c.p 0
    firstOf
      [configNack s c,
       need (!(isOff s d && u8 c.p 2 == 1 && c.kind == 1)) { status := stBAD_ARGUMENT, field := 2 },
       need (!(drives s d && u8 c.p 2 == 1) || canvasOk (ocFormat c.p)) (badArg 4),
       need (u8 c.p 2 == 0 || hasTransport s d) (badArg 2),
       targetNack s c d]
  admission s c := configAdmit s c
  timing s c :=
    if staysOff s c then .onTime
    else if isOff s (u16 c.p 0) then (if c.kind = 2 ∧ c.target < s.now then .late else .onTime)
    else targetTiming s c (u16 c.p 0)
  missed s c := countMissed s (u16 c.p 0)
  run s c :=
    let d := u16 c.p 0
    if staysOff s c then { state := configOff (commit s c d) d c.p, effect := some s.now }
    else
      let w := resolve s d c.kind c.target
      let off := isOff s d
      let late := if off then decide (c.kind = 2) && decide (c.target < s.now) else w.late
      let s' := configOn (configPlaced s c).1 c
      let frame := if off then (getOutput s d).frame else frameFor s w d d
      let eff := if off ∧ c.kind = 2 then some (alignedStart s c.p (max c.target (s.now + ms))) else scheduledEffect s c d frame
      queuedDone s' c { w with late := late } eff

def execOutputConfig (ch : Fin 32) (s : State) : Result := .next (runCommand defOutputConfig ch s)

/-! ### The other OUTPUT commands (R304) -/

/-- DEST of an output, and two reserved bytes. -/
def outputNack (s : State) (c : Cmd) : Option Nack :=
  firstOf [need (validDest s.product (u16 c.p 0) && isTimed (u16 c.p 0)) (badArg 0), need (zeroAt c.p 2 2) (badArg 2)]

/-- OUTPUT.GET_CONFIG: as last committed; zeros before the first. -/
def defOutputGetConfig : CommandDef where
  opcode := 0x0402
  lenOk c := c.len == 4
  check s c := outputNack s c
  run s c := readDone s (le 2 (u16 c.p 0) ++ sub (getOutput s (u16 c.p 0)).committed 2 30)

def execOutputGetConfig (ch : Fin 32) (s : State) : Result := .next (runCommand defOutputGetConfig ch s)

/-- Number of the frame being sent. -/
def sentFrame (o : Output) : Nat := o.frame - 1

/-- GATED (R298): the lane group is cut. -/
def outputGated (s : State) (d : Nat) : Bool := isSdi d && !powered s (0x10 + d / 8)

/-- OUTPUT.STATUS; a gang's members share its generator. -/
def defOutputStatus : CommandDef where
  opcode := 0x0403
  lenOk c := c.len == 4
  check s c := outputNack s c
  run s c :=
    let d := u16 c.p 0
    let o := getOutput s (gangOf s d)
    let on := o.state != .off
    readDone s (le 2 d ++ le 1 (outNum o.state) ++
      le 1 (flag o.quiet + 2 * flag (on && outputGated s d) + 4 * flag o.following +
        8 * flag (o.state == .idle && ocLaneOff o.config)) ++
      le 1 (ocEngine o.config) ++ le 1 (shownClass (getRoute s (gangOf s d))) ++ le 2 o.source ++ le 8 (sentFrame o) ++
      le 8 o.lastLatch ++ le 8 o.nextLatch ++ sub (ocFormat o.config) 0 16 ++ le 4 (ocPhase o.config) ++
      le 8 (orOnes o.sourceFrame) ++ zeros 4)

def execOutputStatus (ch : Fin 32) (s : State) : Result := .next (runCommand defOutputStatus ch s)

/-- OUTPUT.COUNTERS. -/
def defOutputCounters : CommandDef where
  opcode := 0x0404
  lenOk c := c.len == 4
  check s c := outputNack s c
  run s c :=
    let k := (getOutput s (u16 c.p 0)).counts
    readDone s (le 2 (u16 c.p 0) ++ zeros 6 ++ le 8 k.frames ++ le 8 k.black ++ le 4 k.repeats ++ le 4 k.skips ++
      le 4 k.frozen ++ le 4 k.mixed ++ le 4 k.underruns ++ le 4 k.underrunLines ++ le 4 k.ancDropped ++
      le 4 k.lateApplied ++ le 4 k.notApplied ++ le 4 k.fenceRetries ++ le 4 k.timingSteps ++ zeros 4 ++ le 8 s.now)

def execOutputCounters (ch : Fin 32) (s : State) : Result := .next (runCommand defOutputCounters ch s)

/-! ### Events of a frame (R302) -/

/-- FLAGS of OUTPUT_FRAME_DONE. -/
def frameFlagBits (f : FrameFlags) : Nat :=
  flag f.repeated + 2 * flag f.skipped + 4 * flag f.mixed + 8 * flag f.black + 16 * flag f.frozen +
  32 * flag f.timingStep + 64 * flag f.underrun

/-- OUTPUT_BLANK. The blank after field 2 of a 486-line raster falls on line 1 of the next frame and names the frame
that ended (log entry 30). -/
def execOutputBlank (d : BitVec 16) (field2 : Bool) (s : State) : Result :=
  let o := getOutput s d.toNat
  let f := ocFormat o.config
  if o.state = .off ∨ !isTimed d.toNat ∨ (fmtScan f = 0 ∧ field2) then .next s
  else
    let n := if fmtHeight f = 486 ∧ field2 then sentFrame o - 1 else sentFrame o
    .next (raise s 0x1 d.toNat (le 8 n ++ le 1 (if fmtScan f = 0 then 0 else if field2 then 2 else 1)))

/-- OUTPUT_LINE. -/
def execOutputLine (d : BitVec 16) (s : State) : Result :=
  let o := getOutput s d.toNat
  if o.state = .off ∨ !isTimed d.toNat ∨ ocMatch o.config = 0 then .next s
  else .next (raise s 0x2 d.toNat (le 8 (sentFrame o) ++ le 2 (ocMatch o.config)))

/-- A line of an output underruns (R296); `chased` tells cause 0 from cause 1. -/
def underrun (s : State) (d line : Nat) (chased : Bool) : State :=
  let o := getOutput s d
  let first := !o.flags.underrun
  let c := { o.counts with
    underrunLines := satInc 32 o.counts.underrunLines
    underruns := if first then satInc 32 o.counts.underruns else o.counts.underruns
    mixed := if chased ∧ !o.flags.mixed then satInc 32 o.counts.mixed else o.counts.mixed }
  let s := setOutput s d { o with
    counts := c, flags := { o.flags with underrun := true, mixed := o.flags.mixed || chased } }
  if first then raise s 0x4 d (le 8 (sentFrame o) ++ le 2 line ++ le 1 (flag (!chased))) else s

end Sys2Proof.Machine
end

