-- ==== Sys2Proof/Machine/AshlarCmds.lean ====
section
/-! DEFINITION. Ashlars (11): the ASHLAR commands (R328, R329), and how a configuration or a layer table comes into force
at a latch cycle of the drive output (R310-R312, R321). -/

namespace Sys2Proof.Machine

/-- The destination identifier of an Ashlar output, which is also the source identifier of its writeback. -/
def ashlarObj (k : Nat) : Nat := 0xC0 + k

def wbKey (k : Nat) : Nat := benchKey (ashlarObj k) false

def ashlarCount (s : State) : Nat := unitCount s.product 8

/-- ASHLAR_STATE (R330). -/
def ashlarEvent (s : State) (k reason frame : Nat) : State := raise s 0x30 k (le 1 reason ++ zeros 7 ++ le 8 frame)

/-- A colour word has bits 31:30 clear (R313). -/
def colourOk (v : Nat) : Bool := decide (v < 2 ^ 30)

/-! ### ASHLAR.CONFIG -/

/-- Field checks of ASHLAR.CONFIG (R306, R328). -/
def ashlarConfigNack (s : State) (c : Cmd) : Option Nack :=
  let k := u8 c.p 0
  let d := acDrive c.p
  let drivable := outputOn s d && (getOutput s d).state != .off && canvasOk (ocFormat (getOutput s d).committed) &&
    (match ashlarDriving s d with
      | some j => j == k
      | none => true)
  firstOf
    ([need (decide (k < ashlarCount s)) (badArg 0), need (decide (u8 c.p 1 ≤ 1)) (badArg 1),
      need (u8 c.p 2 == 0 || (decide (3 ≤ u8 c.p 2) && decide (u8 c.p 2 ≤ 16))) (badArg 2), need (zeroAt c.p 3 1) (badArg 3),
      need (validDest s.product d && isTimed d && !gangTail s d) (badArg 4), need (u8 c.p 1 == 0 || drivable) (badArg 4),
      need (zeroAt c.p 6 2) (badArg 6)] ++
      (List.range 8).map (fun i => need (colourOk (acPalette c.p i)) (badArg (8 + 4 * i))) ++
      [need (zeroAt c.p 40 4) (badArg 40)])

/-- Whether the writeback is read: by a route, or by a layer of another Ashlar (R311). -/
def writebackRead (s : State) (k : Nat) : Bool :=
  (Tab.keys s.routes).any (fun d => (routeClaims s d).any fun p => reSource p.1 == ashlarObj k) ||
  (Tab.keys s.ashlars).any fun j =>
    j != k && ashlarOn s j && ((getAshlar s j).layers ++ (getAshlar s j).pendingLayers).any fun p =>
      leKind p.2 == 1 && !leFollow p.2 && leSource p.2 == ashlarObj k

/-- Whether the command disables an Ashlar that is enabled. -/
def ashlarDisables (s : State) (c : Cmd) : Bool := ashlarOn s (u8 c.p 0) && u8 c.p 1 == 0

/-- Whether the command leaves a disabled Ashlar disabled. -/
def ashlarStaysOff (s : State) (c : Cmd) : Bool :=
  !ashlarOn s (u8 c.p 0) && !(getAshlar s (u8 c.p 0)).enabled && u8 c.p 1 == 0

/-- The refusals of R311. -/
def ashlarRouted (s : State) (c : Cmd) : Option Nack :=
  let k := u8 c.p 0
  let old := (getAshlar s k).committed
  firstOf
    [need (!ashlarDisables s c || c.force || !(hasRoute s (ashlarObj k) || writebackRead s k)) (refuse stROUTED (ashlarObj k)),
     need (!(ashlarOn s k && u8 c.p 1 == 1 && acDrive old != acDrive c.p) ||
         !((routeClaims s (acDrive old)).any fun p => reSource p.1 == ashlarObj k))
       (refuse stROUTED (acDrive old))]

/-- The layout of the writeback bench of a configuration on a canvas (R307). -/
def writebackLayout (c canvas : Bytes) : Layout := { slots := acSlots c, frameArea := frameBytes canvas, ancArea := 0 }

/-- The admission of a configuration takes the blocks of its writeback bench: made at an enable, resized by WB_SLOTS, laid out
anew where the canvas changes (R198, R307, R328). -/
def grantWriteback (s : State) (k : Nat) (c : Bytes) : State :=
  let f := ocFormat (getOutput s (acDrive c)).committed
  grantChange s (wbKey k) (writebackLayout c f) (canvasOf s k != f)

/-- The patterns that the layers of an Ashlar are the first to read take its canvas format (R314, R600). -/
def adoptLayers (s : State) (k : Nat) (es : List Bytes) : State :=
  es.foldl (fun s e => if leFetches e && !leFollow e then adoptPattern s (leSource e) (canvasOf s k) else s) s

/-- The queued state of an ASHLAR.CONFIG. -/
def ashlarQueued (s : State) (c : Cmd) : State :=
  let k := u8 c.p 0
  let u := ashlarObj k
  let a := getAshlar s k
  let removes := ashlarDisables s c && hasRoute s u
  let w := resolve s u 0 0
  let wasOn := ashlarOn s k
  let s := if u8 c.p 1 = 1 then grantWriteback s k c.p else s
  let s := advance s
  let s := addEntry s { commandEntry s c 0xFFFF 0 none false with last := !removes }
  let s := setAshlar s k { a with committed := c.p }
  let s := enqueue s (changeOf s c u w [u])
  let frame := frameFor s w u u
  let s := shadowFor s u (.ashlar c.p) w frame
  let s := if removes then
      let gone := le 2 u ++ le 2 0xFFFF ++ zeros 28
      let s := shadowFor (routeJournal s c gone 1 true) u (.route gone 0) w frame
      setRoute s u { getRoute s u with committed := [], gen := s.fm.gen }
    else s
  if u8 c.p 1 = 0 then s
  else
    let s := if wasOn then s else adoptLayers s k (a.pendingLayers.map (·.2))
    needDomain s (0x40 + k)

/-- ASHLAR.CONFIG (R306, R310, R311, R328). -/
def defAshlarConfig : CommandDef where
  opcode := 0x0701
  flags := flagsForce
  lenOk c := c.len == 44
  check s c := ashlarConfigNack s c
  admission s c :=
    let k := u8 c.p 0
    if ashlarStaysOff s c then none
    else
      let after := ashlarQueued s c
      firstOf
        [ashlarRouted s c,
         firstOf ((entriesFrom s (ashlarObj k)).map (slotsNack (setAshlar s k { getAshlar s k with committed := c.p }) 0xFFFF)),
         bandwidthNack s after (ashlarObj k),
         if u8 c.p 1 = 1 then forcedOffNack s (0x40 + k) else none, currentNack s after (ashlarObj k),
         queueNack s [ashlarObj k]]
  run s c :=
    let k := u8 c.p 0
    if ashlarStaysOff s c then
      { state := setAshlar (commit s c 0xFFFF) k { getAshlar s k with committed := c.p, config := c.p }, effect := some s.now }
    else
      let w := resolve s (ashlarObj k) 0 0
      let s' := ashlarQueued s c
      queuedDone s' c w (some (frameFor s w (ashlarObj k) (ashlarObj k)))

def execAshlarConfig (ch : Fin 32) (s : State) : Result := .next (runCommand defAshlarConfig ch s)

/-- ASHLAR, and three reserved bytes. -/
def ashlarNack (s : State) (c : Cmd) : Option Nack :=
  firstOf [need (decide (u8 c.p 0 < ashlarCount s)) (badArg 0), need (zeroAt c.p 1 3) (badArg 1)]

/-- ASHLAR.GET_CONFIG. -/
def defAshlarGetConfig : CommandDef where
  opcode := 0x0702
  lenOk c := c.len == 4
  check s c := ashlarNack s c
  run s c := readDone s (le 1 (u8 c.p 0) ++ sub (getAshlar s (u8 c.p 0)).committed 1 43)

def execAshlarGetConfig (ch : Fin 32) (s : State) : Result := .next (runCommand defAshlarGetConfig ch s)

/-! ### ASHLAR.LAYERS -/

/-- Entries of ASHLAR.LAYERS. -/
def layerEntries (c : Cmd) : List Bytes := (List.range (u8 c.p 1)).map fun i => sub c.p (24 + 48 * i) 48

/-- Frame a crop must lie inside: the source's contracted frame, or its ceiling (R314). -/
def cropFrame (s : State) (src : Nat) : Bytes :=
  match (getSource s src).contract with
  | some c => ctFormat c
  | none => routeFormat s src

/-- Whether a source has, or may have, a bench that a picture layer can name (R314). -/
def layerSourceOk (s : State) (k src : Nat) : Bool :=
  validSource s.product src && src != ashlarObj k && !(isSdi src && sourceOfLane s src != src)

/-- Crop fields (R313, R314): whole frame, or a region inside it. -/
def cropOk (s : State) (src : Nat) (e : Bytes) : Bool :=
  if leCropW e = 0 then leCropX e == 0 && leCropY e == 0 && leCropH e == 0
  else
    let f := cropFrame s src
    leCropH e != 0 &&
    (f.isEmpty || (decide (leCropX e + leCropW e ≤ fmtWidth f) && decide (leCropY e + leCropH e ≤ fmtHeight f)))

/-- Channels of a meter layer. -/
def meterChannels (e : Bytes) : List Nat := ((List.range 8).map fun i => u16 e (24 + 2 * i)).filter (· != 0xFFFF)

/-- Width of a meter bar (R322), with gaps of 2 samples. -/
def meterBar (e : Bytes) : Nat :=
  let n := (meterChannels e).length
  let across := if leW e ≤ leH e then leW e else leH e
  if n = 0 then 2 else (across - 2 * (n - 1)) / n

/-- A GPIO field: 0-63, or 0xFF for none. -/
def gpioFieldOk (v : Nat) : Bool := decide (v < 64) || v == 0xFF

/-- The first bad field of the parameters of a PICTURE or IMAGE layer. -/
def pictureBad (s : State) (k : Nat) (e : Bytes) : Option Nat :=
  let src := layerSource s k e
  let image := leKind e == 2
  if leFollow e ∧ (image ∨ leSource e ≠ 0) then some 12
  else if !leFollow e ∧ (if image then !(isHostSource (leSource e)) else !layerSourceOk s k (leSource e)) then some 12
  else if !cropOk s src e then some 16
  else if (if image then decide (2 < leAlpha e) else leAlpha e != 0) then some 32
  else if u8 e 33 ≠ 0 then some 33
  else if leAlarm e ∧ (image ∨ leFreeze e = 0 ∨ !(ctChangeMap ((getSource s src).contract.getD []))) then some 34
  else if !leAlarm e ∧ leFreeze e ≠ 0 then some 34
  else if (if image ∧ leAlpha e ≠ 0 then !colourOk (u32 e 36) else u32 e 36 != 0) then some 36
  else if !zeroAt e 40 8 then some 40
  else none

/-- The first bad field of the parameters of the other kinds (R313, R322, R323). -/
def drawnBad (s : State) (e : Bytes) : Option Nat :=
  match leKind e with
  | 3 =>
    if leSource e ≠ 0 then some 12 else if !zeroAt e 16 20 then some 16 else if !colourOk (u32 e 36) then some 36
    else if !zeroAt e 40 8 then some 40 else none
  | 4 =>
    let ok := fun (c : Nat) => if leDestChannels e then validDstCh s.product c else validSrcCh s.product c
    let low := signed 1 (u8 e 40)
    let high := signed 1 (u8 e 41)
    if leSource e ≠ 0 then some 12 else if !zeroAt e 16 8 then some 16
    else if !(meterChannels e).all ok then some 24
    else if meterBar e < 2 then some 8
    else if low < -60 ∨ 0 < low then some 40 else if high < low ∨ 0 < high then some 41
    else if !zeroAt e 42 6 then some 42 else none
  | _ =>
    if 2 < u8 e 24 then some 24
    else if (if u8 e 24 = 0 then !(validSource s.product (leSource e)) else leSource e != 0) then some 12
    else if !zeroAt e 16 8 then some 16
    else if !gpioFieldOk (u8 e 25) then some 25 else if !gpioFieldOk (u8 e 26) then some 26
    else if 2 < u8 e 27 then some 27
    else if u8 e 28 < 2 ∨ 64 < u8 e 28 ∨ u8 e 28 % 2 = 1 then some 28
    else if !zeroAt e 29 19 then some 29 else none

/-- The first bad field of a layer entry (R313, R314). -/
def layerBad (s : State) (k : Nat) (e : Bytes) : Option Nat :=
  let f := canvasOf s k
  if 63 < leLayer e then some 0
  else if leKind e = 0 then (if zeroAt e 1 47 then none else some 2)
  else if 5 < leKind e then some 1
  else if 31 < u8 e 2 then some 2
  else if fmtSampling f = 0 ∧ leX e % 2 = 1 then some 4
  else if fmtScan f ≠ 0 ∧ leY e % 2 = 1 then some 6
  else if leW e < 2 ∨ 7680 < leW e ∨ (fmtSampling f = 0 ∧ leW e % 2 = 1) then some 8
  else if leH e < 2 ∨ 4320 < leH e ∨ (fmtScan f ≠ 0 ∧ leH e % 2 = 1) then some 10
  else if !zeroAt e 14 2 then some 14
  else if leFetches e then pictureBad s k e
  else drawnBad s e

/-- The layer checks of R329, item by item. -/
def layersBad (s : State) (k : Nat) : Nat → List Nat → List Bytes → Option Nack
  | _, _, [] => none
  | i, seen, e :: t =>
    match layerBad s k e with
    | some o => some (badItem i (24 + 48 * i + o))
    | none => if seen.contains (leLayer e) then some (badItem i (24 + 48 * i)) else layersBad s k (i + 1) (leLayer e :: seen) t

/-- ROUTED (R329): a source without a contract, or a bench of fewer than 3 slots. -/
def layerRouted (s : State) (k i : Nat) (e : Bytes) : Option Nack :=
  let src := layerSource s k e
  if !leFetches e || src == 0xFFFF || isPattern src then none
  else need (match sourceSlots s src with
    | some n => decide (3 ≤ n)
    | none => false) { status := stROUTED, item := i, object := src }

/-- A layer table with a command's entries in it: NONE removes a layer, REPLACE those not named. -/
def mergeLayers (t : Tab Bytes) (replace : Bool) (es : List Bytes) : Tab Bytes :=
  es.foldl (fun t e => if leKind e = 0 then Tab.erase t (leLayer e) else Tab.set t (leLayer e) e)
    (if replace then [] else t)

/-- The changes a command makes, layer by layer: an empty entry removes the layer. -/
def layerChanges (t : Tab Bytes) (replace : Bool) (es : List Bytes) : List (Nat × Bytes) :=
  let named := es.map leLayer
  (if replace then ((Tab.keys t).filter fun i => !named.contains i).map fun i => (i, []) else []) ++
    es.map fun e => (leLayer e, if leKind e = 0 then [] else e)

/-- Layers with a change of an earlier command that waits on a fence (R321). -/
def fencedLayers (s : State) (k : Nat) : List Nat :=
  s.fm.shadow.flatMap fun x =>
    match x.body with
    | .layers j es => if j = k ∧ !x.fences.isEmpty then es.map (·.1) else []
    | _ => []

/-- The fences a command waits on: its own, and one for each pinned entry (R321). -/
def layerFences (s : State) (c : Cmd) : List Notify :=
  let own := sub c.p 8 16
  (if fenceKind own = 0 then [] else [{ fence := own, epoch := fenceEpoch s own }]) ++
    ((layerEntries c).filter fun e => leFetches e && lePin e).map fun e =>
      { fence := le 1 1 ++ le 1 0 ++ le 2 (layerSource s (u8 c.p 0) e) ++ zeros 4 ++ le 8 (lePinFrame e) }

/-- The state an ASHLAR.LAYERS gives. -/
def layersQueued (s : State) (c : Cmd) : State :=
  let k := u8 c.p 0
  let u := ashlarObj k
  let a := getAshlar s k
  let w := resolve s u c.kind c.target
  let es := layerEntries c
  let replace := u8 c.p 2 == 1
  let s := commitLater s c 0xFFFF
  let s := setAshlar s k { a with pendingLayers := mergeLayers a.pendingLayers replace es }
  let s := adoptLayers s k es
  let s := enqueue s (changeOf s c u w [u])
  let s := shadowFor s u (.layers k (layerChanges a.pendingLayers replace es)) w (frameFor s w u u) (layerFences s c)
  countLate (orphanNotifies s) (driveOf s k) w.late

/-- ASHLAR.LAYERS (R321, R328, R329). -/
def defAshlarLayers : CommandDef where
  opcode := 0x0703
  flags := flagsTarget
  lenOk c := decide (24 ≤ c.len) && c.len == 24 + 48 * u8 c.p 1
  check s c :=
    let k := u8 c.p 0
    firstOf
      [need (decide (k < ashlarCount s) && ashlarOn s k) (badArg 0),
       need (decide (1 ≤ u8 c.p 1) && decide (u8 c.p 1 ≤ 64)) (badArg 1), need (decide (u8 c.p 2 ≤ 1)) (badArg 2),
       need (zeroAt c.p 3 5) (badArg 3), (fenceBad s (sub c.p 8 16)).map fun o => badArg (8 + o),
       targetNack s c (ashlarObj k)]
  admission s c :=
    let k := u8 c.p 0
    let es := layerEntries c
    let after := layersQueued s c
    let named := (layerChanges (getAshlar s k).pendingLayers (u8 c.p 2 == 1) es).map (·.1)
    firstOf
      [layersBad s k 0 [] es,
       firstOf ((List.zip (List.range es.length) es).map fun p => layerRouted s k p.1 p.2),
       need (!(fencedLayers s k).any fun i => named.contains i) { status := stBUSY_DRAIN, object := ashlarObj k },
       bandwidthNack s after (ashlarObj k), currentNack s after (ashlarObj k),
       queueNack s [ashlarObj k]]
  timing s c := targetTiming s c (ashlarObj (u8 c.p 0))
  missed s c := countMissed s (driveOf s (u8 c.p 0))
  run s c :=
    let u := ashlarObj (u8 c.p 0)
    let w := resolve s u c.kind c.target
    queuedDone (layersQueued s c) c w (scheduledEffect s c u (frameFor s w u u))

def execAshlarLayers (ch : Fin 32) (s : State) : Result := .next (runCommand defAshlarLayers ch s)

/-- ASHLAR.GET_LAYERS: as last admitted. -/
def defAshlarGetLayers : CommandDef where
  opcode := 0x0704
  lenOk c := c.len == 4
  check s c := ashlarNack s c
  run s c :=
    let t := (getAshlar s (u8 c.p 0)).pendingLayers
    readDone s (le 1 t.length ++ zeros 7 ++ t.flatMap fun p => sub p.2 0 48)

def execAshlarGetLayers (ch : Fin 32) (s : State) : Result := .next (runCommand defAshlarGetLayers ch s)

/-! ### ASHLAR.STATUS -/

/-- The state a tally layer draws (R323). -/
def tallyDrawn (s : State) (e : Bytes) : Nat :=
  let low := fun (g : Nat) => decide (g < 64) && !(Tab.get s.gpioIn g true && !s.gpioOut.contains g)
  match u8 e 24 with
  | 0 => tallyOf s (leSource e)
  | 1 => if low (u8 e 25) then 2 else if low (u8 e 26) then 1 else 0
  | _ => u8 e 27

/-- One layer record (R329). -/
def layerRecord (s : State) (k i : Nat) : Bytes :=
  let a := getAshlar s k
  let e := Tab.get a.layers i []
  let r := Tab.get a.run i {}
  if e.isEmpty then zeros 2 ++ le 1 0xFF ++ zeros 1 ++ le 2 0xFFFF ++ zeros 2 ++ le 8 noEffect
  else
    let covered := layerCovered (canvasNow s k) a.layers i e
    let src := layerSource s k e
    let lost := isWeighed s.product src && (getSource s src).state == .lost
    let named := leFetches e || (leKind e == 5 && u8 e 24 == 0)
    le 1 (leKind e) ++
    le 1 (flag covered + 2 * flag r.held.isSome +
      4 * flag (leFetches e && src != 0xFFFF && !sameColour (routeFormat s src) (canvasNow s k)) + 8 * flag r.frozen +
      16 * flag (leFetches e && lost) + 32 * flag r.black + 64 * flag ((fencedLayers s k).contains i)) ++
    le 1 (if leFetches e && !covered then r.level else 0xFF) ++ le 1 r.tally ++
    le 2 (if named then src else 0xFFFF) ++ zeros 2 ++ le 8 (orOnes (r.held.map (·.2.2)))

/-- ASHLAR.STATUS. -/
def defAshlarStatus : CommandDef where
  opcode := 0x0705
  lenOk c := c.len == 4
  check s c := ashlarNack s c
  run s c :=
    let k := u8 c.p 0
    let a := getAshlar s k
    readDone s (le 1 k ++ le 1 (flag a.enabled) ++ le 1 (flag a.quiet + 2 * flag !(fencedLayers s k).isEmpty) ++
      le 1 a.layers.length ++ le 2 (driveOf s k) ++ zeros 2 ++ le 8 a.lastFrame ++
      le 4 (ceilDiv (sumOf ((ashlarReads s k).map (·.2))) 1000) ++
      le 4 (if ashlarOn s k then ceilDiv (writebackRate s k) 1000 else 0) ++ le 4 a.underrunLines ++ zeros 4 ++
      (List.range 64).flatMap (layerRecord s k))

def execAshlarStatus (ch : Fin 32) (s : State) : Result := .next (runCommand defAshlarStatus ch s)

/-! ### Coming into force -/

/-- Let go of the slots a layer holds, and forget it. -/
def dropLayer (s : State) (k i : Nat) : State :=
  let a := getAshlar s k
  match (Tab.get a.run i {}).held with
  | some (b, j, _) => unholdSlot (setAshlar s k { a with run := Tab.erase a.run i }) b j false
  | none => setAshlar s k { a with run := Tab.erase a.run i }

/-- Apply the layer changes of a shadow entry: the new table, and patterns no layer reads any more dropped (R321, R600). -/
def applyLayers (s : State) (k : Nat) (es : List (Nat × Bytes)) : State :=
  let a := getAshlar s k
  let old := a.layers
  let s := setAshlar s k { a with layers := changeLayers old es }
  let s := es.foldl (fun s p => if p.2.isEmpty ∨ leSource p.2 ≠ leSource (Tab.get old p.1 []) then dropLayer s k p.1 else s) s
  (old.map fun p => leSource p.2).foldl dropPattern s

/-- The canvas that a configuration in force gives (R306). -/
def canvasUnder (s : State) (c : Bytes) : Bytes := ocFormat (getOutput s (acDrive c)).config

/-- Apply an Ashlar configuration at the latch of frame `n`: its writeback bench is made, resized, or laid out anew where the canvas
is another one; a disable ends it, and patterns no layer reads any more are dropped (R306, R310, R311, R328, R600). -/
def applyAshlar (s : State) (k : Nat) (c : Bytes) (n : Nat) : State :=
  let a := getAshlar s k
  if acEnable c then
    let f := canvasUnder s c
    let moved := a.enabled && canvasUnder s a.config != f
    let s := setAshlar s k { a with config := c, enabled := true }
    if a.enabled then
      let s := changeBench s (wbKey k) (writebackLayout c f) moved
      if moved then ashlarEvent s k 3 n else s
    else ashlarEvent (makeBench s (wbKey k) (writebackLayout c f)) k 1 n
  else
    let s := (Tab.keys a.run).foldl (fun s i => dropLayer s k i) s
    let s := setAshlar s k { getAshlar s k with config := c, enabled := false, quiet := false }
    let s := (a.layers.map fun p => leSource p.2).foldl dropPattern (endBench s (wbKey k))
    settleDomain (ashlarEvent s k 2 n) (0x40 + k)

end Sys2Proof.Machine
end

