-- ==== Sys2Proof/Machine/AudioCmds.lean ====
section
/-! DEFINITION. The audio engine (12): what each destination channel reads and how late (R348-R355), ASRC channels
(R356-R359), the AUDIO commands (R368) and the engine's own rows. -/

namespace Sys2Proof.Machine

/-! ### What a channel reads -/

/-- Key of the unit that carries map entries with no video destination and no anchor (R346). -/
def freeUnit : Nat := 0x10000

/-- The 48 kHz grid in 64ths of a sample: nanoseconds to grid units and back, to the nearest. -/
def toUnits (ns : Int) : Int := (ns * 3072000 + 500000000) / 1000000000
def fromUnits (u : Nat) : Nat := (u * 1000000000 + 1536000) / 3072000

/-- The entry of an embedded channel of a DEFAULT output: VIDEO, FOLLOW, 0 dB, the route's crossfade (R341). -/
def defaultEntry (c : Nat) : Bytes := le 2 c ++ le 2 (c % 32) ++ le 1 2 ++ le 1 2 ++ le 2 0 ++ le 2 0xFFFF ++ le 1 0xFF ++ zeros 5

/-- Embed mode word in force of an output (R341). -/
def embedInForce (s : State) (n : Nat) : Nat := Tab.get s.audio.embedForce n 0

/-- The map entry in force on a channel; empty when it reads nothing. An output in DEFAULT on a direct route passes the
stream's own audio (R341). -/
def effEntry (s : State) (c : Nat) : Bytes :=
  let own := (getAdest s c).entry
  let stored := if meMode own = 0 then [] else own
  if c < 0x1000 then
    let n := c / 32
    if gangTail s n || (getOutput s n).state == .off then []
    else if embedInForce s n = 0 then (if (getRoute s n).cls = 1 ∨ (getRoute s n).cls = 0 then [] else defaultEntry c)
    else if c % 32 < embedInForce s n then stored else []
  else stored

/-- Companion of a video source (R343): base channel and count. -/
def companionOf (s : State) (src : Nat) : Nat × Nat :=
  if isSdi src then (32 * sourceOfLane s src, ctAudioLimit (contractOf s (sourceOfLane s src)))
  else
    let b := Tab.get s.audio.companions src { base := 0, count := 0 }
    (b.base, b.count)

/-- Route in force of a video destination that an entry follows: none while it has none, or is shed. -/
def followedRoute (s : State) (d : Nat) : Option Route :=
  let r := getRoute s d
  if reRemoves r.entry || r.state == .shed then none else some r

/-- The source channel an entry reads (R345); none for silence. -/
def entrySource (s : State) (e : Bytes) : Option Nat :=
  match meMode e with
  | 1 => if meSource e = 0x1940 then none else some (meSource e)
  | 2 =>
    match (meFollowDest e).bind (followedRoute s) with
    | none => none
    | some r =>
      let k := companionOf s (reSource r.entry)
      if meSource e < k.2 then some (k.1 + meSource e) else none
  | _ => none

/-- Audio flow that a network channel is bound to on one side, with the channel's place in it. -/
def boundFlow (s : State) (kind c : Nat) : Option (Nat × FlowBind) :=
  (s.audio.binds.find? fun p =>
    p.1 / 256 == kind && decide (0x1000 + p.2.base ≤ c) && decide (c < 0x1000 + p.2.base + p.2.count)).map fun p =>
      (p.1 % 256, p.2)

/-- The latency floor of a path in nanoseconds, without its ASRC channel (R352). -/
def floorNs (s : State) (src : Option Nat) (c : Nat) : Nat :=
  let one := 62500 / 3
  let i := match src with
    | none => 0
    | some k =>
      if k < 0x1000 then 2 * one
      else if k < 0x1800 then
        match boundFlow s 0 k with
        | some p => playoutNs (getFlow s (flowKey 0 1 p.1)).config
        | none => 0
      else if k < 0x1900 then one else 0
  let o := if c < 0x1000 then one
    else if c < 0x1800 then
      match boundFlow s 1 c with
      | some p => packetTime (getFlow s (flowKey 1 1 p.1)).config
      | none => 0
    else if c < 0x1900 then one else 0
  i + o

/-- A synchronised route whose source is not locked to its output's reference (R355, R20): their rates differ by more
than 0.02 ppm (DEDUCED, log entry 31). -/
def routeUnlocked (s : State) (d : Nat) (r : Route) : Bool :=
  r.cls == 2 && isWeighed s.product (reSource r.entry) && !isHostSource (reSource r.entry) &&
  (let gap := (getSource s (reSource r.entry)).ratePpm - (getRef s (ocEngine (getOutput s d).config)).freq / 10
   decide (gap < -2) || decide (2 < gap))

/-- V of a followed destination, or the middle of the window of R18 for an unlocked source (R353, R355); with whether it
is unlocked. -/
def videoLatency (s : State) (d : Nat) : Option (Nat × Bool) :=
  (followedRoute s d).map fun r =>
    if routeUnlocked s d r then
      (framesNs (rasterOf s d) (reDelay r.entry) + lineNs (rasterOf s d) + 2000 + frameNs (rasterOf s d) / 2, true)
    else (routeLatency s d r.entry r.cls, false)

/-- Latency of a path in 64ths of a sample, and the three limits of R353: at the floor, clamped, unlocked. A follower of
a destination without a route takes V as 0 (log entry 31). -/
def pathLatency (s : State) (c : Nat) (e : Bytes) (src : Option Nat) (asrc : Bool) : Nat × Bool × Bool × Bool :=
  let floor : Int := toUnits (floorNs s src c) + (if asrc then 1024 else 0)
  let v := if meFollow e then (meFollowDest e).bind (videoLatency s) else none
  let raw : Int := (match v with
    | some p => toUnits (p.1 : Int)
    | none => 0) + 64 * meDelay e
  let want : Int := if asrc then raw else (raw + 32) / 64 * 64
  let unlocked := match v with
    | some p => p.2
    | none => false
  if want < floor then (floor.toNat, meFollow e && !e.isEmpty, false, unlocked)
  else if 192000 * 64 < want then (192000 * 64, false, meFollow e, unlocked)
  else (want.toNat, false, false, unlocked)

/-! ### ASRC channels (R356, R357) -/

/-- Clock of an audio port (R373, R374): its engine for a master, its own for a slave. -/
def portClock (s : State) (p : Nat) : Nat :=
  let c := (getAport s p).config
  if pcMaster c then pcEngine c else 0x100 + p

/-- Clock of a destination channel: 0-7 an engine, 0x100 + p an audio port, 0x200 device time (log entry 31). -/
def clockOf (s : State) (c : Nat) (e : Bytes) : Nat :=
  let followed := match meFollowDest e with
    | some d => ocEngine (getOutput s d).config
    | none => 0x200
  if c < 0x1000 then ocEngine (getOutput s (c / 32)).config
  else if c < 0x1800 then followed
  else if c < 0x1900 then portClock s ((c - 0x1800) / 16)
  else followed

/-- Rate of a clock against device time, in 0.01 ppm. -/
def clockPpm (s : State) (k : Nat) : Int :=
  if k < 8 then (getRef s k).freq / 10 else if k < 0x200 then (getAport s (k - 0x100)).ppm else 0

/-- Whether a path runs, or would run, through an ASRC channel. -/
def wantsAsrc (s : State) (c : Nat) (e : Bytes) (src : Option Nat) : Bool :=
  match src with
  | none => false
  | some k =>
    match meAsrc e with
    | 0 => !(getAsrc s k).lockedTo.contains (clockOf s c e) &&
        !(decide (0x1800 ≤ k) && decide (k < 0x1900) && portClock s ((k - 0x1800) / 16) == clockOf s c e)
    | 1 => true
    | _ => false

/-- ASRC channels of a half that are free, lowest first. -/
def freeAsrc (s : State) (half : Nat) : List Nat :=
  ((List.range 256).map (· + 256 * half)).filter fun k => !(asrcUsed s half).contains k

/-- The channels that share one ASRC decision: both of a PAIR (R357). -/
def asrcGroup (c : Nat) (e : Bytes) : List Nat := if mePair e && c % 2 == 0 then [c, c + 1] else [c]

/-- Raise AUDIO_FAULT (R369). -/
def audioFault (s : State) (c cause : Nat) : State := raise s 0x139 c (le 1 cause)

/-- CROSSFADE of an entry in ms (R344). -/
def fadeOf (s : State) (e : Bytes) : Nat :=
  if meFade e = 0xFF then
    match (meFollowDest e).bind (followedRoute s) with
    | some r => reFade r.entry
    | none => 1
  else meFade e

/-- Set a channel's latency; a running path that moves counts the move, and crossfades to its new reading position (R354, R362). -/
def movePath (s : State) (c : Nat) (e : Bytes) (count : Bool) : State :=
  let x := getAdest s c
  let l := pathLatency s c e x.source x.asrc.isSome
  let ns := fromUnits l.1
  let moves := count && x.source.isSome && ns != x.latencyNs
  let nonPcm := match x.source with
    | some k => (getAsrc s k).nonPcm
    | none => false
  let s := setAdest s c { x with
    latencyNs := ns, floorHit := l.2.1, clamped := l.2.2.1, unlocked := l.2.2.2
    fading := x.fading || (moves && !nonPcm && fadeOf s e != 0)
    jumps := if moves && !nonPcm then satInc 32 x.jumps else x.jumps
    realigns := if moves && nonPcm then satInc 32 x.realigns else x.realigns }
  if l.2.2.1 && !x.clamped then audioFault s c 3 else s

/-- Give the channels of a group the lowest free ASRC channels of their half. -/
def grantAsrc (s : State) : List Nat → List Nat → State
  | c :: cs, k :: ks =>
    let s := setAdest s c { getAdest s c with asrc := some k, wanted := false }
    grantAsrc (movePath (raise s 0x13A c (le 1 1 ++ zeros 1 ++ le 2 k)) c (effEntry s c) true) cs ks
  | _, _ => s

/-- Let go of a channel's ASRC channel. -/
def releaseAsrc (s : State) (c : Nat) : State :=
  match (getAdest s c).asrc with
  | none => setAdest s c { getAdest s c with wanted := false }
  | some k =>
    let s := setAdest s c { getAdest s c with asrc := none, wanted := false, rateRange := false }
    movePath (raise s 0x13A c (le 1 2 ++ zeros 1 ++ le 2 k)) c (effEntry s c) true

/-- Take ASRC channels for a group, or mark it waiting with ASRC_SHORT (R357). -/
def takeAsrc (s : State) (c : Nat) (e : Bytes) : State :=
  let g := (asrcGroup c e).filter fun k => (getAdest s k).asrc.isNone
  let free := freeAsrc s (halfOf c)
  if g.isEmpty then s
  else if g.length ≤ free.length then grantAsrc s g free
  else
    let fresh := !(getAdest s c).wanted
    let s := g.foldl (fun s k => setAdest s k { getAdest s k with wanted := true }) s
    if fresh then audioFault s c 1 else s

/-- Evaluate a channel's ASRC setting (R356). The odd channel of a PAIR follows its even one. An update defers it (R365). -/
def evalAsrc (s : State) (c : Nat) : State :=
  let e := effEntry s c
  if s.updating then s
  else if mePair e && c % 2 == 1 then s
  else if wantsAsrc s c e (getAdest s c).source then takeAsrc s c e
  else (asrcGroup c e).foldl releaseAsrc s

/-- Order of grant (R357): ON, then ENERGY_CLASS of the followed route, then PRIORITY, then the lower channel. -/
def asrcRank (s : State) (c : Nat) : Nat :=
  let e := effEntry s c
  let r := (meFollowDest e).bind (followedRoute s)
  let cls := match r with
    | some r => reEnergy r.entry
    | none => 1
  let pri := match r with
    | some r => 255 - rePriority r.entry
    | none => 255
  (((if meAsrc e = 1 then 0 else 1) * 4 + cls) * 256 + pri) * 65536 + c

def insertRank (s : State) (c : Nat) : List Nat → List Nat
  | [] => [c]
  | x :: t => if asrcRank s c < asrcRank s x then c :: x :: t else x :: insertRank s c t

/-- Evaluate every path that a test picks, in the order of grant. -/
def evalWhere (s : State) (f : Nat → AudioDest → Bool) : State :=
  (((s.audio.dests.filter fun p => f p.1 p.2).map (·.1)).foldr (insertRank s) []).foldl evalAsrc s

/-- Source channels that have come back are evaluated anew on every path that reads them (R356). -/
def evalReturned (s : State) (ks : List Nat) : State :=
  evalWhere s fun _ x => match x.source with
    | some k => ks.contains k
    | none => false

/-- Paths of a half that wait for an ASRC channel, in order. -/
def asrcWaiting (s : State) (half : Nat) : List Nat :=
  ((s.audio.dests.filter fun p => p.2.wanted && halfOf p.1 == half).map (·.1)).foldr (insertRank s) []

/-! ### Switching (R348-R350, R354) -/

def sourceNonPcm (s : State) (src : Option Nat) : Bool :=
  match src with
  | some k => (getAsrc s k).nonPcm
  | none => false

/-- A destination channel comes to what it reads now: a new source crossfades (R348), a new latency moves the reading
position (R354), and its ASRC setting is evaluated. A channel that passes the stream's audio has no path. -/
def refreshDest (s : State) (c : Nat) : State :=
  let e := effEntry s c
  let x := getAdest s c
  let src := entrySource s e
  if src ≠ x.source then
    let pass := decide (c < 0x1000) && embedInForce s (c / 32) == 0 && (e.isEmpty || x.source.isNone)
    let fades := !pass && fadeOf s e != 0 && !sourceNonPcm s src && !sourceNonPcm s x.source
    let s := setAdest s c { x with
      source := src, fading := fades, rateRange := false
      crossfades := if fades then satInc 32 x.crossfades else x.crossfades }
    evalAsrc (movePath s c e false) c
  else if e.isEmpty && x.source.isNone && x.asrc.isNone && !x.wanted then s
  else evalAsrc (movePath s c e true) c

/-- Channels that follow a video destination, or are embedded in it. -/
def followers (s : State) (d : Nat) : List Nat :=
  (if isSdi d then (List.range (if embedInForce s d = 0 then 32 else embedInForce s d)).map (· + 32 * d) else []) ++
    (s.audio.dests.filter fun p =>
      (decide (0x1000 ≤ p.1) || !isSdi d || p.1 / 32 != d) && !p.2.entry.isEmpty && meFollowDest p.2.entry == some d).map (·.1)

/-- Put map entries in force. -/
def putMap (s : State) (es : List (Nat × Bytes)) : State :=
  es.foldl (fun s p => setAdest s p.1 { getAdest s p.1 with entry := p.2 }) s

/-- Put map entries in force and bring their channels to what they read. -/
def applyMap (s : State) (es : List (Nat × Bytes)) : State := es.foldl (fun s p => refreshDest s p.1) (putMap s es)

/-- Every channel that follows `d` comes to what it reads now. -/
def refreshFollowers (s : State) (d : Nat) : State := (followers s d).foldl refreshDest s

/-- Put an embed mode in force (R341). -/
def applyEmbed (s : State) (n mode channels : Nat) : State :=
  let w := if mode = 0 then 0 else channels
  let s := { s with audio := { s.audio with embedForce := Tab.set s.audio.embedForce n w } }
  ((List.range 32).map (· + 32 * n)).foldl refreshDest s

/-! ### Embedding on SDI (R338-R340) -/

/-- Frames in the sample sequence of a raster, and samples in a sequence (R339). -/
def audioSequence (f : Bytes) : Nat × Nat :=
  if fpsNum f = 0 then (1, 0)
  else if 48000 * fpsDen f % fpsNum f = 0 then (1, 48000 * fpsDen f / fpsNum f) else (5, 5 * 48000 * fpsDen f / fpsNum f)

/-- The place of output frame `n` in its sequence, which starts on every frame whose number is a multiple of 5. -/
def audioPlace (f : Bytes) (n : Nat) : Nat := n % (audioSequence f).1

/-- Audio frame number in the audio control packet: it counts through the sequence. -/
def audioFrameNumber (f : Bytes) (n : Nat) : Nat := audioPlace f n + 1

/-- The first sample of the sequence whose instant falls in frame `n` or after it: sample 0 falls on the start of the sequence. -/
def firstSample (f : Bytes) (n : Nat) : Nat := ceilDiv (audioPlace f n * (audioSequence f).2) (audioSequence f).1

/-- Samples whose instants fall in output frame `n` (R339; DEDUCED, log entry 121). -/
def frameSamples (f : Bytes) (n : Nat) : Nat :=
  ceilDiv ((audioPlace f n + 1) * (audioSequence f).2) (audioSequence f).1 - firstSample f n

/-- The lines that follow the switching lines of the fields of a raster (R214); they carry no audio packet. -/
def audioFree (f : Bytes) : List Nat :=
  (switchLine f + 1) ::
    (if fmtScan f = 0 then [] else [if fmtHeight f = 486 then 274 else if fmtHeight f = 576 then 320 else 570])

/-- The line whose HANC carries sample `j` of output frame `n` (R340): the first that begins after the sample's instant, or the next
one where that carries no audio; a line number past the raster's last is one of the next frame. -/
def embedLine (f : Bytes) (n j : Nat) : Nat :=
  let q := audioSequence f
  let line := ((firstSample f n + j) * q.1 - audioPlace f n * q.2) * totalLines f / q.2 + 2
  if (audioFree f).contains line then line + 1 else line

/-- The non-audio bit that the embedder sets in a destination channel's status: its current data is non-PCM (R340). -/
def nonAudioBit (s : State) (c : Nat) : Bool := sourceNonPcm s (getAdest s c).source

/-! ### AUDIO.MAP (R345, R346, R368) -/

/-- Entries of the payload. -/
def mapEntries (c : Cmd) : List Bytes := (List.range (u16 c.p 0)).map fun i => sub c.p (8 + 16 * i) 16

/-- A video destination an entry may follow: an SDI output or a send flow. -/
def followable (p : Product) (d : Nat) : Bool := validDest p d && isTimed d

/-- The first bad field of an entry (R344, R345). -/
def mapBad (p : Product) (e : Bytes) : Option Nat :=
  let g := u16 e 6
  let follow := meFollowDest e
  if !validDstCh p (meDest e) ∨ (mePair e ∧ meDest e % 2 = 1) then some 0
  else if 2 < meMode e then some 4
  else if meMode e = 0 ∧ meSource e ≠ 0 then some 2
  else if meMode e = 1 ∧ (!validSrcCh p (meSource e) ∨ (mePair e ∧ meSource e % 2 = 1)) then some 2
  else if meMode e = 2 ∧ 31 < meSource e then some 2
  else if meAsrc e = 3 ∨ 31 < u8 e 5 then some 5
  else if g ≠ 0x8000 ∧ (meGain e < -960 ∨ 120 < meGain e) then some 6
  else if (meMode e = 2 ∨ meFollow e) ∧ follow.isNone then some 8
  else if (match follow with
      | some d => !followable p d || (decide (meDest e < 0x1000) && d != meDest e / 32)
      | none => false) then some 8
  else if 20 < meFade e ∧ meFade e ≠ 0xFF then some 10
  else if u8 e 11 ≠ 0 then some 11
  else if (if meFollow e then decide (meDelay e < -48000) || decide (48000 < meDelay e)
      else decide (meDelay e < 0) || decide (192000 < meDelay e)) then some 12
  else none

/-- The entry checks, item by item: fields, then a channel named twice, also as the second of a PAIR. -/
def mapItems (p : Product) (all : List Bytes) : Nat → List Nat → List Bytes → Option Nack
  | _, _, [] => none
  | i, seen, e :: t =>
    match mapBad p e with
    | some o => some (badItem i (8 + 16 * i + o))
    | none =>
      if seen.contains (meDest e) || (mePair e && all.any fun x => meDest x == meDest e + 1) then
        some (badItem i (8 + 16 * i))
      else mapItems p all (i + 1) (meDest e :: seen) t

/-- The entry that a PAIR sets on the second channel (R345). -/
def pairEntry (e : Bytes) : Bytes := le 2 (meDest e + 1) ++ le 2 (if meMode e = 0 then 0 else meSource e + 1) ++ sub e 4 12

/-- What a command sets, channel by channel. -/
def mapSets (es : List Bytes) : List (Nat × Bytes) :=
  es.flatMap fun e => (meDest e, e) :: (if mePair e then [(meDest e + 1, pairEntry e)] else [])

/-- The unit at which an entry takes effect (R346). -/
def mapUnit (anchor : Nat) (e : Bytes) : Nat :=
  match meFollowDest e with
  | some d => d
  | none => if anchor = 0xFFFF then freeUnit else anchor

/-- Commit the entries. -/
def commitMap (s : State) (sets : List (Nat × Bytes)) : State :=
  let s := sets.foldl (fun s p => setAdest s p.1 { getAdest s p.1 with committed := p.2 }) s
  settleDomains s [0x4C, 0x4D]

/-- Units an AUDIO.MAP acts on, the anchor first. -/
def mapUnits (anchor : Nat) (es : List Bytes) : List Nat :=
  ((if anchor = 0xFFFF then [] else [anchor]) ++ es.map (mapUnit anchor)).eraseDups

/-- One shadow entry for each unit, with the map entries that take effect there. -/
def mapShadows (s : State) (c : Cmd) (w : When) (sets : List (Nat × Bytes)) : List Nat → State
  | [] => s
  | u :: t =>
    let anchor := u16 c.p 2
    let mine := sets.filter fun p => mapUnit anchor p.2 == u
    let s := if u = freeUnit then
        addShadow s { gen := s.fm.gen, unit := u, body := .audioMap mine, targetKind := kindPtp, target := w.time, late := w.late }
      else countLate (shadowFor s u (.audioMap mine) w (frameFor s w anchor u)) u w.late
    mapShadows s c w sets t

/-- The state an AUDIO.MAP gives. -/
def mapQueued (s : State) (c : Cmd) : State :=
  let anchor := u16 c.p 2
  let es := mapEntries c
  let w := resolve s anchor c.kind c.target
  let us := mapUnits anchor es
  let s := commitLater s c anchor
  let s := commitMap s (mapSets es)
  let s := enqueue s (changeOf s c (if anchor = 0xFFFF then freeUnit else anchor) w us)
  mapShadows s c w (mapSets es) us

/-- Halves that would serve a channel they do not yet serve, and are FORCED_OFF (R480). -/
def halvesNack (before after : State) : Option Nack :=
  domainsNack after (([0, 1] : List Nat).flatMap fun h => if servedIn before h < servedIn after h then [0x4C + h] else [])

def defAudioMap : CommandDef where
  opcode := 0x0801
  flags := flagsTarget
  lenOk c := decide (8 ≤ c.len) && c.len == 8 + 16 * u16 c.p 0
  check s c :=
    let anchor := u16 c.p 2
    firstOf
      [need (decide (1 ≤ u16 c.p 0) && decide (u16 c.p 0 ≤ 240)) (badArg 0),
       need (if anchor = 0xFFFF then c.kind == 0 || c.kind == 2 else followable s.product anchor) (badArg 2),
       need (zeroAt c.p 4 4) (badArg 4), mapItems s.product (mapEntries c) 0 [] (mapEntries c), targetNack s c anchor]
  admission s c :=
    let after := mapQueued s c
    firstOf [bandwidthNack s after (u16 c.p 2), halvesNack s after, currentNack s after (u16 c.p 2),
             queueNack s (mapUnits (u16 c.p 2) (mapEntries c))]
  timing s c := targetTiming s c (u16 c.p 2)
  missed s c := countMissed s (u16 c.p 2)
  run s c :=
    let anchor := u16 c.p 2
    let w := resolve s anchor c.kind c.target
    queuedDone (mapQueued s c) c w
      (if anchor = 0xFFFF then some w.time else scheduledEffect s c anchor (frameFor s w anchor anchor))

def execAudioMap (ch : Fin 32) (s : State) : Result := .next (runCommand defAudioMap ch s)

/-! ### The other commands (R368) -/

/-- Channels from `start` on that the product has, `n` at most. -/
def channelsFrom (s : State) (start n : Nat) : List Nat :=
  ((List.range (0x1A00 - start)).map (· + start)).filter (validSrcCh s.product) |>.take n

/-- The entry of a channel as committed; a channel never set has NONE. -/
def storedMap (s : State) (c : Nat) : Bytes := le 2 c ++ sub (getAdest s c).committed 2 14

def defAudioGetMap : CommandDef where
  opcode := 0x0802
  lenOk c := c.len == 4
  check s c :=
    firstOf [need (validDstCh s.product (u16 c.p 0)) (badArg 0),
             need (decide (1 ≤ u16 c.p 2) && decide (u16 c.p 2 ≤ 240)) (badArg 2)]
  run s c :=
    let cs := channelsFrom s (u16 c.p 0) (u16 c.p 2)
    readDone s (le 2 cs.length ++ zeros 6 ++ cs.flatMap (storedMap s))

def execAudioGetMap (ch : Fin 32) (s : State) : Result := .next (runCommand defAudioGetMap ch s)

/-- Entries of AUDIO.LEVEL. -/
def levelEntries (c : Cmd) : List Bytes := (List.range (u16 c.p 0)).map fun i => sub c.p (8 + 8 * i) 8

/-- The checks of its entries, item by item. -/
def levelItems (s : State) : Nat → List Bytes → Option Nack
  | _, [] => none
  | i, e :: t =>
    let off := 8 + 8 * i
    match firstOf
        [need (validDstCh s.product (u16 e 0) && meMode (getAdest s (u16 e 0)).committed != 0) (badItem i off),
         need (u16 e 2 == 0x8000 || (decide (-960 ≤ signed 2 (u16 e 2)) && decide (signed 2 (u16 e 2) ≤ 120))) (badItem i (off + 2)),
         need (decide (u8 e 4 ≤ 1)) (badItem i (off + 4)), need (zeroAt e 5 3) (badItem i (off + 5))] with
    | some n => some n
    | none => levelItems s (i + 1) t

/-- A map entry with GAIN and INVERT of an AUDIO.LEVEL entry. -/
def withLevel (m e : Bytes) : Bytes :=
  if m.isEmpty then m else sub m 0 5 ++ le 1 (u8 m 5 / 2 * 2 + u8 e 4) ++ sub e 2 2 ++ sub m 8 8

/-- Also the entries on their way to a channel take the new level: it replaces those two fields. -/
def levelShadow (x : Shadow) (e : Bytes) : Shadow :=
  match x.body with
  | .audioMap es => { x with body := .audioMap (es.map fun p => if p.1 = u16 e 0 then (p.1, withLevel p.2 e) else p) }
  | _ => x

def applyLevel (s : State) (e : Bytes) : State :=
  let x := getAdest s (u16 e 0)
  let s := setAdest s (u16 e 0) { x with committed := withLevel x.committed e, entry := withLevel x.entry e }
  onFm s fun f => { f with shadow := f.shadow.map fun x => levelShadow x e }

def defAudioLevel : CommandDef where
  opcode := 0x0803
  flags := flagsChange
  lenOk c := decide (8 ≤ c.len) && c.len == 8 + 8 * u16 c.p 0
  check s c :=
    firstOf [need (decide (1 ≤ u16 c.p 0) && decide (u16 c.p 0 ≤ 480)) (badArg 0), need (zeroAt c.p 2 6) (badArg 2),
             levelItems s 0 (levelEntries c)]
  run s c := { state := (levelEntries c).foldl applyLevel (commit s c 0xFFFF), effect := some s.now }

def execAudioLevel (ch : Fin 32) (s : State) : Result := .next (runCommand defAudioLevel ch s)

/-- Whether an output's configured format takes no embedded audio (R338). -/
def noEmbedding (f : Bytes) : Bool := fmtHeight f == 486 || fmtHeight f == 576

def commitEmbed (s : State) (c : Cmd) : State :=
  let s := { s with audio := { s.audio with embed := Tab.set s.audio.embed (u16 c.p 0) (if u8 c.p 2 = 0 then 0 else u8 c.p 3) } }
  settleDomains s [0x4C, 0x4D]

/-- Whether an output's latch cycles run, so that a change can wait for one. -/
def latches (s : State) (d : Nat) : Bool := timed s d || outputOn s (timingOf s d)

/-- The state an AUDIO.EMBED gives: on an output that is not enabled it takes effect at admission. -/
def embedQueued (s : State) (c : Cmd) : State :=
  let d := u16 c.p 0
  if latches s d then
    let w := resolve s d 0 0
    let s := commitEmbed (commitLater s c d) c
    shadowFor (enqueue s (changeOf s c d w [d])) d (.embed (u8 c.p 2) (u8 c.p 3)) w (frameFor s w d d)
  else applyEmbed (commitEmbed (commit s c d) c) d (u8 c.p 2) (u8 c.p 3)

def defAudioEmbed : CommandDef where
  opcode := 0x0804
  flags := flagsChange
  lenOk c := c.len == 8
  check s c :=
    let n := u8 c.p 3
    firstOf
      [need (decide (u16 c.p 0 < sdiCount s.product) && !gangTail s (u16 c.p 0)) (badArg 0), need (decide (u8 c.p 2 ≤ 1)) (badArg 2),
       need (if u8 c.p 2 = 0 then n == 0 else decide (4 ≤ n) && decide (n ≤ 32) && n % 4 == 0) (badArg 3),
       need (zeroAt c.p 4 4) (badArg 4)]
  admission s c :=
    let d := u16 c.p 0
    let after := embedQueued s c
    firstOf
      [need (u8 c.p 2 == 0 || !noEmbedding (ocFormat (getOutput s d).committed)) (refuse stFORMAT_MISMATCH d),
       bandwidthNack s after d, halvesNack s after, currentNack s after d, if latches s d then queueNack s [d] else none]
  run s c :=
    let d := u16 c.p 0
    if latches s d then
      let w := resolve s d 0 0
      queuedDone (embedQueued s c) c w (some (frameFor s w d d))
    else { state := embedQueued s c, effect := some (getOutput s d).frame }

def execAudioEmbed (ch : Fin 32) (s : State) : Result := .next (runCommand defAudioEmbed ch s)

/-- The range of R331 a source channel lies in. -/
def sourceRange (c : Nat) : Nat :=
  if c < 0x1000 then 0 else if c < 0x1800 then 1 else if c < 0x1900 then 2 else if c < 0x1940 then 3 else c

/-- AUDIO.COMPANION (R343). -/
def defAudioCompanion : CommandDef where
  opcode := 0x0805
  flags := flagsChange
  lenOk c := c.len == 8
  check s c :=
    let n := u8 c.p 2
    let base := u16 c.p 4
    firstOf
      [need (validSource s.product (u16 c.p 0) && !isSdi (u16 c.p 0)) (badArg 0), need (decide (n ≤ 32)) (badArg 2),
       need (zeroAt c.p 3 1) (badArg 3),
       need (validSrcCh s.product base && (n == 0 || (validSrcCh s.product (base + n - 1) &&
         (sourceRange base == sourceRange (base + n - 1) || decide (0x1946 ≤ base))))) (badArg 4),
       need (zeroAt c.p 6 2) (badArg 6)]
  run s c :=
    let t := Tab.set s.audio.companions (u16 c.p 0) { base := u16 c.p 4, count := u8 c.p 2 }
    let s' := commit s c (u16 c.p 0)
    { state := { s' with audio := { s'.audio with companions := t } }, effect := some s.now }

def execAudioCompanion (ch : Fin 32) (s : State) : Result := .next (runCommand defAudioCompanion ch s)

/-- Key of a binding, and the side it is on: 0 receive, 1 send (R342). -/
def bindKey (kind index : Nat) : Nat := 256 * kind + index

/-- Whether a new binding overlaps another on its side. -/
def bindOverlaps (s : State) (key base n : Nat) : Bool :=
  s.audio.binds.any fun p =>
    p.1 != key && p.1 / 256 % 2 == key / 256 % 2 && decide (base < p.2.base + p.2.count) && decide (p.2.base < base + n)

/-- Channels that lose, or change, their place when a binding goes from `old` to `base` and `n`. -/
def bindLoses (old : FlowBind) (base n : Nat) : List Nat :=
  ((List.range old.count).filter fun i => old.base != base || decide (n ≤ i)).map fun i => 0x1000 + old.base + i

/-- The state an AUDIO.FLOW_MAP gives. Source channels that lose their binding are ramped to silence (R342, R363). -/
def bindTakes (s : State) (c : Cmd) : State :=
  let key := bindKey (u8 c.p 0) (u8 c.p 1)
  let t := if u8 c.p 4 = 0 then Tab.erase s.audio.binds key
    else Tab.set s.audio.binds key { base := u16 c.p 2, count := u8 c.p 4 }
  let s' := { s with audio := { s.audio with binds := t } }
  if u8 c.p 0 % 2 = 1 then s'
  else
    let old := ((bindOf s (u8 c.p 0) (u8 c.p 1)).map bindChannels).getD []
    let new := if u8 c.p 4 = 0 then [] else bindChannels { base := u16 c.p 2, count := u8 c.p 4 }
    let s' := (old.filter fun k => !new.contains k).foldl rampDown s'
    (new.filter fun k => !old.contains k).foldl rampUp s'

def defAudioFlowMap : CommandDef where
  opcode := 0x0806
  flags := flagsForce
  lenOk c := c.len == 8
  check s c :=
    let kind := u8 c.p 0
    let n := u8 c.p 4
    let top := unitCount s.product 2048
    firstOf
      [need (decide (kind ≤ 3)) (badArg 0),
       need (if kind < 2 then decide (u8 c.p 1 < unitCount s.product 256) else decide (u8 c.p 1 < 64)) (badArg 1),
       need (decide (u16 c.p 2 < top) && decide (u16 c.p 2 + n ≤ top) &&
         !(n != 0 && bindOverlaps s (bindKey kind (u8 c.p 1)) (u16 c.p 2) n)) (badArg 2),
       need (if kind < 2 then decide (n ≤ 64) else n == 0 || n == 16) (badArg 4), need (zeroAt c.p 5 3) (badArg 5)]
  admission s c :=
    let after := bindTakes s c
    let lost := match bindOf s (u8 c.p 0) (u8 c.p 1) with
      | some b => bindLoses b (u16 c.p 2) (u8 c.p 4)
      | none => []
    firstOf
      [need (c.force || u8 c.p 0 % 2 == 0 || !lost.any (channelServed s)) { status := stROUTED },
       bandwidthNack s after 0xFFFF, currentNack s after 0xFFFF]
  run s c := { state := bindTakes (commit s c 0xFFFF) c, effect := some s.now }

def execAudioFlowMap (ch : Fin 32) (s : State) : Result := .next (runCommand defAudioFlowMap ch s)

def toneTakes (s : State) (c : Cmd) : State := { s with audio := { s.audio with tones := Tab.set s.audio.tones (u8 c.p 0) (sub c.p 0 8) } }

/-- AUDIO.TONE (R366). -/
def defAudioTone : CommandDef where
  opcode := 0x0807
  flags := flagsChange
  lenOk c := c.len == 8
  check _ c :=
    let level := signed 2 (u16 c.p 4)
    firstOf
      [need (decide (u8 c.p 0 < 64)) (badArg 0), need (decide (u8 c.p 1 ≤ 2)) (badArg 1),
       need (decide (20 ≤ u16 c.p 2) && decide (u16 c.p 2 ≤ 20000)) (badArg 2),
       need (decide (-600 ≤ level) && decide (level ≤ 0)) (badArg 4),
       need (if u8 c.p 1 = 2 then decide (100 ≤ u16 c.p 6) && decide (u16 c.p 6 ≤ 10000) else u16 c.p 6 == 0) (badArg 6)]
  admission s c := bandwidthNack s (toneTakes s c) 0xFFFF
  run s c := { state := toneTakes (commit s c 0xFFFF) c, effect := some s.now }

def execAudioTone (ch : Fin 32) (s : State) : Result := .next (runCommand defAudioTone ch s)

/-! ### Meters (R367) -/

/-- PEAK: the highest LEVEL of the last 2 s. -/
def peakOf (recent : List Int) : Int := recent.foldl max (-1000)

/-- One entry of AUDIO.METERS. -/
def meterEntry (s : State) (dest : Bool) (c : Nat) : Bytes :=
  let level := if dest then (getAdest s c).level else (getAsrc s c).level
  let recent := if dest then (getAdest s c).recent else (getAsrc s c).recent
  let clipped := if dest then (getAdest s c).clipped else (getAsrc s c).clipped
  let non := if dest then sourceNonPcm s (getAdest s c).source else (getAsrc s c).nonPcm
  let idle := if dest then !channelServed s c else !sourceActive s c
  let show_ := fun (v : Int) => if non then le 2 0x7FFF else leInt 2 v
  show_ level ++ show_ (peakOf recent) ++
    le 1 (flag non + 2 * flag clipped + 4 * flag (decide (level ≤ -1000)) + 8 * flag idle) ++ zeros 3

def defAudioMeters : CommandDef where
  opcode := 0x0808
  lenOk c := c.len == 8
  check s c :=
    firstOf
      [need (decide (u8 c.p 0 ≤ 1)) (badArg 0), need (zeroAt c.p 1 1) (badArg 1), need (validSrcCh s.product (u16 c.p 2)) (badArg 2),
       need (decide (1 ≤ u16 c.p 4) && decide (u16 c.p 4 ≤ 480)) (badArg 4), need (zeroAt c.p 6 2) (badArg 6)]
  run s c :=
    let cs := channelsFrom s (u16 c.p 2) (u16 c.p 4)
    readDone s (le 1 (u8 c.p 0) ++ zeros 1 ++ le 2 cs.length ++ zeros 4 ++ le 8 s.audio.lastBlock ++
      cs.flatMap (meterEntry s (u8 c.p 0 == 1)))

def execAudioMeters (ch : Fin 32) (s : State) : Result := .next (runCommand defAudioMeters ch s)

/-- LEVEL of a new block: it falls by 20 dB a second at most, 0.2 dB in 10 ms. -/
def nextLevel (old new : Int) : Int := max (max new (old - 2)) (-1000)

/-- The facts of a block for a channel: its largest sample in 0.1 dBFS, and its clipped samples. -/
def meterFact (facts : List MeterFact) (dest : Bool) (c : Nat) : Int × Nat :=
  match facts.find? fun m => m.dest == dest && m.channel == c with
  | some m => (m.level, m.clips)
  | none => (-1000, 0)

/-- The channels a block meters: those with state, and those the facts name. -/
def meterKeys (keys : List Nat) (facts : List MeterFact) (dest : Bool) : List Nat :=
  (keys ++ ((facts.filter fun m => m.dest == dest).map (·.channel))).eraseDups

/-- METER_BLOCK (R367): a 10 ms block ends. The levels found in it are facts of the samples (log entry 31). -/
def execMeterBlock (facts : List MeterFact) (s : State) : Result :=
  let s := (meterKeys (Tab.keys s.audio.sources) facts false).foldl (fun s c =>
    let x := getAsrc s c
    let f := meterFact facts false c
    let l := nextLevel x.level f.1
    setAsrc s c { x with level := l, recent := (l :: x.recent).take 200, clipped := f.2 != 0 }) s
  let s := (meterKeys (Tab.keys s.audio.dests) facts true).foldl (fun s c =>
    let x := getAdest s c
    let f := if channelServed s c then meterFact facts true c else (-1000, 0)
    let l := nextLevel x.level f.1
    setAdest s c { x with level := l, recent := (l :: x.recent).take 200, clipped := f.2 != 0, clips := satAdd 32 x.clips f.2 }) s
  .next { s with audio := { s.audio with lastBlock := s.now } }

/-! ### Status -/

/-- A half that carries silence: gated or QUIET (R365). -/
def halfDown (s : State) (h : Nat) : Bool :=
  match (getDomain s (0x4C + h)).state with
  | .on => false
  | .close => false
  | .drain => (getDomain s (0x4C + h)).cut
  | _ => true

/-- STATE of a destination channel (R368). -/
def destState (s : State) (c : Nat) : Nat :=
  let x := getAdest s c
  if !channelServed s c then 0
  else if halfDown s (halfOf c) then 4
  else if x.fading then 2
  else
    match x.source with
    | none => 3
    | some k => if sourceActive s k && !x.rateRange then 1 else 3

def channelNack (s : State) (c : Cmd) : Option Nack :=
  firstOf [need (validSrcCh s.product (u16 c.p 0)) (badArg 0), need (zeroAt c.p 2 2) (badArg 2)]

def defAudioDestStatus : CommandDef where
  opcode := 0x0809
  lenOk c := c.len == 4
  check s c := channelNack s c
  run s c :=
    let k := u16 c.p 0
    let x := getAdest s k
    let e := effEntry s k
    let v := match (meFollowDest e).bind fun d => (followedRoute s d).map fun r => routeLatency s d r.entry r.cls with
      | some v => if e.isEmpty then 0xFFFFFFFF else min v 0xFFFFFFFF
      | none => 0xFFFFFFFF
    let ratio : Int := match x.source, x.asrc with
      | some i, some _ => (getAsrc s i).ppm - clockPpm s (clockOf s k e)
      | _, _ => 0
    readDone s (le 2 k ++ le 2 (x.source.getD 0xFFFF) ++ le 1 (destState s k) ++
      le 1 (flag (sourceNonPcm s x.source) + 2 * flag x.asrc.isSome + 4 * flag x.wanted + 8 * flag x.floorHit +
        16 * flag x.unlocked + 32 * flag x.clamped + 64 * flag x.rateRange) ++
      le 2 (x.asrc.getD 0xFFFF) ++ le 4 x.latencyNs ++ le 4 v ++ leInt 4 ratio ++ le 4 x.clips ++ le 4 x.slips ++
      le 4 x.burstSlips ++ le 4 x.realigns ++ le 4 x.crossfades ++ le 4 x.jumps ++ zeros 4 ++ le 8 s.now ++ zeros 8)

def execAudioDestStatus (ch : Fin 32) (s : State) : Result := .next (runCommand defAudioDestStatus ch s)

/-- STATE of a source channel: the ramps of R363 run for 5 ms after a loss and after its return. -/
def sourceState (s : State) (c : Nat) : Nat :=
  let x := getAsrc s c
  if !sourceActive s c then 0
  else
    match x.lostAt with
    | some t => if s.now < t + 5000000 ∧ !x.nonPcm then 2 else 1
    | none => if x.ramp = 0 then 1 else 3

def defAudioSourceStatus : CommandDef where
  opcode := 0x080A
  lenOk c := c.len == 4
  check s c := channelNack s c
  run s c :=
    let k := u16 c.p 0
    let x := getAsrc s k
    readDone s (le 2 k ++ le 1 (sourceState s k) ++ le 1 (flag x.nonPcm + 2 * flag x.measured) ++
      le 2 (if x.nonPcm then x.burst else 0) ++ zeros 2 ++ leInt 4 x.ppm ++ le 4 x.concealed ++ le 4 x.changes ++ zeros 4 ++
      le 8 s.now)

def execAudioSourceStatus (ch : Fin 32) (s : State) : Result := .next (runCommand defAudioSourceStatus ch s)

/-- HALF_0 and HALF_1 (R368). -/
def halfNum (s : State) (h : Nat) : Nat :=
  if !powered s (0x4C + h) then 0 else if halfDown s h then 2 else 1

def defAudioEngineStatus : CommandDef where
  opcode := 0x080B
  lenOk c := c.len == 0
  run s _ :=
    let served := servedIn s 0 + servedIn s 1
    readDone s (le 1 (halfNum s 0) ++ le 1 (halfNum s 1) ++ le 2 (asrcUsed s 0).length ++ le 2 (asrcUsed s 1).length ++
      le 2 (s.audio.dests.filter fun p => p.2.wanted).length ++ le 2 (activeSources s) ++ le 2 served ++
      le 4 (192 * activeSources s) ++ le 4 (384 * served) ++ zeros 4 ++ le 8 s.now ++ zeros 16)

def execAudioEngineStatus (ch : Fin 32) (s : State) : Result := .next (runCommand defAudioEngineStatus ch s)

/-! ### The engine's own rows -/

/-- CROSSFADE_END (R348). -/
def execCrossfadeEnd (c : BitVec 16) (s : State) : Result :=
  .next (setAdest s c.toNat { getAdest s c.toNat with fading := false })

/-- SOURCE_LOCK_QUALIFIED (R356): a source has been measured for 10 s; `clocks` are the destination clocks it is within
±0.02 ppm of, and `ppm` its rate in 0.01 ppm. -/
def execSourceLockQualified (c : BitVec 16) (clocks : List Nat) (ppm : Int) (s : State) : Result :=
  let k := c.toNat
  if !sourceActive s k then .next s
  else
    let s := setAsrc s k { getAsrc s k with measured := true, lockedTo := clocks, ppm := ppm }
    .next (evalWhere s fun _ x => x.source == some k)

/-- The waiting paths of a half take what ASRC channels are free, in order (R357). -/
def serveAsrc (s : State) (half : Nat) : State :=
  (asrcWaiting s half).foldl (fun s c => takeAsrc s c (effEntry s c)) s

/-- What an update has deferred of R356 and R357 is done once the new image has taken over (R35, R365). -/
def deferredAsrc (s : State) : State := serveAsrc (serveAsrc (evalWhere s fun _ x => x.source.isSome) 0) 1

/-- ASRC_RELEASE (R357): an ASRC channel whose path wants it no more is released, and the half's waiting paths are
served in order. -/
def execAsrcRelease (k : Fin 512) (s : State) : Result :=
  let holders := (s.audio.dests.filter fun p => p.2.asrc == some k.val).map (·.1)
  if s.updating then .next s
  else
    let s := holders.foldl (fun s c => if wantsAsrc s c (effEntry s c) (getAdest s c).source then s else releaseAsrc s c) s
    .next (serveAsrc s (k.val / 256))

/-- SAMPLE_SLIP (R359). -/
def execSampleSlip (c : BitVec 16) (s : State) : Result :=
  let k := c.toNat
  let x := getAdest s k
  let e := effEntry s k
  match x.source with
  | none => .next s
  | some src =>
    if x.asrc.isSome || (getAsrc s src).nonPcm then .next s
    else if !s.updating ∧ meAsrc e = 0 ∧ (asrcGroup k e).length ≤ (freeAsrc s (halfOf k)).length then .next (takeAsrc s k e)
    else
      let s := setAdest s k { x with slips := satInc 32 x.slips, fading := true }
      .next (raise s 0x138 k (le 1 0 ++ zeros 1 ++ le 2 src))

/-- BURST_SLIP (R362): `fast` says the source runs fast, so a burst is left out. -/
def execBurstSlip (c : BitVec 16) (fast : Bool) (s : State) : Result :=
  let x := getAdest s c.toNat
  match x.source with
  | none => .next s
  | some src =>
    if !(getAsrc s src).nonPcm then .next s
    else
      let s := setAdest s c.toNat { x with burstSlips := satInc 32 x.burstSlips }
      .next (raise s 0x138 c.toNat (le 1 (if fast then 1 else 2) ++ zeros 1 ++ le 2 src))

/-- RATE_RANGE (R358). -/
def execRateRange (c : BitVec 16) (out : Bool) (s : State) : Result :=
  let x := getAdest s c.toNat
  if x.asrc.isNone || x.rateRange == out then .next s
  else
    let s := setAdest s c.toNat { x with rateRange := out }
    .next (if out then audioFault s c.toNat 2 else s)

/-- A source channel becomes non-PCM, or PCM again (R360). -/
def setNonPcm (s : State) (c burst : Nat) (non : Bool) : State :=
  let x := getAsrc s c
  if x.nonPcm = non then setAsrc s c { x with burst := burst }
  else
    let s := setAsrc s c { x with nonPcm := non, burst := burst, changes := satInc 32 x.changes, ramp := 0 }
    raise s 0x13B c (le 1 (flag non) ++ zeros 1 ++ le 2 burst)

/-- The other channel of an AES pair. -/
def pairOf (c : Nat) : Nat := if c % 2 = 0 then c + 1 else c - 1

/-- PREAMBLE_FOUND (R360): `both` says that the preamble spans the pair. -/
def execPreambleFound (c burst : BitVec 16) (both : Bool) (s : State) : Result :=
  let s := setNonPcm s c.toNat burst.toNat true
  .next (if both then setNonPcm s (pairOf c.toNat) burst.toNat true else s)

/-- NONPCM_TIMEOUT (R360). -/
def execNonpcmTimeout (c : BitVec 16) (s : State) : Result := .next (setNonPcm s c.toNat 0 false)

/-- AUDIO_HALF_IDLE_TIMEOUT (R337): a delayed power-down, which the journal shows (R509). -/
def execAudioHalfIdleTimeout (h : Fin 2) (s : State) : Result :=
  let d := 0x4C + h.val
  let x := getDomain s d
  if x.idle && x.mode == 0 && !domainNeeded s d && powered s d then
    .next (closeDomain (autoEntry (setDomain s d { x with idle := false }) 6 1 d x.epoch) d)
  else .next s

end Sys2Proof.Machine
end

