-- ==== Sys2Proof/Machine/AditLink.lean ====
section
/-! DEFINITION. The Adit link (16): lanes in and out of service, the states of the link (R446, R453), slots (R448) and
the states of tie lines (R456, R451). The ADIT commands and rows follow in AditCmds. -/

namespace Sys2Proof.Machine

def onAdit (s : State) (f : Adit → Adit) : State := { s with adit := f s.adit }

/-- Lanes a mask holds. -/
def maskCount (m : Nat) : Nat := ((List.range 8).filter fun i => bit m i).length

def aditNum : AditState → Nat
  | .down => 0
  | .training => 1
  | .up => 2
  | .spared => 3
  | .failed => 4

/-- The link carries its calendar. -/
def aditCarries (s : State) : Bool := s.adit.link == .up || s.adit.link == .spared

/-- The lanes of LANE_MASK that are aligned here and not lost by the partner. -/
def aditAvailable (s : State) : Nat :=
  sumOf ((List.range 8).map fun i =>
    if bit s.adit.mask i && (getLane s (0x400 + i)).state == .locked && (getLane s (0x400 + i)).align == 1 &&
      !bit s.adit.partnerLost i then 2 ^ i else 0)

/-- SLOTS_TOTAL (R447, R456). -/
def aditSlots (s : State) : Nat :=
  if aditCarries s then (if maskCount s.adit.inService = 8 then 80 else if maskCount s.adit.inService = 7 then 69 else 0) else 0

/-! ### Tie-line configurations (R456) -/

def tcTie (c : Bytes) : Nat := u8 c 0
def tcDir (c : Bytes) : Nat := u8 c 1
def tcPriority (c : Bytes) : Nat := u8 c 3
def tcQuota (c : Bytes) : Nat := u32 c 24

/-- S of R448: slots of a tie line. -/
def tieSlots (c : Bytes) : Nat :=
  let f := tcFormat c
  let n := (if fmtSampling f = 1 then 3 else 2) * fmtWidth f * fmtHeight f * fmtDepth f + 240 * totalLines f + 5 * tcQuota c
  ceilDiv (fpsNum f * n) (fpsDen f * 2702700000)

/-- Enabled send tie lines. -/
def sendTies (s : State) : List Nat := (List.range 32).filter fun t => tcEnable (getTie s (tieSendKey t)).config

def recvTies (s : State) : List Nat := (List.range 32).filter fun t => tcEnable (getTie s (tieRecvKey t)).config

def slotsOf (s : State) (l : List Nat) : Nat := sumOf (l.map fun t => tieSlots (getTie s (tieSendKey t)).config)

/-- R453: tie line `a` is suspended before `b`: lower PRIORITY, then the higher number. -/
def suspendsFirst (s : State) (a b : Nat) : Bool :=
  let p := tcPriority (getTie s (tieSendKey a)).config
  let q := tcPriority (getTie s (tieSendKey b)).config
  decide (p < q) || (p == q && decide (b < a))

def insertTie (s : State) (t : Nat) : List Nat → List Nat
  | [] => [t]
  | x :: l => if suspendsFirst s t x then t :: x :: l else x :: insertTie s t l

/-- The send tie lines that keep their slots, of a list in the order of suspension. -/
def keptTies (s : State) (slots : Nat) : List Nat → List Nat
  | [] => []
  | t :: l => if slotsOf s (t :: l) ≤ slots then t :: l else keptTies s slots l

def tiesInService (s : State) : List Nat := keptTies s (aditSlots s) ((sendTies s).foldr (insertTie s) [])

/-! ### Tie-line states -/

/-- A change of STATE of a tie line, with ADIT_TIE (R458). A receive line that leaves service is lost with LOSS_DARK; one
that enters it waits for lines; a mismatch leaves a source LOCKED with CONTRACT_BREACH (R451). -/
def moveTie (s : State) (dir t goal cause : Nat) : State :=
  let key := 32 * dir + t
  let x := getTie s key
  let src := 0x100 + t
  if x.state = goal then s
  else
    let s := raise (setTie s key { x with state := goal }) 0x149 t (le 1 dir ++ le 1 x.state ++ le 1 goal ++ le 1 cause)
    if dir = 0 then s
    else if goal = 2 then sourceLocking s src
    else if goal = 4 then
      let was := (getSource s src).state
      let s := closeFrame s src false false
      let s := if was = .formatted ∨ was = .lost then moveSource s src .locked else s
      let s := setSource s src { getSource s src with contractBreach := true }
      if was = .formatted then demotionTrigger (inputFault s src cFORMAT) src cFORMAT else inputFault s src cFORMAT
    else loseSource s src cLOSS_DARK

/-- Whether the partner's announcement of a tie line agrees with the receiving allocation (R451). -/
def tieAgrees (s : State) (t : Nat) (a : Bytes) : Bool :=
  let c := (getTie s (tieRecvKey t)).config
  sub a 0 16 == tcFormat c && u32 a 16 == tcQuota c

/-- STATE of a send tie line. -/
def sendTieState (s : State) (t : Nat) : Nat :=
  let x := getTie s (tieSendKey t)
  if !tcEnable x.config then 0
  else if aditCarries s then (if (tiesInService s).contains t then 2 else 3)
  else if s.adit.link = .failed ∨ (s.adit.link = .down ∧ x.state = 3) then 3 else 1

/-- STATE of a receive tie line. -/
def recvTieState (s : State) (t : Nat) : Nat :=
  let x := getTie s (tieRecvKey t)
  if !tcEnable x.config then 0
  else if aditCarries s then
    if !Tab.has s.adit.announced t then (if x.state = 0 ∨ x.state = 1 then 1 else 3)
    else if tieAgrees s t (Tab.get s.adit.announced t []) then 2 else 4
  else if s.adit.link = .failed ∨ (s.adit.link = .down ∧ x.state = 3) then 3 else 1

/-- Bring the states of all tie lines in line with the link. -/
def settleTies (s : State) : State :=
  let s := (List.range 32).foldl (fun s t => moveTie s 0 t (sendTieState s t) 0) s
  (List.range 32).foldl (fun s t =>
    let n := recvTieState s t
    moveTie s 1 t n (if n = 3 then cLOSS_DARK else if n = 4 then cFORMAT else 0)) s

/-! ### The link (R446, R453) -/

/-- A change of a send tie line comes into force. -/
def sendTakes (s : State) (t : Nat) : State :=
  let k := tieSendKey t
  let x := getTie s k
  match x.pending with
  | none => s
  | some c => wake (onAdit (setTie s k { x with config := c, pending := none }) fun a => { a with pendingEpoch := true }) (.aditPeriod t) (some s.now)

/-- The channels of the bound Adit receive groups (R342, R452). -/
def groupChannels (s : State) : List Nat :=
  s.audio.binds.flatMap fun p => if p.1 / 256 = 2 then bindChannels p.2 else []

/-- ADIT_LINK (R458): a change of the link, or a lane (0xFF for none) out of or back into service. The channels of audio groups fade
with the link (DESIGN CHOICE, log entry 124). -/
def moveLink (s : State) (goal : AditState) (lane : Nat) : State :=
  let old := s.adit.link
  if old = goal ∧ lane = 0xFF then s
  else
    let s := raise (onAdit s fun a => { a with link := goal }) 0x148 0 (le 1 (aditNum old) ++ le 1 (aditNum goal) ++ le 1 lane)
    let s := if goal = .up ∨ goal = .spared then s else (List.range 32).foldl sendTakes s
    let did := old == .up || old == .spared
    let s := if did = aditCarries s then s else (groupChannels s).foldl (if did then rampDown else rampUp) s
    if old = goal then s else settleTies s

/-- A lane in service goes out of it (R453): counted, every receive tie line's frame closes INCOMPLETE, and the link fails
at once when fewer than seven lanes are left or the reverse direction cannot tell the partner. -/
def laneOut (s : State) (i : Nat) : State :=
  if !bit s.adit.inService i then s
  else
    let left := s.adit.inService - 2 ^ i
    let s := onAdit s fun a => { a with
      inService := left, laneLosses := satInc 32 a.laneLosses, pendingEpoch := true }
    let s := (recvTies s).foldl (fun s t =>
      let open_ := (getSource s (0x100 + t)).frame.isSome
      let s := closeFrame s (0x100 + t) false false
      setSource s (0x100 + t) { getSource s (0x100 + t) with torn := (getSource s (0x100 + t)).torn || open_ }) s
    let failed := decide (maskCount left < 7) || !s.adit.partnerAligned
    moveLink s (if failed ∧ aditCarries s then .failed else s.adit.link) i

/-- The state of the link at a period boundary with the lanes `avail` (R446, R453). -/
def linkAfter (s : State) (avail : Nat) : AditState :=
  match s.adit.link with
  | .down => .down
  | .training => if avail = s.adit.mask ∧ s.adit.partnerAligned then .up else .training
  | .failed =>
    if !s.adit.partnerAligned then .failed
    else if avail = s.adit.mask then .up else if maskCount avail = 7 then .spared else .failed
  | l =>
    if avail = s.adit.mask then .up
    else if maskCount avail < 7 ∨ !s.adit.partnerAligned then .failed
    else if maskCount avail = 7 ∧ l != .down then .spared else .failed

end Sys2Proof.Machine
end

