-- ==== Sys2Proof/Machine/LaneCmds.lean ====
section
/-! DEFINITION. The LANE commands (R128) and the transitions of serial lanes (R106-R113, R118, R126, R127), with their events (R129).
No command joins a transmitter to a receiver (R122). -/

namespace Sys2Proof.Machine

/-! ### What a lane's changes mean to its unit -/

/-- A receive lane has left LOCKED, or lost its signal: its SDI input is lost (R149), or its Adit lane goes out of service
(R453). A network port's loss is its own row. -/
def laneGone (s : State) (id cause : Nat) : State :=
  match laneSet id with
  | 0 => loseSource s (sourceOfLane s id) cause
  | 4 => laneOut s (laneIndex id)
  | _ => s

/-- A signal has come to a receive lane, or the lane has re-acquired (R138). -/
def laneBack (s : State) (id : Nat) : State :=
  if laneSet id = 0 ∧ inputOn s id then sourceLocking s (sourceOfLane s id) else s

/-- A receive lane that a command makes acquire afresh (R107, R128): its loss of lock is not counted. -/
def reacquire (s : State) (id : Nat) : State :=
  let l := getLane s id
  match l.state with
  | .locked => laneGone (setLane s id (startHunt s id l)) id cLOSS_CDR
  | .acquiring => setLane s id (startHunt s id l)
  | _ => s

/-- Acquisition completes with a code (R109). -/
def lockLane (s : State) (id code : Nat) : State :=
  laneBack (setLane s id { getLane s id with state := .locked, ctleCode := code, adapting := false }) id

/-- A lane locked without adaptation: what EYE_MARGIN it has is not given, and is a free value (log entry 113). -/
def lockUnmeasured (s : State) (id code : Nat) : State :=
  let (m, s) := takeByte s
  lockLane (setLane s id { getLane s id with eyeMargin := m.toNat }) id code

/-- Whether the input of a receive lane is routed (R128). -/
def laneRouted (s : State) (id : Nat) : Bool := laneSet id == 0 && isRead s (sourceOfLane s id)

/-! ### Checks shared by the commands -/

/-- The domain a refusal of a LANE command names (R102). -/
def laneNamed (s : State) (c : Cmd) : Option Nat :=
  if validLane s.product (u16 c.p 0) then some (laneDomain (u16 c.p 0)) else none

def rxLaneNack (s : State) (c : Cmd) : Option Nack :=
  need (validLane s.product (u16 c.p 0) && isRxLane (u16 c.p 0)) (badArg 0)

def txLaneNack (s : State) (c : Cmd) : Option Nack :=
  need (validLane s.product (u16 c.p 0) && !isRxLane (u16 c.p 0)) (badArg 0)

/-! ### LANE.STATUS -/

/-- STATE of LANE.STATUS. -/
def laneStateNum (s : State) (id : Nat) : Nat :=
  if !isRxLane id then (if txLaneOn s id then 3 else 0)
  else
    match (getLane s id).state with
    | .off => 0
    | .dark => 1
    | .acquiring => 2
    | .locked => 3

/-- RATE in use. -/
def laneRate (s : State) (id : Nat) : Nat :=
  match laneSet id with
  | 0 => (getLane s id).rate
  | 1 =>
    let o := getOutput s (laneIndex id)
    if sdiLaneOn s (laneIndex id) then rateCode (ocFormat (if ocEnable o.config then o.config else o.committed))
    else if (getLane s id).prbs.on then (getLane s id).prbs.rate else 0
  | _ => 0

def laneFamily (s : State) (id : Nat) : Nat :=
  match laneSet id with
  | 0 => (getLane s id).family
  | 1 => (getGroup s (laneIndex id / 8)).family
  | _ => 0

/-- PPM in 0.01 ppm: of a transmit lane, what its interpolator follows, held at its limit (R117, R118). -/
def lanePpm (s : State) (id : Nat) : Int :=
  if isRxLane id then (getLane s id).ppm
  else if laneSet id = 1 ∧ sdiLaneOn s (laneIndex id) then
    let d := gangOf s (laneIndex id)
    let o := getOutput s d
    let v := if o.following then rawPpm s (reSource (getRoute s d).entry) else (getRef s (ocEngine o.config)).freq / 10
    max (-30000) (min 30000 v)
  else 0

/-- The equaliser code in use: while fresh adaptation moves it, a free value (log entry 113). -/
def codeInUse (s : State) (l : Lane) : Nat :=
  match l.state with
  | .locked => l.ctleCode
  | .acquiring => if l.adapting then (takeByte s).1.toNat % 41 else l.ctleCode
  | _ => 0

/-- The lane's FLAGS. -/
def laneFlags (l : Lane) : Nat := flag l.invert + 2 * flag l.prbs.on + 4 * flag l.piLimit

/-- LANE.STATUS (R128). -/
def defLaneStatus : CommandDef where
  opcode := 0x1001
  lenOk c := c.len == 4
  check s c := firstOf [need (validLane s.product (u16 c.p 0)) (badArg 0), need (zeroAt c.p 2 2) (badArg 2)]
  named := laneNamed
  run s c :=
    let id := u16 c.p 0
    let l := getLane s id
    let rx := isRxLane id
    let locked := rx && l.state == .locked
    readDone (if l.adapting then (takeByte s).2 else s) (le 2 id ++ le 1 (laneStateNum s id) ++ le 1 (laneRate s id) ++ le 1 (laneFamily s id) ++
      le 1 (if rx then codeInUse s l else 0) ++ le 1 (if locked then l.eyeMargin else 0) ++ le 1 (if laneSet id = 4 then l.align else 0) ++
      le 2 l.signature.toNat ++ le 2 ((l.record.map fun r => r.signature.toNat).getD 0) ++
      le 1 (if rx then (l.record.map (·.code)).getD 0xFF else 0) ++ le 1 (if rx then 0 else laneSwing s id) ++
      le 1 (if rx then 0 else laneDeemph s id) ++ le 1 (laneFlags l) ++ leInt 4 (lanePpm s id) ++ le 4 l.lockLosses ++
      le 2 l.readapts ++ le 2 l.reuses ++ le 4 l.recentres)

def execLaneStatus (ch : Fin 32) (s : State) : Result := .next (runCommand defLaneStatus ch s)

/-! ### LANE.RX_CONFIG -/

/-- Whether LANE.RX_CONFIG forces re-acquisition (R128). -/
def rxForces (s : State) (c : Cmd) : Bool :=
  let l := getLane s (u16 c.p 0)
  l.cfgRate != u8 c.p 2 || l.cfgMode != u8 c.p 3 || l.cfgCode != u8 c.p 4 || bit (u8 c.p 5) 1

/-- The settings LANE.RX_CONFIG commits. -/
def setRx (s : State) (c : Cmd) : State :=
  let l := getLane s (u16 c.p 0)
  setLane s (u16 c.p 0) { l with
    cfgRate := u8 c.p 2, cfgMode := u8 c.p 3, cfgCode := u8 c.p 4, invert := bit (u8 c.p 5) 0
    record := if bit (u8 c.p 5) 1 then none else l.record
    sigTol := if u8 c.p 6 = 0 then 4 else u8 c.p 6 }

/-- LANE.RX_CONFIG (R128). -/
def defLaneRxConfig : CommandDef where
  opcode := 0x1002
  flags := flagsForce
  lenOk c := c.len == 16
  check s c :=
    firstOf
      [rxLaneNack s c,
       need (u8 c.p 2 == 0 || (laneSet (u16 c.p 0) == 0 && decide (u8 c.p 2 ≤ 5))) (badArg 2),
       need (decide (u8 c.p 3 ≤ 2)) (badArg 3),
       need (u8 c.p 4 == 0 || (u8 c.p 3 == 2 && decide (u8 c.p 4 ≤ 40))) (badArg 4),
       need (decide (u8 c.p 5 < 4)) (badArg 5), need (decide (u8 c.p 6 ≤ 32)) (badArg 6), need (zeroAt c.p 7 9) (badArg 7)]
  named := laneNamed
  admission s c :=
    firstOf [need (!(rxForces s c && laneRouted s (u16 c.p 0)) || c.force) { status := stROUTED },
             currentNack s (setRx s c) (laneDomain (u16 c.p 0))]
  run s c :=
    let t := setRx (commit s c 0xFFFF) c
    { state := if rxForces s c then reacquire t (u16 c.p 0) else t, effect := some s.now }

def execLaneRxConfig (ch : Fin 32) (s : State) : Result := .next (runCommand defLaneRxConfig ch s)

/-! ### LANE.TX_CONFIG -/

def setTx (s : State) (c : Cmd) : State :=
  setLane s (u16 c.p 0) { getLane s (u16 c.p 0) with
    swing := some (u8 c.p 2), deemph := some (u8 c.p 3), invert := bit (u8 c.p 4) 0 }

/-- LANE.TX_CONFIG (R114, R128). -/
def defLaneTxConfig : CommandDef where
  opcode := 0x1003
  flags := flagsChange
  lenOk c := c.len == 8
  check s c :=
    firstOf [txLaneNack s c, need (decide (u8 c.p 2 ≤ 15)) (badArg 2), need (decide (u8 c.p 3 ≤ 12)) (badArg 3),
             need (decide (u8 c.p 4 < 2)) (badArg 4), need (zeroAt c.p 5 3) (badArg 5)]
  named := laneNamed
  admission s c := currentNack s (setTx s c) (laneDomain (u16 c.p 0))
  run s c := { state := setTx (commit s c 0xFFFF) c, effect := some s.now }

def execLaneTxConfig (ch : Fin 32) (s : State) : Result := .next (runCommand defLaneTxConfig ch s)

/-! ### LANE.GROUP_FAMILY -/

def groupOutputs (s : State) (g : Nat) : List Nat :=
  ((List.range 8).map (8 * g + ·)).filter fun d => decide (d < sdiCount s.product)

/-- The lowest-numbered output of a group for which `f` holds, as a refusal (R116, R219). -/
def groupNack (s : State) (g status : Nat) (f : Nat → Bool) : Option Nack :=
  ((groupOutputs s g).find? f).map (refuse status)

/-- LANE.GROUP_FAMILY (R116): the family changes at admission; it completes when the PLL of a powered group is locked. -/
def defLaneGroupFamily : CommandDef where
  opcode := 0x1004
  flags := flagsChange
  lenOk c := c.len == 4
  check s c :=
    firstOf [need (decide (u8 c.p 0 < unitCount s.product 16)) (badArg 0), need (decide (u8 c.p 1 ≤ 1)) (badArg 1),
             need (zeroAt c.p 2 2) (badArg 2)]
  named s c := if u8 c.p 0 < unitCount s.product 16 then some (0x10 + u8 c.p 0) else none
  admission s c :=
    firstOf
      [groupNack s (u8 c.p 0) stROUTED fun d => hasRoute s (gangOf s d) || (ashlarDriving s (gangOf s d)).isSome,
       groupNack s (u8 c.p 0) stFORMAT_MISMATCH fun d =>
         outputOn s d && fmtFamily (ocFormat (getOutput s d).committed) != u8 c.p 1,
       need (!(getGroup s (u8 c.p 0)).relocking) { status := stBUSY_DRAIN }]
  run s c :=
    let g := u8 c.p 0
    let on := powered s (0x10 + g)
    if on then
      { state := setGroup (commitLater s c 0xFFFF) g { family := u8 c.p 1, relocking := true }, wait := some (.groupPll g) }
    else { state := setGroup (commit s c 0xFFFF) g { family := u8 c.p 1 }, effect := some s.now }

def execLaneGroupFamily (ch : Fin 32) (s : State) : Result := .next (runCommand defLaneGroupFamily ch s)

/-- GROUP_PLL_LOCKED (R116): the lanes resume, and the command completes. -/
def execGroupPllLocked (g : Fin 16) (s : State) : Result :=
  if (getGroup s g).relocking then
    .next (wake (setGroup s g { getGroup s g with relocking := false }) (.groupPll g) (some s.now))
  else .next s

/-! ### PRBS (R123-R126) -/

/-- A lane enabled by its input, output, port or link. -/
def laneInUse (s : State) (id : Nat) : Bool :=
  match laneSet id with
  | 0 => inputOn s (laneIndex id)
  | 1 => sdiLaneOn s (laneIndex id)
  | 2 => netLaneOn s (laneIndex id / 4)
  | 3 => netLaneOn s (laneIndex id / 4)
  | _ => aditOn s

/-- Whether a flow is enabled on network port `p`. -/
def portHasFlow (s : State) (p : Nat) : Bool := s.flows.any fun f =>
  [f.2.config, f.2.pending.getD [], ((f.2.moving.map (·.config)).getD [])].any fun c => fcEnable c && bit (fcPorts c) p

/-- A tie line is allocated in either direction. -/
def tieAllocated (s : State) : Bool := s.adit.ties.any fun t => tcEnable t.2.config || tcEnable (t.2.pending.getD [])

/-- Whether a transmit lane carries traffic (R124). -/
def carriesTraffic (s : State) (id : Nat) : Bool :=
  match laneSet id with
  | 1 => hasRoute s (gangOf s (laneIndex id))
  | 3 => portHasFlow s (laneIndex id / 4)
  | 5 => tieAllocated s
  | _ => false

/-- The rate of a LANE.PRBS (R124, R128): the RATE given, or with 0 the current rate, which a receive lane hunts. A transmit lane
that nothing enables has none, and the code its generator takes is a free value (log entry 114). -/
def prbsRate (s : State) (c : Cmd) : Nat :=
  let id := u16 c.p 0
  if u8 c.p 5 ≠ 0 then u8 c.p 5
  else if laneSet id ≠ 1 then 0
  else if laneRate s id ≠ 0 then laneRate s id
  else 1 + (takeByte s).1.toNat % 5

/-- The PRBS setting of a LANE.PRBS: turning a function on sets its counters to 0. -/
def setPrbs (s : State) (c : Cmd) : State :=
  let id := u16 c.p 0
  let l := getLane s id
  if u8 c.p 2 = 1 then
    setLane (takeByte s).2 id { l with prbs :=
      { on := true, pattern := u8 c.p 3, invert := bit (u8 c.p 4) 0, rate := prbsRate s c } }
  else setLane s id { l with prbs := { l.prbs with on := false, inSync := false } }

/-- The state after LANE.PRBS, its journal apart: the lane follows its enable, and its domain its need. -/
def prbsTakes (s : State) (c : Cmd) : State :=
  let id := u16 c.p 0
  let s := setPrbs s c
  let s := if isRxLane id then refreshLane s id else s
  if u8 c.p 2 = 1 then needDomain s (laneDomain id) else settleDomain s (laneDomain id)

/-- LANE.PRBS (R124, R128). -/
def defLanePrbs : CommandDef where
  opcode := 0x1005
  flags := flagsForce
  lenOk c := c.len == 8
  check s c :=
    let id := u16 c.p 0
    firstOf
      [need (validLane s.product id) (badArg 0), need (decide (u8 c.p 2 ≤ 1)) (badArg 2),
       need (decide (u8 c.p 3 ≤ 4)) (badArg 3), need (decide (u8 c.p 4 < 2)) (badArg 4),
       need (u8 c.p 5 == 0 || (decide (laneSet id < 2) && decide (u8 c.p 5 ≤ 5) && !laneInUse s id)) (badArg 5),
       need (zeroAt c.p 6 2) (badArg 6)]
  named := laneNamed
  admission s c :=
    let id := u16 c.p 0
    let on := u8 c.p 2 == 1
    firstOf
      [need (!(laneSet id == 1 && u8 c.p 5 == 1 && (getGroup s (laneIndex id / 8)).family == 1)) { status := stFORMAT_MISMATCH },
       need (!(on && carriesTraffic s id) || c.force) { status := stROUTED },
       if on then forcedOffNack s (laneDomain id) else none,
       currentNack s (prbsTakes s c) (laneDomain id)]
  run s c := { state := prbsTakes (commit s c 0xFFFF) c, effect := some s.now }

def execLanePrbs (ch : Fin 32) (s : State) : Result := .next (runCommand defLanePrbs ch s)

/-- What a checker in sync has compared since it was last looked at (R126): the counters saturate at 48 bits. -/
def compared (l : Lane) (n errors : Nat) : Lane :=
  if l.prbs.inSync then
    { l with prbs := { l.prbs with bits := satAdd 48 l.prbs.bits n, errors := satAdd 48 l.prbs.errors errors } }
  else l

/-- LANE.PRBS_READ (R128); `n` and `errors` are what the checker compared since its last row. -/
def defLanePrbsRead (n errors : Nat) : CommandDef where
  opcode := 0x1006
  lenOk c := c.len == 4
  check s c := firstOf [rxLaneNack s c, need (zeroAt c.p 2 2) (badArg 2)]
  named := laneNamed
  run s c :=
    let l := compared (getLane s (u16 c.p 0)) n errors
    readDone (setLane s (u16 c.p 0) l)
      (le 8 l.prbs.bits ++ le 8 l.prbs.errors ++ le 4 l.prbs.syncLosses ++ le 1 (flag l.prbs.inSync) ++
        le 1 (if l.prbs.on then l.prbs.pattern else 0xFF) ++ zeros 2 ++ le 8 s.now)

def execLanePrbsRead (ch : Fin 32) (n errors : Nat) (s : State) : Result :=
  .next (runCommand (defLanePrbsRead n errors) ch s)

/-! ### LANE.SLIP and LANE.ADAPT -/

/-- Move a lane's block boundary (R127): it searches again. -/
def slipLane (s : State) (id n : Nat) : State :=
  let l := getLane s id
  let s := if l.align = 1 then laneOut s (laneIndex id) else s
  setLane s id { getLane s id with align := 0, boundary := (l.boundary + n) % 64 }

/-- LANE.SLIP (R127, R128). -/
def defLaneSlip : CommandDef where
  opcode := 0x1007
  flags := flagsForce
  lenOk c := c.len == 4
  check s c :=
    firstOf [need (validLane s.product (u16 c.p 0) && laneSet (u16 c.p 0) == 4) (badArg 0),
             need (decide (1 ≤ u8 c.p 2) && decide (u8 c.p 2 ≤ 63)) (badArg 2), need (zeroAt c.p 3 1) (badArg 3)]
  named := laneNamed
  admission s c := need (!((getLane s (u16 c.p 0)).align == 1 && tieAllocated s) || c.force) { status := stROUTED }
  run s c := { state := slipLane (commit s c 0xFFFF) (u16 c.p 0) (u8 c.p 2), effect := some s.now }

def execLaneSlip (ch : Fin 32) (s : State) : Result := .next (runCommand defLaneSlip ch s)

/-- LANE.ADAPT (R128). -/
def defLaneAdapt : CommandDef where
  opcode := 0x1008
  flags := flagsForce
  lenOk c := c.len == 4
  check s c := firstOf [rxLaneNack s c, need (zeroAt c.p 2 2) (badArg 2)]
  named := laneNamed
  admission s c := need (!laneRouted s (u16 c.p 0) || c.force) { status := stROUTED }
  run s c :=
    let t := commit s c 0xFFFF
    { state := reacquire (setLane t (u16 c.p 0) { getLane t (u16 c.p 0) with record := none }) (u16 c.p 0), effect := some s.now }

def execLaneAdapt (ch : Fin 32) (s : State) : Result := .next (runCommand defLaneAdapt ch s)

/-! ### Acquisition and loss (R106-R113) -/

/-- SIGNAL_DETECTED (R109); update stage 2 makes a new acquisition wait (R527). -/
def execSignalDetected (id : BitVec 16) (s : State) : Result :=
  let l := getLane s id.toNat
  if l.state = .dark ∧ adaptationHeld s = false then .next (laneBack (setLane s id.toNat (startHunt s id.toNat l)) id.toNat) else .next s

/-- SIGNAL_LOST (R107). -/
def execSignalLost (id : BitVec 16) (s : State) : Result :=
  let l := getLane s id.toNat
  if l.state = .acquiring ∨ l.state = .locked then
    .next (laneGone (setLane s id.toNat (laneTo (countLockLoss l) .dark)) id.toNat cLOSS_DARK)
  else .next s

/-- RATE_HUNT_STEP (R108). -/
def execRateHuntStep (id : BitVec 16) (s : State) : Result :=
  let l := getLane s id.toNat
  if l.state = .acquiring ∧ !l.cdrLocked ∧ laneSet id.toNat = 0 then
    .next (setLane s id.toNat { l with rate := (nextRate s id.toNat l).1, tried := (nextRate s id.toNat l).2 })
  else .next s

/-- CDR_LOCK (R109): the family and the frequency offset are measured from here on. -/
def execCdrLock (id : BitVec 16) (family : Fin 2) (ppm : Int) (s : State) : Result :=
  let l := getLane s id.toNat
  if l.state = .acquiring ∧ !l.cdrLocked then
    .next (setLane s id.toNat { l with cdrLocked := true, family := family, ppm := ppm, lastLocked := l.rate })
  else .next s

/-- CDR_LOCK_LOSS (R107). -/
def execCdrLockLoss (id : BitVec 16) (s : State) : Result :=
  let l := getLane s id.toNat
  match l.state with
  | .locked => .next (laneGone (setLane s id.toNat (startHunt s id.toNat (countLockLoss l))) id.toNat cLOSS_CDR)
  | .acquiring => .next (setLane s id.toNat { l with
      cdrLocked := false, adapting := false, ctleCode := 20, prbs := { l.prbs with inSync := false } })
  | _ => .next s

/-- SIGNATURE_MEASURED (R109, R113): a fixed code or a stored one locks the lane; otherwise fresh adaptation starts. -/
def execSignatureMeasured (id sig : BitVec 16) (s : State) : Result :=
  let l := getLane s id.toNat
  if l.state = .acquiring ∧ l.cdrLocked ∧ adaptationHeld s = false then
    let l := { l with signature := sig }
    if l.cfgMode = 2 then .next (lockUnmeasured (setLane s id.toNat l) id.toNat l.cfgCode)
    else if recordServes l sig then
      .next (lockUnmeasured (setLane s id.toNat { l with reuses := satInc 16 l.reuses }) id.toNat
        ((l.record.map (·.code)).getD 0))
    else .next (setLane s id.toNat { l with adapting := true })
  else .next s

/-- ADAPTATION_DONE (R109): the record is replaced, and LANE_READAPTED raised. -/
def execAdaptationDone (id : BitVec 16) (code : Fin 41) (margin : Byte) (s : State) : Result :=
  let l := getLane s id.toNat
  if l.state = .acquiring ∧ l.cdrLocked ∧ l.adapting ∧ adaptationHeld s = false then
    let s := setLane s id.toNat { l with
      record := some { code := code, signature := l.signature, rate := l.rate }, eyeMargin := margin.toNat
      readapts := satInc 16 l.readapts }
    .next (raise (lockLane s id.toNat code) 0x110 id.toNat (le 1 code ++ zeros 1 ++ le 2 l.signature.toNat))
  else .next s

/-- Whether a lane may step its code (R111): an SDI lane after an EAV that the Weighbridge has detected, another at any time. -/
def mayStep (s : State) (id : Nat) : Bool :=
  let x := getSource s (sourceOfLane s id)
  laneSet id != 0 || (inputOn s id && (x.state == .locked || x.state == .formatted))

/-- TRACKING_STEP (R110, R111): at most one code toward a better margin, and the stored code with it. The stored signature stays
that of the adaptation the record comes from, also after an acquisition that reused it (R112, log entry 115). -/
def execTrackingStep (id : BitVec 16) (step : Option Bool) (margin : Byte) (s : State) : Result :=
  let l := getLane s id.toNat
  if l.state = .locked ∧ l.cfgMode = 1 ∧ mayStep s id.toNat ∧ adaptationHeld s = false then
    let code := match step with
      | some true => min (l.ctleCode + 1) 40
      | some false => l.ctleCode - 1
      | none => l.ctleCode
    .next (setLane s id.toNat { l with
      ctleCode := code, eyeMargin := margin.toNat, record := l.record.map fun r => { r with code := code } })
  else .next s

/-! ### Phase interpolator (R118) -/

/-- PI_LIMIT: an interpolator that carries a direct route reaches, or leaves, its limit. Reaching it is a demotion trigger
of the source. -/
def execPiLimit (n : Fin 128) (limit : Bool) (ppm : Int) (s : State) : Result :=
  let id := 0x100 + n.val
  let l := getLane s id
  let d := gangOf s n.val
  if !(getOutput s d).following || limit == l.piLimit then .next s
  else
    let s := setLane s id { l with piLimit := limit }
    if limit then
      .next (demotionTrigger (inputFault (raise s 0x111 id (leInt 4 ppm)) (reSource (getRoute s d).entry) cPI_LIMIT)
        (reSource (getRoute s d).entry) cPI_LIMIT)
    else .next s

/-- LANE_RECENTRE: the elastic buffer stands at `level` words. -/
def execLaneRecentre (n : Fin 128) (level : Fin 65) (s : State) : Result :=
  let id := 0x100 + n.val
  let l := getLane s id
  if !l.piLimit then .next s
  else if 4 < level.val ∧ level.val < 60 then .next (setLane s id { l with buffer := level })
  else
    .next (raise (setLane s id { l with buffer := 32, recentres := satInc 32 l.recentres }) 0x112 id
      (le 4 (satInc 32 l.recentres)))

/-! ### Checkers and alignment (R126, R127) -/

/-- PRBS_SYNC. -/
def execPrbsSync (id : BitVec 16) (s : State) : Result :=
  let l := getLane s id.toNat
  if l.prbs.on ∧ isRxLane id.toNat ∧ l.cdrLocked then
    .next (setLane s id.toNat { l with prbs := { l.prbs with inSync := true } })
  else .next s

/-- LANE_PRBS_SYNC_LOST. -/
def execLanePrbsSyncLost (id : BitVec 16) (n errors : Nat) (s : State) : Result :=
  let l := getLane s id.toNat
  if l.prbs.on ∧ l.prbs.inSync then
    let l := compared l n errors
    let k := satInc 32 l.prbs.syncLosses
    .next (raise (setLane s id.toNat { l with prbs := { l.prbs with inSync := false, syncLosses := k } }) 0x113 id.toNat (le 4 k))
  else .next s

/-- ALIGN_FOUND. -/
def execAlignFound (i : Fin 8) (s : State) : Result :=
  let l := getLane s (0x400 + i)
  if l.state = .locked then .next (setLane s (0x400 + i) { l with align := 1 }) else .next s

/-- ALIGN_LOST: an aligned lane is lost, and goes out of service (R453). -/
def execAlignLost (i : Fin 8) (s : State) : Result :=
  let l := getLane s (0x400 + i)
  if l.align = 1 then .next (laneOut (setLane s (0x400 + i) { l with align := 2 }) i) else .next s

end Sys2Proof.Machine
end

