-- ==== Sys2Proof/Machine/Picture.lean ====
section
/-! DEFINITION. Samples of pictures (R146, R156, R171-R173, R257, R273, R315): reading them from a bench, the internal 16-bit
scale, packing lines and frames, and samples the manual leaves open. -/

namespace Sys2Proof.Machine

/-! ### Open values -/

def openDivNat (n d : Nat) : Nat := (openDiv n d).toNat

/-- Place of component `k` of the sample in line `n` and column `c`, among the free values of one picture. -/
def cell (n c k : Nat) : Nat := 4 * (65536 * n + c) + k

/-- Free values that one picture may use. -/
def pictureSpan : Nat := 4 * 65536 * 65536

/-- A free 16-bit value of picture `i` of those that start at counter `base`. -/
def wild (base i n c k : Nat) : Nat := (Config.freeWord (base + i * pictureSpan + cell n c k)).toNat

/-! ### Samples -/

/-- One sample of a picture, on the internal 16-bit scale (R257). -/
structure Sample where
  y : Nat
  cb : Nat
  cr : Nat
  deriving DecidableEq, Repr

/-- A picture: its sample in a line and a column. -/
abbrev Picture := Nat → Nat → Sample

def wildPicture (base i : Nat) : Picture := fun n c => ⟨wild base i n c 0, wild base i n c 1, wild base i n c 2⟩

/-- A code on the internal 16-bit scale (R257). -/
def enterCode (depth v : Nat) : Nat := if depth = 12 then v * 16 else v * 64

/-- Step 8 without dither (R273): rounded half upward and clipped. -/
def leaveCode (depth v : Nat) : Nat :=
  if depth = 12 then min (max ((v + 8) / 16) 16) 4079 else min (max ((v + 32) / 64) 4) 1019

/-- Rounded half upward to a depth (R315). -/
def roundCode (depth v : Nat) : Nat := if depth = 12 then min ((v + 8) / 16) 4095 else min ((v + 32) / 64) 1023

/-- Black of a format (R146). -/
def blackSample (f : Bytes) : Sample :=
  ⟨enterCode (fmtDepth f) (blackY f), enterCode (fmtDepth f) (blackC f), enterCode (fmtDepth f) (blackC f)⟩

/-- Code `i` of a packed line that starts at bench address `x` (R172). -/
def storedCode (s : State) (b : Bench) (depth x i : Nat) : Nat :=
  if depth = 12 then u16 (benchRead s b (x + 2 * i) 2) 0 % 4096
  else u32 (benchRead s b (x + 4 * (i / 3)) 4) 0 / 2 ^ (10 * (i % 3)) % 1024

/-- Luma of a stored frame of format `f` at bench address `x`. -/
def storedLuma (s : State) (b : Bench) (x : Nat) (f : Bytes) (n c : Nat) : Nat :=
  enterCode (fmtDepth f) (storedCode s b (fmtDepth f) (x + lumaOff f n) c)

/-- Chroma component `k` (0 Cb, 1 Cr) that stands with column `c` of line `n` (R171). -/
def storedChroma (s : State) (b : Bench) (x : Nat) (f : Bytes) (n c k : Nat) : Nat :=
  enterCode (fmtDepth f)
    (storedCode s b (fmtDepth f) (x + chromaOff f n) (2 * (if fmtSampling f = 1 then c else c / 2) + k))

/-- The sample of a stored frame with the chroma that stands with it. -/
def storedSample (s : State) (b : Bench) (x : Nat) (f : Bytes) : Picture := fun n c =>
  ⟨storedLuma s b x f n c, storedChroma s b x f n c 0, storedChroma s b x f n c 1⟩

/-! ### Packing -/

/-- The luma line of picture line `n`, each sample brought to a code. -/
def packLuma (f : Bytes) (code : Nat → Nat) (p : Picture) (n : Nat) : Bytes :=
  packLine (fmtDepth f) ((List.range (fmtWidth f)).map fun c => code (p n c).y)

/-- The chroma line that stands with picture line `n`: of every sample, or of the even ones. -/
def packChroma (f : Bytes) (code : Nat → Nat) (p : Picture) (n : Nat) : Bytes :=
  let step := if fmtSampling f = 1 then 1 else 2
  packLine (fmtDepth f) ((List.range (chromaSamples f / 2)).flatMap fun c =>
    [code (p n (step * c)).cb, code (p n (step * c)).cr])

/-- A whole frame: the luma plane, and the chroma plane after it (R171). -/
def packFrame (f : Bytes) (code : Nat → Nat) (p : Picture) : Bytes :=
  ((List.range (fmtHeight f)).flatMap fun n => packLuma f code p n) ++
    (List.range (chromaLines f)).flatMap fun n => packChroma f code p (if fmtSampling f = 2 then 2 * n else n)

/-- A frame whose codes the manual does not give, but whose layout it does. -/
def wildFrame (f : Bytes) (base : Nat) : Bytes := packFrame f (fun v => v % 2 ^ fmtDepth f) (wildPicture base 0)

/-! ### Proxies (R156) -/

/-- The format of a proxy level at 1/k: always 4:2:2, 10-bit narrow range. -/
def levelFormat (f : Bytes) (k : Nat) : Bytes :=
  le 2 (roundUp (ceilDiv (fmtWidth f) k) 2) ++ le 2 (ceilDiv (fmtHeight f) k) ++ sub f 4 2 ++ le 1 0 ++ le 1 10 ++ sub f 8 2 ++
    le 1 0 ++ sub f 11 5

/-- Offset within a slot of level `k`: the frame itself, or ½, ¼ and ⅛ in that order (R175). -/
def levelOff (b : Bench) (f : Bytes) (k : Nat) : Nat :=
  if k = 1 then 0
  else proxyOff b + (if k = 2 then 0 else if k = 4 then proxyLevel f 2 else proxyLevel f 2 + proxyLevel f 4)

/-- Bench address of level `k` of slot `j`. -/
def levelAddr (b : Bench) (f : Bytes) (j k : Nat) : Nat := j * benchPitch b + levelOff b f k

/-! ### Tiles (R157) -/

/-- The tile of column `c` of picture line `n`: tiles are numbered along a row of tiles, rows downward, those of an interlaced
source's second field after the first's (DESIGN CHOICE, log entry 110). -/
def tileOf (f : Bytes) (n c : Nat) : Nat :=
  let across := ceilDiv (fmtWidth f) 128
  if fmtScan f = 1 then (n % 2 * ceilDiv (fmtHeight f / 2) 32 + n / 2 / 32) * across + c / 128 else n / 32 * across + c / 128

/-- A packed line with the codes of the old one where `keep` holds of their column; `span` codes stand for each column. -/
def mixLine (depth span count : Nat) (old new : Bytes) (keep : Nat → Bool) : Bytes :=
  packLine depth (((List.zip (List.range count) (List.zip (unpackLine depth old) (unpackLine depth new)))).map fun p =>
    if keep (p.1 / span) then p.2.1 else p.2.2)

end Sys2Proof.Machine
end

