-- ==== Sys2Proof/Machine/Inputs.lean ====
section
/-! DEFINITION. The INPUT commands (R163, R164) and what a source's signal brings: locking, frame starts, lines, ancillary
packets, rate updates and losses (R138-R162). -/

namespace Sys2Proof.Machine

/-! ### Contracts -/

/-- Fused ceilings of SLOTS and ANC_QUOTA (R133, R541): the device maximum while unprogrammed; a value above a field's
range counts as the maximum (R542). -/
def slotsCeiling (s : State) : Nat :=
  let v := fuseField s 15 0x14A 1
  if v = 0 ∨ 16 < v then 16 else v

def ancCeiling (s : State) : Nat :=
  let v := fuseField s 14 0x148 2
  if v = 0 ∨ 256 < v then 65536 else 256 * v

/-- An object an INPUT command may name (R134, R163): a weighed source, but not lane 4k + 1 to 4k + 3 of a gang. -/
def inputObject (s : State) (i : Nat) : Bool := isWeighed s.product i && !(isSdi i && sourceOfLane s i != i)

/-- Field checks of INPUT.CONTRACT (R132-R134, R163). -/
def contractNack (s : State) (c : Cmd) : Option Nack :=
  let i := u16 c.p 0
  let f := ctFormat c.p
  firstOf
    [need (inputObject s i) (badArg 0), need (u8 c.p 2 == 0 || (u8 c.p 2 == 1 && isSdi i)) (badArg 2),
     need (decide (u8 c.p 3 ≤ 1)) (badArg 3), (fmtBadField f).map fun o => badArg (4 + o),
     need (!isSdi i || sdiFormat f) (badArg 4), need (isSdi i || fmtLink f == 0) (badArg 15),
     need (fmtLink f != 3 || i % 4 == 0) (badArg 15), need (decide (u16 c.p 20 ≤ 500)) (badArg 20),
     need (decide (1 ≤ u8 c.p 22) && decide (u8 c.p 22 ≤ slotsCeiling s)) (badArg 22),
     need (decide (u8 c.p 23 ≤ 32)) (badArg 23), need (decide (u32 c.p 24 ≤ ancCeiling s)) (badArg 24),
     need (decide (u16 c.p 28 ≤ 6000) || u16 c.p 28 == 0xFFFF) (badArg 28), need (decide (u8 c.p 30 ≤ 2)) (badArg 30),
     need (decide (u8 c.p 31 ≤ 3) && (u8 c.p 31 == 0 || isSdi i || isIp i)) (badArg 31),
     need (u16 c.p 32 == 0 || isHostSource i) (badArg 32), need (zeroAt c.p 34 6) (badArg 34)]

/-- Whether a change of the source has not completed (R136). -/
def boundaryPending (s : State) (i : Nat) : Bool :=
  let x := getSource s i
  x.pendingContract.isSome || x.pendingDisable || !x.draining.isEmpty ||
  (match getBench s (benchKey i false) with
    | some b => decide (b.pendingSlots < b.slots) && !b.ending
    | none => false)

/-- The source under a new contract, for the choice of classes at admission. -/
def withContract (s : State) (i : Nat) (c : Bytes) : State :=
  setSource s i { getSource s i with contract := some c, pendingContract := none, adopted := keptFormat (getSource s i) c }

/-- An enabled source with a new contract admitted: the contract waits for the source's frame boundary, its bench has the blocks
it will take (R198), and its routes the engines (R135). With the state, how many routes found no engine. -/
def admitContract (s : State) (i : Nat) (c : Bytes) : State × Nat :=
  let es := convertedEntries (withContract s i c) (entriesFrom s i)
  let t := setSource s i { getSource s i with pendingContract := some c }
  placeUnder (grantChange t (benchKey i false) (contractLayout c) (relayouts (contractOf s i) c)) es

/-- The checks of R135 on an enabled source: its routes as a salvo would check them, then bandwidth and current; and on any
source a change that still runs (R95). -/
def contractAdmit (s : State) (c : Cmd) : Option Nack :=
  let i := u16 c.p 0
  let t := withContract s i c.p
  let es := entriesFrom s i
  let a := admitContract s i c.p
  firstOf
    [if !(getSource s i).enabled then none
     else firstOf
      [firstOf (es.map (formatNack t 0xFFFF)), firstOf (es.map (slotsNack t 0xFFFF)),
       need (decide (3 ≤ ctSlots c.p) || (layersOf s i).isEmpty) (refuse stROUTED i),
       need (a.2 == 0) { status := stNO_ENGINE, object := i, shortfall := a.2 },
       bandwidthNack s a.1 i, currentNack s a.1 i],
     need (!boundaryPending s i) (refuse stBUSY_DRAIN i)]

/-- Jobs on the bench of a host source, by their order (R136). -/
def jobsOn (s : State) (i : Nat) : List Nat :=
  (s.portA.dma ++ s.portB.dma).filterMap fun e =>
    match e.2.job with
    | some j => if j.kind < 2 ∧ !jobDest j ∧ j.object = i then some j.order else none
    | none => none

/-- A host source leaves its contract: the jobs taken under it drain, and it stays charged until they have (R136, R164). -/
def leaveContract (s : State) (i : Nat) : State :=
  if isHostSource i then
    setSource s i { getSource s i with draining := jobsOn s i, leaving := (getSource s i).contract }
  else s

/-- A host source's frame boundary is the admission: jobs taken before it drain, and a new layout closes its LANDING slot
INCOMPLETE (R136). -/
def hostContract (s : State) (i : Nat) (c : Bytes) : State :=
  let s := leaveContract s i
  contractTakes (if relayouts (contractOf s i) c then closeLanding s i else s) i

/-- A source at which a change takes effect at admission (R136). -/
def atRest (s : State) (i : Nat) : Bool :=
  let x := getSource s i
  !x.enabled || x.state == .absent || x.state == .lost

/-- A change of source `i` that is done completes now; another waits for its boundary. -/
def boundaryDone (s : State) (i : Nat) (done : Bool) : Done :=
  let shrinking := match getBench s (benchKey i false) with
    | some b => decide (b.pendingSlots < b.slots)
    | none => false
  if done ∧ !shrinking ∧ (getSource s i).draining.isEmpty then
    { state := journalRest s s.fm.gen s.now, effect := some s.now }
  else { state := s, wait := some (.boundary i) }

/-- INPUT.CONTRACT (R133-R136). -/
def defInputContract : CommandDef where
  opcode := 0x0301
  flags := flagsChange
  lenOk c := c.len == 40
  check := contractNack
  admission := contractAdmit
  run s c :=
    let i := u16 c.p 0
    let x := getSource s i
    if !x.enabled then { state := setSource (commit s c i) i { x with contract := some c.p, adopted := [] }, effect := some s.now }
    else
      let t := commitLater (admitContract s i c.p).1 c i
      if isHostSource i then boundaryDone (hostContract t i c.p) i true
      else if atRest s i then boundaryDone (contractTakes t i) i true
      else boundaryDone t i false

def execInputContract (ch : Fin 32) (s : State) : Result := .next (runCommand defInputContract ch s)

/-! ### Enabling and disabling (R164) -/

/-- Lane groups of a source. -/
def sourceGroups (i : Nat) : List Nat := if isSdi i then [0x10 + i / 8] else []

/-- Enable a source that has a contract: its bench, its lanes and their group; a host source is FORMATTED at once. -/
def enableSource (s : State) (i : Nat) : State :=
  if (getSource s i).enabled then s
  else
    let s := setSource s i { getSource s i with
      enabled := true, pendingDisable := false, rateBreach := false, outCount := 0, inCount := 0, blackNow := false }
    let s := makeBench s (benchKey i false) (contractLayout (contractOf s i))
    let s := if isSdi i then (lanesOf s i).foldl refreshLane s else s
    let s := (sourceGroups i).foldl needDomain s
    if isHostSource i then moveSource s i .formatted
    else if isSdi i && (lanesOf s i).any fun n => (getLane s n).state == .acquiring || (getLane s n).state == .locked then
      moveSource s i .locking
    else s

/-- Disable a source: at once when it is at rest or a host source, else at its next frame boundary. Readers that are left
go to black. -/
def disableSource (s : State) (i : Nat) : State :=
  let x := getSource s i
  if !x.enabled then s
  else
    let rest := atRest s i
    let s := setSource s i { x with pendingDisable := true, pendingContract := none, blackNow := isRead s i }
    let s := leaveContract (dropUnused (returnBlocks s (benchKey i false)) i) i
    if rest || isHostSource i then disableTakes s i else s

/-- INPUT.ENABLE (R164). -/
def defInputEnable : CommandDef where
  opcode := 0x0302
  flags := flagsForce
  lenOk c := c.len == 4
  check s c :=
    let i := u16 c.p 0
    firstOf [need (inputObject s i && !isIp i) (badArg 0), need (decide (u8 c.p 2 ≤ 1)) (badArg 2), need (zeroAt c.p 3 1) (badArg 3),
             need (u8 c.p 2 == 0 || (getSource s i).contract.isSome) badWhole]
  admission s c :=
    let i := u16 c.p 0
    let after := enableSource s i
    if u8 c.p 2 = 1 then
      firstOf [bandwidthNack s after i, domainsNack s (sourceGroups i), currentNack s after i,
               need (!boundaryPending s i) (refuse stBUSY_DRAIN i)]
    else
      firstOf [need (!isRead s i || c.force) (refuse stROUTED i), need (!boundaryPending s i) (refuse stBUSY_DRAIN i)]
  run s c :=
    let i := u16 c.p 0
    if u8 c.p 2 = 1 then { state := enableSource (commit s c i) i, effect := some s.now }
    else
      let t := disableSource (commitLater s c i) i
      boundaryDone t i (!(getSource t i).pendingDisable)

def execInputEnable (ch : Fin 32) (s : State) : Result := .next (runCommand defInputEnable ch s)

/-! ### INPUT.STATUS, INPUT.COUNTERS, INPUT.GET_CONTRACT -/

/-- OBJECT of a status command, tie-line sources included where `ties` says so (R451). -/
def statusNack (s : State) (c : Cmd) (ties : Bool) : Option Nack :=
  let i := u16 c.p 0
  firstOf [need (inputObject s i || (ties && isTie i)) (badArg 0), need (zeroAt c.p 2 2) (badArg 2)]

/-- LOSS_HOLD_LEFT in ms (R164). -/
def lossHoldLeft (s : State) (x : Source) : Nat :=
  match x.lossHoldRunning, x.lossHoldEnd with
  | true, some t => ceilDiv (t - s.now) ms
  | _, _ => 0xFFFFFFFF

/-- INPUT.STATUS (R164). -/
def defInputStatus : CommandDef where
  opcode := 0x0303
  lenOk c := c.len == 4
  check s c := statusNack s c true
  run s c :=
    let i := u16 c.p 0
    let x := getSource s i
    let slots := match getBench s (benchKey i false) with
      | some b => if b.ending then 0 else b.slots
      | none => 0
    readDone s (le 2 i ++ le 1 (sourceNum x.state) ++
      le 1 (flag x.enabled + 2 * flag x.rateBreach + 4 * flag x.contractBreach + 8 * flag x.lossHoldExpired +
        16 * flag x.pidPresent) ++ le 1 x.cause ++ le 1 slots ++ le 2 x.formatChanges ++ reportedFormat i x x.state ++
      le 4 x.payloadId.toNat ++ leInt 4 x.ratePpm ++ le 8 x.lastFrame ++ le 8 x.stateSince ++ le 8 x.timecode.toNat ++
      le 4 (lossHoldLeft s x) ++ zeros 4)

def execInputStatus (ch : Fin 32) (s : State) : Result := .next (runCommand defInputStatus ch s)

/-- INPUT.COUNTERS (R164). -/
def defInputCounters : CommandDef where
  opcode := 0x0304
  lenOk c := c.len == 4
  check s c := statusNack s c true
  run s c :=
    let k := (getSource s (u16 c.p 0)).counts
    readDone s (le 2 (u16 c.p 0) ++ zeros 6 ++ le 8 k.framesComplete ++ le 8 k.framesIncomplete ++ le 8 k.tilesSkipped ++
      ([k.shortFrames, k.longFrames, k.longFrameLines, k.shortLines, k.longLines, k.crcErrors, k.trsCorrected, k.trsErrors,
        k.lineNumberErrors, k.pidMismatch, k.ancChecksum, k.ancOverQuota, k.audioOverLimit, k.audioEcc, k.losses,
        k.rateBreaches, k.demotionTriggers, k.packetsMalformed] : List Nat).flatMap (le 4) ++ le 8 s.now)

def execInputCounters (ch : Fin 32) (s : State) : Result := .next (runCommand defInputCounters ch s)

/-- INPUT.GET_CONTRACT (R163): the contract last committed. -/
def defInputGetContract : CommandDef where
  opcode := 0x0305
  lenOk c := c.len == 4
  check s c := statusNack s c false
  run s c :=
    let x := getSource s (u16 c.p 0)
    readDone s (match x.pendingContract, x.contract with
      | some p, _ => p
      | none, some p => p
      | none, none => le 2 (u16 c.p 0) ++ zeros 38)

def execInputGetContract (ch : Fin 32) (s : State) : Result := .next (runCommand defInputGetContract ch s)

/-! ### Counters and faults of a source -/

def onCounts (s : State) (i : Nat) (f : SourceCounts → SourceCounts) : State :=
  let x := getSource s i
  setSource s i { x with counts := f x.counts }

/-- A fault that is also a demotion trigger, once in a frame (R146, R162, R165). -/
def faultOnce (s : State) (i cause : Nat) : State :=
  if (getSource s i).causes.contains cause then s else demotionTrigger (inputFault s i cause) i cause

/-! ### Locking (R138) -/

/-- Whether a source's lanes deliver words: every lane of an SDI source is LOCKED (R106, R142). -/
def wordsArrive (s : State) (i : Nat) : Bool :=
  !isSdi i || (lanesOf s i).all fun n => (getLane s n).state == .locked

/-- TRS_LOCK: four valid EAVs, or the first packet with the marker bit, take a source from LOCKING to LOCKED. A source
lost for want of TRS alone passes through LOCKING. -/
def execTrsLock (i : BitVec 16) (s : State) : Result :=
  let i := i.toNat
  let x := getSource s i
  if !x.enabled || !wordsArrive s i then .next s
  else
    let s := if x.state = .lost then moveSource s i .locking else s
    if (getSource s i).state != .locking then .next s
    else
      let s := moveSource (setSource s i { getSource s i with measured := [] }) i .locked
      .next (setSource s i { getSource s i with framesMeasured := 0, contractBreach := false })

/-! ### Side writes of a frame that closes COMPLETE (R156-R158) -/

/-- Bits of the change map, eight tiles to a byte, tile 0 in bit 0. -/
def mapBitmap : List Bool → Nat → Bytes
  | _, 0 => []
  | l, n + 1 =>
    BitVec.ofNat 8 (sumOf ((List.range 8).map fun i => if l.getD i false then 2 ^ i else 0)) :: mapBitmap (l.drop 8) n

/-- The tiles of a frame that are not written into slot `v` (R157, R158): those whose signature the slot has, but for the one in
256 that is written whatever its signature. -/
def skippedTiles (v : Slot) (tiles : List Nat) : List Nat :=
  ((List.zip (List.range tiles.length) tiles).filter fun p =>
    Tab.has v.tiles p.1 && Tab.get v.tiles p.1 0 == p.2 && p.1 % 256 != v.writeCount % 256).map (·.1)

/-- The lines of a frame keep in the tiles that are skipped what the slot held before (R157). -/
def unwriteTiles (s : State) (i j : Nat) (fmt : Bytes) (kept : List (Nat × Bytes × Bytes)) (skip : List Nat) : State :=
  if skip.isEmpty then s
  else
    kept.foldl (fun s p =>
      match getBench s (benchKey i false) with
      | none => s
      | some b =>
        let same := fun c => skip.contains (tileOf fmt p.1 c)
        let luma := slotRead s b j (lumaOff fmt p.1) (lumaPitch fmt)
        let chroma := slotRead s b j (chromaOff fmt p.1) (chromaPitch fmt)
        writePacked s (benchKey i false) j fmt p.1 (mixLine (fmtDepth fmt) 1 (fmtWidth fmt) p.2.1 luma same)
          (mixLine (fmtDepth fmt) (if fmtSampling fmt = 1 then 2 else 1) (chromaSamples fmt) p.2.2 chroma same)) s

/-- The proxies of a frame (R156): how a level is filtered is not given, so their codes are free values; those of skipped tiles
stay as they are (R157). -/
def writeProxies (s : State) (i j : Nat) (skip : List Nat) : State :=
  match getBench s (benchKey i false) with
  | none => s
  | some b =>
    let f := (getSlot b j).format
    let v := slotView b j
    let level := fun (k n : Nat) =>
      packFrame (levelFormat f k) (fun v => v / 64 % 1024) fun y x =>
        if skip.contains (tileOf f (k * y) (k * x)) then storedSample s v (levelAddr v f j k) (levelFormat f k) y x
        else wildPicture s.free n y x
    slotWrite { s with free := s.free + 3 * pictureSpan } b j (proxyOff v) (level 2 0 ++ level 4 1 ++ level 8 2)

/-- The change map of frame `n` with tile signatures `tiles` (R157): a tile has changed unless the frame before, whose signatures
the bench still has, had the same one. The area is written, and the slot and the bench keep the signatures. -/
def changeMap (s : State) (i j n : Nat) (tiles : List Nat) : State :=
  match getBench s (benchKey i false) with
  | none => s
  | some b =>
    let old := if b.lastTiles.1 + 1 = n then b.lastTiles.2 else []
    let items := List.zip (List.range tiles.length) tiles
    let changed := items.map fun p => !(Tab.has old p.1 && Tab.get old p.1 0 == p.2)
    let area := tiles.flatMap (le 8) ++ mapBitmap changed (ceilDiv tiles.length 8)
    slotWrite (setBench s (benchKey i false) { setSlot b j { getSlot b j with tiles := items } with lastTiles := (n, items) }) b j
      (mapOff (slotView b j)) (area.take b.mapArea)

/-- The side writes of a frame that closes COMPLETE. -/
def sideWrites (s : State) (i : Nat) (f : FrameIn) (tiles : List Nat) : State :=
  let c := contractOf s i
  match f.slot, getBench s (benchKey i false) with
  | some j, some b =>
    let skip := if ctChangeMap c then skippedTiles (getSlot b j) tiles else []
    let s := unwriteTiles s i j (getSlot b j).format f.kept skip
    let s := if ctProxy c then writeProxies s i j skip else s
    let s := if ctChangeMap c then changeMap s i j f.number tiles else s
    onCounts s i fun k => { k with tilesSkipped := k.tilesSkipped + skip.length }
  | _, _ => s

/-- Close the frame being received COMPLETE, with its side writes. -/
def closeWhole (s : State) (i : Nat) (padded : Bool) (tiles : List Nat) : State :=
  match (getSource s i).frame with
  | none => s
  | some f => closeFrame (sideWrites s i f tiles) i true padded

/-- A frame that ends before every active line has come (R144): SHORT_FRAMES and the fault, then HOLD or PAD. -/
def shortFrame (s : State) (i : Nat) (tiles : List Nat) : State :=
  let x := getSource s i
  match x.frame with
  | none => s
  | some f =>
    let s := onCounts s i fun k => { k with shortFrames := satInc 32 k.shortFrames }
    let s := faultOnce s i cSHORT_FRAME
    if ctPad (x.contract.getD []) then
      let fmt := sourceFormat x
      closeWhole (match f.slot with
        | none => s
        | some j => padRows s i j fmt (absentRows fmt f)) i true tiles
    else closeFrame s i false false

/-! ### Frame starts (R139-R145, R181) -/

/-- The open frame ends at a frame start: COMPLETE when whole, else by the rule of short frames; INCOMPLETE when its
format has changed. -/
def endFrame (s : State) (i : Nat) (changed : Bool) (tiles : List Nat) : State :=
  let x := getSource s i
  match x.frame with
  | none => s
  | some f =>
    if changed then closeFrame s i false false
    else if frameWhole (sourceFormat x) f then closeWhole s i false tiles
    else shortFrame s i tiles

/-- What a frame start learns of the payload ID (R139, R164). -/
def notePid (s : State) (i : Nat) (m : FrameFacts) : State :=
  let x := getSource s i
  let s := setSource s i { x with payloadId := m.pid.getD 0, pidPresent := m.pid.isSome }
  if m.pidDisagrees then onCounts s i fun k => { k with pidMismatch := satInc 32 k.pidMismatch } else s

/-- A confirmed breach (R141, R142): LOCKED with CONTRACT_BREACH, the fault and the trigger. -/
def breach (s : State) (i cause : Nat) : State :=
  let s := moveSource s i .locked
  let s := setSource s i { getSource s i with contractBreach := true, framesMeasured := 1, follow := none, followCount := 0 }
  demotionTrigger (inputFault s i cause) i cause

/-- A frame start of a LOCKED source: the frame just measured decides (R139, R140). One that breaks the contract is a breach as
soon as it is found, and reported once (R131, R141, R142). -/
def lockedStart (s : State) (i : Nat) (f : Bytes) (skewed : Bool) : State :=
  let x := getSource s i
  let c := x.contract.getD []
  if x.framesMeasured = 0 then setSource s i { x with framesMeasured := 1 }
  else if withinContract c f && !skewed && !(isTie i && x.contractBreach) then
    let s := setSource s i { x with measured := f, adopted := if ctFollow c then f else [], follow := none }
    startFrame (moveSource s i .formatted) i
  else
    let s := setSource s i { x with measured := f, contractBreach := true }
    let cause := if skewed then cGANG_SKEW else cFORMAT
    if x.contractBreach then s else demotionTrigger (inputFault s i cause) i cause

/-- Under FOLLOW a new format has been measured for `n` whole frames: at two it is adopted, and writing resumes (R141). -/
def followStart (s : State) (i : Nat) (f : Bytes) (n : Nat) : State :=
  let x := getSource s i
  if n < 2 then setSource s i { x with follow := some f, followCount := n }
  else
    let s := setSource s i { x with
      adopted := f, follow := none, followCount := 0, formatChanges := satInc 16 x.formatChanges }
    startFrame (inputStateEvent s i .formatted .formatted 1) i

/-- A frame start of a FORMATTED source that measured format `f`. -/
def formattedStart (s : State) (i : Nat) (f : Bytes) (skewed : Bool) : State :=
  let x := getSource s i
  let s := setSource s i { x with measured := f }
  if skewed then breach s i cGANG_SKEW
  else if f == sourceFormat x then startFrame (setSource s i { getSource s i with follow := none, followCount := 0 }) i
  else if !withinContract (x.contract.getD []) f then breach s i cFORMAT
  else
    match x.follow with
    | none => followStart (demotionTrigger s i cFORMAT) i f 1
    | some g => followStart s i f (if g == f then x.followCount + 1 else 1)

/-- Tie-line sends that carry a source's stream or frames: enabled, in service, with a route from it. -/
def tieReaders (s : State) (i : Nat) : List Nat :=
  (sendTies s).filter fun t =>
    let r := getRoute s (0x100 + t)
    (getTie s (tieSendKey t)).state == 2 && !reRemoves r.entry && reSource r.entry == i && r.state == .active

/-- A frame of the source starts on the tie lines that carry it, and on the receiving tie line itself (R456). -/
def tieFrames (s : State) (i : Nat) : State :=
  let keys := (tieReaders s i).map tieSendKey ++ (if isTie i then [tieRecvKey (i - 0x100)] else [])
  keys.foldl (fun s k => setTie s k { getTie s k with frames := (getTie s k).frames + 1, ancCharged := 0 }) s

/-- SOURCE_FRAME_START: the open frame closes, pending changes take effect, and the frame that starts is measured or
written. -/
def sourceStarts (s : State) (i : Nat) (m : FrameFacts) : State :=
  let x := getSource s i
  if !x.enabled || isHostSource i || !(x.state == .locked || x.state == .formatted) then s
  else
    let changed := x.state == .formatted && measuredFormat (x.contract.getD []) m != sourceFormat x
    let s := endFrame (tieFrames s i) i changed m.tiles
    let s := notePid s i m
    let s := boundaryTakes (setSource s i { getSource s i with longFrame := false, torn := false, causes := [], frameStart := s.now }) i
    let f := measuredFormat (contractOf s i) m
    if !(getSource s i).enabled then s
    else if x.state = .locked then lockedStart s i f m.skewed
    else formattedStart s i f m.skewed

/-- Channels of a source that has come back are evaluated anew (R356). -/
def soundReturns (before s : State) (i : Nat) : State :=
  if (getSource before i).state != .formatted && (getSource s i).state == .formatted then evalReturned s (inputChannels s i) else s

def execSourceFrameStart (i : BitVec 16) (m : FrameFacts) (s : State) : Result :=
  .next (soundReturns s (sourceStarts s i.toNat m) i.toNat)

/-! ### Lines (R144-R147) -/

/-- Count what a line's TRS, number and CRC showed (R147); ST 259 rasters carry no line CRC. -/
def countLine (s : State) (i : Nat) (l : LineFacts) : State :=
  let sd := rateCode (sourceFormat (getSource s i)) == 1
  onCounts s i fun k => { k with
    trsCorrected := if l.trs = .corrected then satInc 32 k.trsCorrected else k.trsCorrected
    trsErrors := if l.trs = .bad then satInc 32 k.trsErrors else k.trsErrors
    lineNumberErrors := if !l.numberFollows then satInc 32 k.lineNumberErrors else k.lineNumberErrors
    crcErrors := if !l.crcOk && !sd then satInc 32 k.crcErrors else k.crcErrors }

/-- An active line beyond the contracted count (R145). -/
def longLine (s : State) (i : Nat) : State :=
  let x := getSource s i
  let s := setSource s i { x with longFrame := true, counts := { x.counts with
    longFrameLines := satInc 32 x.counts.longFrameLines
    longFrames := if x.longFrame then x.counts.longFrames else satInc 32 x.counts.longFrames } }
  if x.longFrame then s else demotionTrigger (inputFault s i cLONG_FRAME) i cLONG_FRAME

/-- A short or long line is counted and reported (R146); a line of an IP frame that lacks samples counts as short (R160). -/
def lineLength (s : State) (i : Nat) (l : LineFacts) : State :=
  if l.trs = .bad ∨ l.length = .short ∨ l.luma.any (·.isNone) ∨ l.chroma.any (·.isNone) then
    faultOnce (onCounts s i fun k => { k with shortLines := satInc 32 k.shortLines }) i cSHORT_LINE
  else if l.length = .long then
    faultOnce (onCounts s i fun k => { k with longLines := satInc 32 k.longLines }) i cLONG_LINE
  else s

/-- An active line of the frame being received is written at its position by TRS count (R147), or in the row its packets give
(R160), the rows it passes over being missing. -/
def activeLine (s : State) (i : Nat) (f : FrameIn) (l : LineFacts) (row : Option Nat) : State :=
  let fmt := sourceFormat (getSource s i)
  let second := l.field2 && fmtScan fmt != 0
  let next := if second then f.field2 else f.field1
  let n := row.getD next
  if fieldLines fmt ≤ n then (if row.isNone then longLine s i else s)
  else if n < next then s
  else
    let s := lineLength s i l
    let x := getSource s i
    let s := setSource s i { x with frame := x.frame.map fun f =>
      let f := { f with missing := f.missing ++ (List.range (n - next)).map fun k => (second, next + k) }
      if second then { f with field2 := n + 1 } else { f with field1 := n + 1 } }
    match f.slot with
    | some j => writeLine (keepLine s i j fmt (pictureLine fmt second n)) (benchKey i false) j fmt (pictureLine fmt second n) l.luma l.chroma
    | none => s

/-- LINE_RECEIVED; a line that a flow releases has its row (R160). The rest of a frame that was given up, and the lines of one that is
measured, are not written and are no long frame. -/
def lineArrives (s : State) (i : Nat) (l : LineFacts) (row : Option Nat := none) : State :=
  let x := getSource s i
  if !x.enabled || isHostSource i || !(x.state == .locked || x.state == .formatted) then s
  else
    let s := countLine s i l
    if x.state != .formatted || !l.active then s
    else
      match (getSource s i).frame with
      | some f => activeLine s i f l row
      | none => if x.follow.isSome || x.torn then s else longLine s i

/-- A line that arrives while its group closes is dropped at the domain's edge (R478). -/
def execLineReceived (i : BitVec 16) (l : LineFacts) (s : State) : Result :=
  if isSdi i.toNat && closing s (0x10 + i.toNat / 8) then .next (spoilItem s (0x10 + i.toNat / 8)) else .next (lineArrives s i.toNat l)

/-! ### Ancillary packets (R152-R155, R177) -/

/-- Quota charge of a packet: two bytes for every word from ADF to checksum (R177). -/
def packetCharge (p : AncPacket) : Nat := 2 * (p.words.length + 3)

/-- The record of a stored packet (R177). -/
def ancRecord (p : AncPacket) : Bytes :=
  let b := le 2 p.line ++ le 1 (p.place % 8) ++ zeros 1 ++ le 2 p.words.length ++ zeros 2 ++
    p.words.flatMap fun w => le 2 w.toNat
  b ++ zeros (roundUp b.length 8 - b.length)

/-- Store a packet in the side area of the frame being received, or drop it over quota (R153). -/
def storePacket (s : State) (i : Nat) (p : AncPacket) : State :=
  let x := getSource s i
  match x.frame with
  | none => s
  | some f =>
    if ctAncQuota (x.contract.getD []) < f.ancCharged + packetCharge p then
      inputFault (onCounts s i fun k => { k with ancOverQuota := satInc 32 k.ancOverQuota }) i cANC_OVER_QUOTA
    else
      let b := ancRecord p
      let s := setSource s i { x with frame := some { f with
        ancBytes := f.ancBytes + b.length, ancCharged := f.ancCharged + packetCharge p } }
      match f.slot, getBench s (benchKey i false) with
      | some j, some bench => slotWrite s bench j (ancOff (slotView bench j) + f.ancBytes) b
      | _, _ => s

/-- An audio sample of channel `n` (0 to 31) of an SDI input (R154); one beyond AUDIO_LIMIT does not enter the engine. -/
def audioSample (s : State) (i n : Nat) (v : BitVec 24) (bad : Bool) : State :=
  if ctAudioLimit (contractOf s i) ≤ n then s
  else
    let a := getAsrc s (32 * i + n)
    let s := pushSample s (32 * i + n) (if bad then a.samples.headD 0 else v)
    if bad then onCounts s i fun k => { k with audioEcc := satInc 32 k.audioEcc } else s

/-- An ST 299 packet of a group of four channels, with its samples (none in a control packet). One whose channels all lie above
AUDIO_LIMIT is discarded and counted (R154, log entry 116). Only SDI inputs have channels in the engine (R331). -/
def audioPacket (s : State) (i group : Nat) (samples : List (BitVec 24 × Bool)) : State :=
  if !isSdi i then s
  else if ctAudioLimit (contractOf s i) ≤ 4 * group then onCounts s i fun k => { k with audioOverLimit := satInc 32 k.audioOverLimit }
  else (List.zip (List.range 4) samples).foldl (fun s p => audioSample s i (4 * group + p.1) p.2.1 p.2.2) s

/-- A timecode packet: the first of the kind TC_SOURCE names is the frame's (R155). -/
def timecodePacket (s : State) (i kind : Nat) (field2 : Bool) (v : BitVec 64) (p : AncPacket) : State :=
  let x := getSource s i
  let c := x.contract.getD []
  if ctTcSource c ≠ kind then storePacket s i p
  else if kind = 2 ∧ fmtScan (sourceFormat x) = 1 ∧ field2 then s
  else
    setSource s i { x with frame := x.frame.map fun f =>
      if f.timecode.isSome then f else { f with timecode := some v } }

/-- A direct tie-line send drops packets beyond its ANC_QUOTA (R449). -/
def tiePacket (s : State) (t : Nat) (p : AncPacket) : State :=
  let k := tieSendKey t
  let x := getTie s k
  if tcQuota x.config < x.ancCharged + packetCharge p then setTie s k { x with ancDropped := satInc 32 x.ancDropped }
  else setTie s k { x with ancCharged := x.ancCharged + packetCharge p }

/-- An ancillary packet of a source (R152-R155). -/
def packetArrives (s : State) (i : Nat) (p : AncPacket) : State :=
  let x := getSource s i
  if !x.enabled || x.state != .formatted || isHostSource i then s
  else
    let s := ((tieReaders s i).filter fun t => (getRoute s (0x100 + t)).cls == 1).foldl (fun s t => tiePacket s t p) s
    if !p.checksumOk || !p.fits then onCounts s i fun k => { k with ancChecksum := satInc 32 k.ancChecksum }
    else
      match p.kind with
      | .audio g l => if rateCode (sourceFormat x) = 1 then storePacket s i p else audioPacket s i g l
      | .audioControl g => if rateCode (sourceFormat x) = 1 then storePacket s i p else audioPacket s i g []
      | .timecode kind field2 v => timecodePacket s i kind field2 v p
      | .payloadId v => setSource s i { getSource s i with payloadId := v, pidPresent := true }
      | .other => storePacket s i p

/-- ANC_PACKET: a packet in the stream of a source; those of an IP receive flow come with its ancillary flow (R428). -/
def execAncPacket (i : BitVec 16) (p : AncPacket) (s : State) : Result :=
  if isIp i.toNat then .next s else .next (packetArrives s i.toNat p)

/-! ### Closing a source's frame (R143, R160) -/

/-- FRAME_CLOSE of a weighed source: a whole frame closes COMPLETE with its side writes; an IP frame that lacks lines is
short (R160), and an SDI frame that does waits for its frame start. -/
def closeSource (s : State) (i : Nat) (facts : CloseFacts) : State :=
  let x := getSource s i
  match x.frame with
  | none => s
  | some f =>
    if frameWhole (sourceFormat x) f then closeWhole s i false facts.tiles
    else if isIp i then shortFrame s i facts.tiles
    else s

/-! ### Rate and loss (R148-R151, R161) -/

/-- TRS_TIMEOUT (R149, R451): a FORMATTED source is lost; one that is only LOCKED goes back to LOCKING (R137). -/
def execTrsTimeout (i : BitVec 16) (s : State) : Result :=
  let i := i.toNat
  if isIp i || isHostSource i then .next s
  else
    match (getSource s i).state with
    | .formatted => .next (loseSource s i cLOSS_TRS)
    | .locked => .next (moveSource s i .locking)
    | _ => .next s

/-- RATE_UPDATE (R148): `ppm` is measured against the oscillator, and the source's rate is that corrected by the time source's
offset; three consecutive updates outside the tolerance set RATE_BREACH, three inside clear it. -/
def execRateUpdate (i : BitVec 16) (ppm : Int) (s : State) : Result :=
  let i := i.toNat
  let x := getSource s i
  let tol : Int := 1000 * ctRateTol (x.contract.getD [])
  let rate := 10 * ppm - timeOffset s
  let out := decide (rate < -tol) || decide (tol < rate)
  let before := s
  let s := if isSdi i then setLane s i { getLane s i with ppm := ppm } else s
  if !(x.state == .locked || x.state == .formatted) then .next (candChanges before s)
  else
    let n := if out then min (x.outCount + 1) 3 else 0
    let m := if out then 0 else min (x.inCount + 1) 3
    let s := setSource s i { x with
      ratePpm := deviceRate s ppm, outCount := n, inCount := m, rateBreach := if m = 3 then false else x.rateBreach }
    if n = 3 ∧ !x.rateBreach then
      let s := setSource s i { getSource s i with rateBreach := true, counts := { x.counts with
        rateBreaches := satInc 32 x.counts.rateBreaches } }
      .next (demotionTrigger (inputFault (candChanges before s) i cRATE) i cRATE)
    else .next (candChanges before s)

/-- Whether a LOST source has no signal: a lane of an SDI input is DARK (R151); a silent flow or tie line has none. -/
def noSignal (s : State) (i : Nat) : Bool :=
  !isHostSource i && (!isSdi i || (lanesOf s i).any fun n => (getLane s n).state == .dark || (getLane s n).state == .off)

/-- LOSS_HOLD_EXPIRED (R151): readers go to black from their next latch instant; LOSS_HOLD_EXPIRED of INPUT.STATUS stands until
the source is FORMATTED again (DESIGN CHOICE, log entry 117). -/
def execLossHoldExpired (i : BitVec 16) (s : State) : Result :=
  let i := i.toNat
  let x := getSource s i
  if !x.lossHoldRunning || x.lossHoldEnd.isNone then .next s
  else
    let goal : SourceState := if x.state = .lost ∧ noSignal s i then .absent else x.state
    let s := setSource s i { x with
      lossHoldRunning := false, lossHoldEnd := none, lossHoldExpired := true, blackNow := true, state := goal
      stateSince := if goal = x.state then x.stateSince else s.now }
    .next (inputStateEvent s i x.state goal 2)

/-- HOST_SOURCE_STALL (R161). -/
def execHostSourceStall (i : BitVec 16) (s : State) : Result :=
  let i := i.toNat
  let x := getSource s i
  let stall := ctHostStall (x.contract.getD [])
  if !isHostSource i || stall == 0 || x.state != .formatted then .next s
  else
    let s := moveSource s i .lost
    let s := setSource s i { getSource s i with cause := cHOST_STALL, counts := { x.counts with losses := satInc 32 x.counts.losses } }
    let (newest, s) := orFree s ((getBench s (benchKey i false)).bind newestFrame)
    .next (raise s 0x118 i (le 2 stall ++ zeros 6 ++ newest))

end Sys2Proof.Machine
end

