-- ==== Sys2Proof/Machine/BenchCmds.lean ====
section
/-! DEFINITION. The BENCH and HOST FRAME commands (R201, R202) and the frame store's own rows: refresh, scheduler periods
and the end of a shrink (R169, R190, R198). -/

namespace Sys2Proof.Machine

/-! ### BENCH.STATUS and BENCH.SLOTS -/

/-- The bench a command names. -/
def namedBench (c : Cmd) : Nat := benchKey (u16 c.p 0) (u8 c.p 2 == 1)

def benchNack (s : State) (c : Cmd) : Option Nack :=
  firstOf [need (decide (u16 c.p 0 < 0x8000) && benchExists s (namedBench c)) (badArg 0), need (decide (u8 c.p 2 ≤ 1)) (badArg 2),
           need (zeroAt c.p 3 1) (badArg 3)]

/-- Reservations of the readers of a bench, bytes a second (R189, R201). -/
def benchReads (s : State) (owner : Nat) (dest : Bool) : Nat :=
  if dest then
    sumOf ((routeClaims s owner).flatMap fun p => if p.2 = 3 then claimReads s owner p.1 p.2 else [])
  else
    let routes := (Tab.keys s.routes).flatMap fun d => (routeClaims s d).flatMap fun p =>
      if reSource p.1 = owner ∧ p.2 ≠ 3 then claimReads s d p.1 p.2 else []
    let contexts := s.contexts.flatMap fun p =>
      ((contextReadings s p.1 p.2).filter fun r => r.1 == owner).map (·.2)
    let layers := (Tab.keys s.ashlars).flatMap fun k => ((ashlarReads s k).filter fun r => r.1 == owner).map (·.2)
    sumOf (routes ++ contexts ++ layers)

/-- Reservation of a bench's writer: of a source, of the contract it is charged for. -/
def benchWrites (s : State) (owner : Nat) (dest : Bool) : Nat :=
  if dest then
    (match getContext s owner with
      | some x => holdings x * contextWrites s owner
      | none => 0)
  else if isAshlarObj owner then writebackRate s (owner - 0xC0)
  else if isPattern owner then
    (if ((getBench s (benchKey owner false)).bind landingSlot).isSome then let f := Tab.get s.store.patterns owner []; perSecond f (frameBytes f + 256) else 0)
  else sumOf ((chargedContract (getSource s owner)).map ctWriteRate)

/-- Shape of a bench's writer (R189). -/
def benchFlat (owner : Nat) (dest : Bool) : Bool := dest || isAshlarObj owner || isPattern owner || isHostSource owner

def holdsOf (b : Bench) : Nat := sumOf (b.slot.map fun p => p.2.holds + p.2.hostHolds)
def hostHoldsOf (b : Bench) : Nat := sumOf (b.slot.map fun p => p.2.hostHolds)

/-- BENCH.STATUS (R201). -/
def defBenchStatus : CommandDef where
  opcode := 0x1101
  lenOk c := c.len == 4
  check := benchNack
  run s c :=
    let owner := u16 c.p 0
    let dest := u8 c.p 2 == 1
    match getBench s (namedBench c) with
    | none => readDone s []
    | some b =>
      let (newest, s') := orFree s (newestFrame b)
      readDone s' (le 2 owner ++ le 1 (u8 c.p 2) ++ le 1 b.slots ++ le 1 ((landingSlot b).getD 0xFF) ++
        le 1 ((newestSlot b).getD 0xFF) ++ le 1 (flag (benchFlat owner dest)) ++ le 1 b.pendingSlots ++ le 4 (benchPitch b) ++
        le 4 (b.blocks ++ b.oldBlocks ++ Tab.get s.store.granted (namedBench c) []).length ++
        le 4 (ceilDiv (benchWrites s owner dest) 1000) ++
        le 4 (ceilDiv (benchReads s owner dest) 1000) ++ newest ++
        le 8 (Tab.get s.store.skipped (namedBench c) 0) ++ le 2 (holdsOf b) ++ le 2 (hostHoldsOf b) ++ zeros 4 ++ le 8 s.now ++
        zeros 8)

def execBenchStatus (ch : Fin 32) (s : State) : Result := .next (runCommand defBenchStatus ch s)

/-- One entry of BENCH.SLOTS. -/
def slotEntry (b : Bench) (i : Nat) : Bytes :=
  if b.slots ≤ i then zeros 16
  else
    let v := getSlot b i
    le 8 v.frame ++ le 1 (slotNum v.state) ++ le 1 (min (v.holds + v.hostHolds) 255) ++ le 1 v.hostHolds ++
      le 1 (flag (decide (b.pendingSlots ≤ i)) + 2 * flag (newestSlot b == some i)) ++ zeros 4

/-- BENCH.SLOTS (R201). -/
def defBenchSlots : CommandDef where
  opcode := 0x1102
  lenOk c := c.len == 4
  check := benchNack
  run s c :=
    match getBench s (namedBench c) with
    | none => readDone s []
    | some b =>
      readDone s (le 2 (u16 c.p 0) ++ le 1 (u8 c.p 2) ++ le 1 b.slots ++ zeros 4 ++ le 8 s.now ++
        (List.range 16).flatMap (slotEntry b))

def execBenchSlots (ch : Fin 32) (s : State) : Result := .next (runCommand defBenchSlots ch s)

/-! ### HOSTFRAME.OPEN and HOSTFRAME.CLOSE (R184, R185, R202) -/

def hostBench (c : Cmd) : Nat := benchKey (u16 c.p 0) false

/-- Whether a slot number lies below SLOTS. -/
def slotInBench (s : State) (c : Cmd) : Bool :=
  match getBench s (hostBench c) with
  | some b => decide (u8 c.p 2 < b.slots)
  | none => false

/-- BUSY_DRAIN of HOSTFRAME.OPEN. -/
def openBusy (s : State) (c : Cmd) : Option Nack :=
  match getBench s (hostBench c) with
  | none => none
  | some b =>
    let v := getSlot b (u8 c.p 2)
    need (v.holds == 0 && v.hostHolds == 0 && decide (u8 c.p 2 < b.pendingSlots) &&
      (decide (b.slots < 2) || newestSlot b != some (u8 c.p 2))) (refuse stBUSY_DRAIN (u16 c.p 0))

/-- Open a slot: a slot that is LANDING closes INCOMPLETE first, also when it is the very slot that is opened (DEDUCED, log
entry 104). -/
def openHostSlot (s : State) (i slot : Nat) : State :=
  let k := benchKey i false
  let s := match getBench s k with
    | some b =>
      match landingSlot b with
      | some j => closeHostSlot s i j false
      | none => s
    | none => s
  let n := nextFrame s k
  landSlot (useFrame s k) k slot n (ctFormat (contractOf s i))

/-- HOSTFRAME.OPEN. `landed` is what running jobs had written by now (R60). -/
def defHostframeOpen (landed : List Landed) : CommandDef where
  opcode := 0x1103
  lenOk c := c.len == 4
  check s c :=
    firstOf [need (isHostSource (u16 c.p 0) && (getSource s (u16 c.p 0)).enabled) (badArg 0),
             need (slotInBench s c) (badArg 2), need (u8 c.p 3 == 0) (badArg 3)]
  admission := openBusy
  run s c :=
    let i := u16 c.p 0
    let n := nextFrame s (hostBench c)
    let pitch := match getBench s (hostBench c) with
      | some b => benchPitch b
      | none => 0
    { state := openHostSlot (landMoved s landed) i (u8 c.p 2), payload := le 8 n ++ le 4 pitch ++ zeros 4 }

def execHostframeOpen (x : SlotCall) (s : State) : Result := .next (runCommand (defHostframeOpen x.landed) x.ch s)

/-- HOSTFRAME.CLOSE. `landed` is as in HOSTFRAME.OPEN. -/
def defHostframeClose (landed : List Landed) : CommandDef where
  opcode := 0x1104
  lenOk c := c.len == 4
  check s c :=
    firstOf
      [need (isHostSource (u16 c.p 0)) (badArg 0), need (slotInBench s c) (badArg 2), need (decide (u8 c.p 3 ≤ 1)) (badArg 3),
       need (match getBench s (hostBench c) with
         | some b => (getSlot b (u8 c.p 2)).state == .landing
         | none => false) (badArg 2)]
  run s c :=
    let n := match getBench s (hostBench c) with
      | some b => (getSlot b (u8 c.p 2)).frame
      | none => 0
    { state := closeHostSlot (landMoved s landed) (u16 c.p 0) (u8 c.p 2) (u8 c.p 3 == 0), payload := le 8 n }

def execHostframeClose (x : SlotCall) (s : State) : Result := .next (runCommand (defHostframeClose x.landed) x.ch s)

/-! ### Fences (R202) -/

/-- Field checks of a fence descriptor at payload offset 0 (R174, R186). -/
def fenceNack (s : State) (c : Cmd) : Option Nack := (fenceBad s (sub c.p 0 16)).map badArg

/-- BENCH.FENCE_QUERY. -/
def defBenchFenceQuery : CommandDef where
  opcode := 0x1105
  lenOk c := c.len == 16
  check := fenceNack
  run s c :=
    let d := sub c.p 0 16
    let ok := fenceSatisfied s d (fenceEpoch s d)
    readDone s (le 1 (flag ok) ++ zeros 7 ++ le 8 (if ok then fenceTime s d (fenceEpoch s d) else noEffect))

def execBenchFenceQuery (ch : Fin 32) (s : State) : Result := .next (runCommand defBenchFenceQuery ch s)

/-- BENCH.FENCE_NOTIFY: raised at admission when the fence is satisfied already. -/
def defBenchFenceNotify : CommandDef where
  opcode := 0x1106
  lenOk c := c.len == 24
  check s c := firstOf [fenceNack s c, need (zeroAt c.p 18 6) (badArg 18)]
  admission s _ := need (decide (s.store.notifies.length < 256)) { status := stBUSY_DRAIN }
  run s c :=
    let d := sub c.p 0 16
    let n : Notify := { fence := d, tag := u16 c.p 16, epoch := fenceEpoch s d }
    { state := orphanNotifies (fireNotifies { s with store := { s.store with notifies := s.store.notifies ++ [n] } }) }

def execBenchFenceNotify (ch : Fin 32) (s : State) : Result := .next (runCommand defBenchFenceNotify ch s)

/-! ### The store (R169, R190, R195, R202) -/

/-- RASTER_PEAK: the sum of reservations with RASTER shaping at its peak. -/
def rasterPeak (s : State) : Nat := sumOf ((reservations s).map fun r => ceilDiv (r.rate * r.total) r.active)

/-- Megabytes a second, rounded up. -/
def mbs (n : Nat) : Nat := ceilDiv n 1000000

/-- Scheduler periods that make up the last 10 ms (R202): 7,812 of 1.28 µs. -/
def measuredPeriods : Nat := 7812

/-- Throughput over the last 10 ms of a number of bytes moved in it, MB/s. -/
def throughput (n : Nat) : Nat := n * 100 / 1000000

/-- Die temperatures, °C: as last measured, and free values before any measurement is known (log entry 106). -/
def temperatures (s : State) : Bytes :=
  match s.store.temps with
  | some t => leInt 1 t.1 ++ leInt 1 t.2
  | none => le 1 (Config.freeByte s.free).toNat ++ le 1 (Config.freeByte (s.free + 1)).toNat

/-- BENCH.STORE_STATUS (R202). -/
def defBenchStoreStatus : CommandDef where
  opcode := 0x1107
  lenOk c := c.len == 0
  run s _ :=
    { state := { s with free := s.free + 2 }
      payload := le 4 (mbs (reservedRate s)) ++ le 4 (mbs (rasterPeak s)) ++ le 4 1150000 ++ le 4 (1000 * s.store.beCap) ++
        le 4 (throughput (sumOf (s.store.traffic.map (·.1)))) ++ le 4 (throughput (sumOf (s.store.traffic.map (·.2)))) ++
        le 2 poolBlocks ++ le 2 (poolBlocks - (blocksUsed s).length) ++ temperatures s ++ le 1 (flag s.store.doubled) ++
        zeros 1 ++ le 8 s.store.skippedTotal ++ le 8 s.now ++ zeros 16 }

def execBenchStoreStatus (ch : Fin 32) (s : State) : Result := .next (runCommand defBenchStoreStatus ch s)

def setBeCap (s : State) (n : Nat) : State := { s with store := { s.store with beCap := n } }

/-- BENCH.STORE_CONFIG. -/
def defBenchStoreConfig : CommandDef where
  opcode := 0x1108
  flags := flagsChange
  lenOk c := c.len == 4
  check _ c := firstOf [need (decide (16 ≤ u16 c.p 0) && decide (u16 c.p 0 ≤ 400)) (badArg 0), need (zeroAt c.p 2 2) (badArg 2)]
  admission s c := currentNack s (setBeCap s (u16 c.p 0)) 0xFFFF
  run s c := { state := setBeCap (commit s c 0xFFFF) (u16 c.p 0), effect := some s.now }

def execBenchStoreConfig (ch : Fin 32) (s : State) : Result := .next (runCommand defBenchStoreConfig ch s)

/-- MEM_REFRESH_DOUBLED (R169): the die temperatures, in °C, after stack `stack` crossed a threshold. -/
def execMemRefreshDoubled (stack : Fin 2) (temp0 temp1 : Int) (s : State) : Result :=
  let s := { s with store := { s.store with temps := some (temp0, temp1) } }
  let hot := decide (85 < temp0) || decide (85 < temp1)
  let cool := decide (temp0 ≤ 83) && decide (temp1 ≤ 83)
  let goal := if hot then true else if cool then false else s.store.doubled
  if goal = s.store.doubled then .next s
  else
    .next (raise { s with store := { s.store with doubled := goal } } 0x121 stack (le 1 (flag goal) ++ leInt 1 temp0 ++ leInt 1 temp1))

/-! ### The scheduler (R168, R190, R191, R195) -/

/-- The reservations of one holder. -/
def holderReservations (s : State) (h : Holder) : List Reservation := (reservations s).filter fun r => r.holder == h

/-- Whether a holder earns credit in a period (R190): always FLAT, and RASTER within the lines of active picture. -/
def earns (f : PeriodFacts) (r : Reservation) : Bool := r.total == r.active || f.picture.contains r.holder

/-- The unit of the fraction of a credit: a byte is 10⁸ times the active lines of it. -/
def creditUnit (r : Reservation) : Nat := 100000000 * r.active

/-- The depth credit is kept to, in bytes: eight periods for FLAT, two lines for RASTER (R190). -/
def creditDepth (r : Reservation) : Nat := if r.total = r.active then 8 * r.rate * 128 / 100000000 else 2 * r.line

def getCredit (s : State) (h : Holder) : Credit := ((s.store.credit.find? fun p => p.1 == h).map (·.2)).getD {}

/-- A holder's credit after one of its reservations has earned its share of a period: rate × 1.28 µs, for RASTER times total
lines over active lines; what exceeds the depth is lost (R190). -/
def earn (f : PeriodFacts) (depth : Nat) (c : Credit) (r : Reservation) : Credit :=
  if !earns f r then c
  else
    let n := c.part + r.rate * r.total * 128
    let b := c.bytes + n / creditUnit r
    if depth < b then { bytes := depth } else { bytes := b, part := n % creditUnit r }

/-- The holders of reservations, each once. -/
def holders (s : State) : List Holder := ((reservations s).map (·.holder)).eraseDups

/-- The credits at the start of a period's service. -/
def earnAll (s : State) (f : PeriodFacts) : List (Holder × Credit) :=
  (holders s).map fun h =>
    let rs := holderReservations s h
    (h, rs.foldl (earn f (sumOf (rs.map creditDepth))) (getCredit s h))

/-- A best-effort master (R195-R197): it is served when nothing of the first and second class waits. -/
def isBestEffort : Holder → Bool
  | .bestEffort _ => true
  | _ => false

/-- The controller takes a request while its pseudo-channel has an entry free: 96 for reservations and 32 for best-effort
traffic; a unit whose request is not taken goes on holding it (R168). -/
def acceptRequest (q : List Request) (r : Request) : List Request :=
  let same := q.filter fun x => pseudoChannel x.addr == pseudoChannel r.addr && isBestEffort x.holder == isBestEffort r.holder
  if same.length < (if isBestEffort r.holder then 32 else 96) then q ++ [r] else q

/-- Whether a request is within its reservation's credit: a whole granule of it is there (R191). -/
def withinCredit (s : State) (r : Request) : Bool := !isBestEffort r.holder && decide (256 ≤ (getCredit s r.holder).bytes)

/-- The best-effort master after `last` in the round robin that has a request among `q` (R195). -/
def nextMaster (q : List Request) (last : Nat) : Option Request :=
  ((List.range 5).map fun i => (last + 1 + i) % 5).findSome? fun m =>
    q.find? fun r => match r.holder with
      | .bestEffort k => k.val == m
      | _ => false

/-- The request a pseudo-channel serves next (R191): the oldest within credit, else the oldest ahead of its credit, else a
best-effort one by round robin, while BE_CAP allows. -/
def nextRequest (s : State) (pc : Nat) : Option Request :=
  let q := s.store.requests.filter fun r => pseudoChannel r.addr == pc
  match q.find? (withinCredit s) with
  | some r => some r
  | none =>
    match q.find? fun r => !isBestEffort r.holder with
    | some r => some r
    | none => if s.store.allowance < 256 then none else nextMaster q (Tab.get s.store.served pc 4)

/-- Add to the traffic of the period that runs. -/
def countTraffic (t : List (Nat × Nat)) (be : Nat) : List (Nat × Nat) :=
  match t with
  | [] => []
  | p :: t => (p.1 + be, p.2 + 256) :: t

/-- Serve one granule: credit, or the allowance of best-effort traffic, is spent. -/
def serveRequest (s : State) (pc : Nat) (r : Request) : State :=
  let st := { s.store with requests := s.store.requests.erase r }
  match r.holder with
  | .bestEffort m =>
    { s with store := { st with
      allowance := st.allowance - 256, served := Tab.set st.served pc m, traffic := countTraffic st.traffic 256 } }
  | h =>
    { s with store := { st with
      credit := st.credit.map fun p => if p.1 = h then (h, { p.2 with bytes := p.2.bytes - 256 }) else p
      traffic := countTraffic st.traffic 0 } }

/-- A pseudo-channel serves `n` granules. -/
def servePc (s : State) (pc : Nat) : Nat → State
  | 0 => s
  | n + 1 =>
    match nextRequest s pc with
    | some r => servePc (serveRequest s pc r) pc n
    | none => s

/-- SCHEDULER_PERIOD (R190, R191): every reservation earns its credit, the requests issued queue, and each pseudo-channel
serves as many as it has slots for. BE_CAP allows 1,280 bytes a period for each GB/s, and what is left of it for eight
periods (DESIGN CHOICE, log entry 107). -/
def execSchedulerPeriod (facts : PeriodFacts) (s : State) : Result :=
  let s := { s with store := { s.store with
    periods := s.store.periods + 1
    credit := earnAll s facts
    requests := facts.issued.foldl acceptRequest s.store.requests
    allowance := min (s.store.allowance + 1280 * s.store.beCap) (8 * 1280 * s.store.beCap)
    traffic := ((0, 0) :: s.store.traffic).take measuredPeriods } }
  .next ((List.zip (List.range 64) facts.slots).foldl (fun s p => servePc s p.1 p.2) s)

/-- BENCH_SHRINK_DONE (R198): the slots above the bound go, and their blocks return. -/
def execBenchShrinkDone (key : BitVec 16) (s : State) : Result :=
  let k := key.toNat
  match getBench s k with
  | none => .next s
  | some b =>
    if !shrinkDone b then .next s
    else
      let n := b.pendingSlots
      let blocks := ceilDiv (n * benchPitch b) blockSize
      let s := setBench s k { b with
        slots := n, blocks := b.blocks.take blocks, slot := b.slot.filter fun p => decide (p.1 < n) }
      let s := wake s (.shrink k) (some s.now)
      .next (if k < 0x8000 then boundaryPassed s k else s)

end Sys2Proof.Machine
end

