-- ==== Sys2Proof/Machine/AditCmds.lean ====
section
/-! DEFINITION. The ADIT commands (R456, R457) and the rows of the link: markers, period boundaries and the slips of
AUTO_ALIGN (R445-R447, R453). -/

namespace Sys2Proof.Machine

/-! ### ADIT.CONFIG and ADIT.STATUS -/

def aditMaskOk (m : Nat) : Bool := m == 0xFF || maskCount m == 7

/-- Enable the link: its domain, its lanes, TRAINING. -/
def aditEnable (s : State) : State :=
  let s := onAdit s fun a => { a with enable := true, inService := 0, partnerLost := 0, partnerAligned := false }
  let s := needDomain s 0x4E
  let s := (List.range 8).foldl (fun s i => refreshLane s (0x400 + i)) s
  moveLink s .training 0xFF

/-- Disable the link: every tie line is suspended, and the domain powers down (R456). -/
def aditDisable (s : State) : State :=
  let s := onAdit s fun a => { a with enable := false, inService := 0, announced := [], slotsRx := 0 }
  let s := (sendTies s).foldl (fun s t => moveTie s 0 t 3 0) s
  let s := (recvTies s).foldl (fun s t => moveTie s 1 t 3 cLOSS_DARK) s
  let s := moveLink s .down 0xFF
  let s := (List.range 8).foldl (fun s i => refreshLane s (0x400 + i)) s
  settleDomain s 0x4E

/-- The state after ADIT.CONFIG, its journal apart. -/
def aditTakes (s : State) (c : Cmd) : State :=
  let was := s.adit.enable
  let s := onAdit s fun a => { a with autoAlign := bit (u8 c.p 1) 0, mask := u8 c.p 2 }
  if u8 c.p 0 = 1 ∧ !was then aditEnable s
  else if u8 c.p 0 = 0 ∧ was then aditDisable s
  else s

/-- ADIT.CONFIG (R456). -/
def defAditConfig : CommandDef where
  opcode := 0x0C01
  flags := flagsForce
  lenOk c := c.len == 4
  check _ c :=
    firstOf [need (decide (u8 c.p 0 ≤ 1)) (badArg 0), need (decide (u8 c.p 1 < 2)) (badArg 1), need (aditMaskOk (u8 c.p 2)) (badArg 2),
             need (zeroAt c.p 3 1) (badArg 3)]
  admission s c :=
    firstOf
      [need (!(u8 c.p 0 == 0 && s.adit.enable && tieAllocated s) || c.force) (refuse stROUTED 0x4E),
       if u8 c.p 0 = 1 then forcedOffNack s 0x4E else none, currentNack s (aditTakes s c) 0x4E,
       need (!((getDomain s 0x4E).cut && u8 c.p 0 == 1)) (refuse stBUSY_DRAIN 0x4E)]
  run s c := { state := aditTakes (commit s c 0xFFFF) c, effect := some s.now }

def execAditConfig (ch : Fin 32) (s : State) : Result := .next (runCommand defAditConfig ch s)

/-- ADIT.STATUS (R457). -/
def defAditStatus : CommandDef where
  opcode := 0x0C02
  lenOk c := c.len == 0
  run s _ :=
    let a := s.adit
    readDone s (le 1 (aditNum a.link) ++ le 1 a.inService ++ le 1 (aditSlots s) ++ le 1 (slotsOf s (sendTies s)) ++
      le 1 a.slotsRx ++ le 1 a.epoch ++ zeros 2 ++ le 4 a.laneLosses ++ zeros 4 ++ le 8 a.periods ++ le 8 s.now)

def execAditStatus (ch : Fin 32) (s : State) : Result := .next (runCommand defAditStatus ch s)

/-! ### ADIT.TIE -/

/-- Field checks of ADIT.TIE (R456). -/
def tieNack (s : State) (c : Cmd) : Option Nack :=
  let f := tcFormat c.p
  let recv := tcDir c.p == 1
  firstOf
    [need (decide (tcTie c.p < 32)) (badArg 0), need (decide (tcDir c.p ≤ 1)) (badArg 1), need (decide (u8 c.p 2 ≤ 1)) (badArg 2),
     (fmtBadField f).map fun o => badArg (4 + o), need (sdiFormat f) (badArg 4),
     need (fmtLink f == 1 || fmtLink f == 2) (badArg 15),
     need (if recv then decide (2 ≤ u8 c.p 20) && decide (u8 c.p 20 ≤ 16) else u8 c.p 20 == 0) (badArg 20),
     need (if recv then decide (u8 c.p 21 ≤ 1) else u8 c.p 21 == 0) (badArg 21),
     need (if recv then decide (u16 c.p 22 ≤ 6000) || u16 c.p 22 == 0xFFFF else u16 c.p 22 == 0) (badArg 22),
     need (decide (tcQuota c.p ≤ ancCeiling s)) (badArg 24), need (zeroAt c.p 28 4) (badArg 28)]

/-- Key of the tie line a command names. -/
def tieKey (c : Cmd) : Nat := 32 * tcDir c.p + tcTie c.p

/-- Slots of a direction once the command's allocation stands (R448). -/
def slotsAfter (s : State) (c : Cmd) : Nat :=
  sumOf ((List.range 32).map fun t =>
    let x := getTie s (32 * tcDir c.p + t)
    let e := if t = tcTie c.p then c.p else x.pending.getD x.config
    if tcEnable e then tieSlots e else 0)

/-- NO_BANDWIDTH of ADIT.TIE: 337.84 MB/s for each slot short. -/
def tieSlotsNack (s : State) (c : Cmd) : Option Nack :=
  let limit := if s.adit.link = .spared ∨ s.adit.mask ≠ 0xFF then 69 else 80
  let n := slotsAfter s c
  need (!tcEnable c.p || decide (n ≤ limit))
    { status := stNO_BANDWIDTH, object := 0x4E, shortfall := ceilDiv ((n - limit) * 33784) 100 }

/-- Whether a route, or a layer, uses the tie line (R457). -/
def tieRouted (s : State) (c : Cmd) : Bool :=
  if tcDir c.p = 0 then hasRoute s (0x100 + tcTie c.p) else isRead s (0x100 + tcTie c.p)

/-- A change of a receive tie line comes into force: the source, its FIXED contract and its bench (R451). -/
def recvTakes (s : State) (t : Nat) : State :=
  let k := tieRecvKey t
  let src := 0x100 + t
  let x := getTie s k
  match x.pending with
  | none => s
  | some c =>
    let s := setTie s k { x with config := c, pending := none }
    if tcEnable c then
      if (getSource s src).enabled then
        contractTakes (setSource s src { getSource s src with pendingContract := some (tieContract t c) }) src
      else enableSource (setSource s src { getSource s src with contract := some (tieContract t c), adopted := [] }) src
    else disableTakes (setSource s src { getSource s src with pendingDisable := true }) src

/-- A change of a running receive tie line waits for the source's frame boundary. -/
def recvWaits (s : State) (src : Nat) (c : Bytes) : State :=
  let x := getSource s src
  if tcEnable c then setSource s src { x with pendingContract := some (tieContract (src - 0x100) c) }
  else setSource s src { x with pendingDisable := true }

/-- The bench and reservations of a change, for its admission. -/
def tieAfter (s : State) (c : Cmd) : State :=
  settleTies (if tcDir c.p = 0 then sendTakes (setTie s (tieKey c) { getTie s (tieKey c) with pending := some c.p }) (tcTie c.p)
    else recvTakes (setTie s (tieKey c) { getTie s (tieKey c) with pending := some c.p }) (tcTie c.p))

/-- ADIT.TIE (R457): a send side takes effect at the next period boundary, a receive side at the tie line's next frame
boundary; with no period or frame to come, at admission. -/
def defAditTie : CommandDef where
  opcode := 0x0C03
  flags := flagsForce
  lenOk c := c.len == 32
  check := tieNack
  admission s c :=
    let src := 0x100 + tcTie c.p
    firstOf
      [need (!tieRouted s c || c.force) (refuse stROUTED src), tieSlotsNack s c, bandwidthNack s (tieAfter s c) src,
       currentNack s (tieAfter s c) src,
       need ((getTie s (tieKey c)).pending.isNone && !(tcDir c.p == 1 && boundaryPending s src)) (refuse stBUSY_DRAIN src)]
  run s c :=
    let t := tcTie c.p
    let src := 0x100 + t
    let s' := setTie (commitLater s c src) (tieKey c) { getTie s (tieKey c) with pending := some c.p }
    if tcDir c.p = 0 then
      if aditCarries s then { state := s', wait := some (.aditPeriod t) }
      else
        let u := settleTies (sendTakes s' t)
        { state := journalRest u u.fm.gen s.now, effect := some s.now }
    else
      let u := if tieRouted s c then setSource s' src { getSource s' src with blackNow := true } else s'
      if atRest s src then boundaryDone (settleTies (recvTakes u t)) src true else boundaryDone (recvWaits u src c.p) src false

def execAditTie (ch : Fin 32) (s : State) : Result := .next (runCommand defAditTie ch s)

/-- ADIT.TIE_STATUS (R457). -/
def defAditTieStatus : CommandDef where
  opcode := 0x0C04
  lenOk c := c.len == 4
  check _ c :=
    firstOf [need (decide (u8 c.p 0 < 32)) (badArg 0), need (decide (u8 c.p 1 ≤ 1)) (badArg 1), need (zeroAt c.p 2 2) (badArg 2)]
  run s c :=
    let x := getTie s (32 * u8 c.p 1 + u8 c.p 0)
    readDone s (le 1 (u8 c.p 0) ++ le 1 (u8 c.p 1) ++ le 1 x.state ++ le 1 (if tcEnable x.config then tieSlots x.config else 0) ++
      le 4 x.ancDropped ++ le 4 x.linesLost ++ zeros 4 ++ le 8 x.frames ++ le 8 s.now)

def execAditTieStatus (ch : Fin 32) (s : State) : Result := .next (runCommand defAditTieStatus ch s)

/-! ### Markers, periods and slips -/

/-- ADIT_MARKER (R445): a marker with its MARKER_ID on a LOCKED lane loads the descrambler, and carries the calendar epoch
and whether the partner's receive direction is aligned. -/
def execAditMarker (i : Fin 8) (seed : BitVec 31) (epoch : BitVec 8) (aligned : Bool) (s : State) : Result :=
  if !s.adit.enable || (getLane s (0x400 + i)).state != .locked then .next s
  else
    .next (onAdit s fun a => { a with
      seeds := Tab.set a.seeds i seed, rxEpoch := epoch.toNat, partnerAligned := aligned })

/-- Lanes that leave or join the calendar at a period boundary, with ADIT_LINK for each (R453, R458). -/
def joinLanes (s : State) (old new : Nat) : State :=
  (List.range 8).foldl (fun s i =>
    if bit new i != bit old i then moveLink s s.adit.link i else s) s

/-- The samples a period brings for the audio groups (R447, R452): each frame of a group holds one sample of its 16 channels, bit-exact. -/
def groupSamples (s : State) (l : List (Nat × List (List (BitVec 24)))) : State :=
  l.foldl (fun s g =>
    match bindOf s 2 g.1 with
    | none => s
    | some b => g.2.foldl (fun s v => (List.zip (bindChannels b) v).foldl (fun s p => pushSample s p.1 p.2) s) s) s

/-- ADIT_PERIOD (R447, R453): the partner's control blocks are read; lanes it has lost go out; pending placements and lane
sets take effect with a new CAL_EPOCH; the link and the tie lines follow. -/
def periodBoundary (s : State) (f : AditPeriod) : State :=
  if !s.adit.enable then s
  else
    let s := onAdit s fun a => { a with
      periods := a.periods + 1, partnerLost := f.lost % 256, slotsRx := f.slots
      announced := f.ties.foldl (fun t p => Tab.set t p.1 (sub p.2.1 0 16 ++ le 4 p.2.2)) [] }
    let lost := (List.range 8).filter fun i => bit s.adit.inService i && bit s.adit.partnerLost i
    let s := lost.foldl laneOut s
    let s := (List.range 32).foldl sendTakes s
    let avail := aditAvailable s
    let goal := linkAfter s avail
    let old := s.adit.inService
    let keep := if goal = .up ∨ goal = .spared then avail else if goal = .failed then avail else 0
    let changed := s.adit.pendingEpoch || keep != old
    let s := onAdit s fun a => { a with
      inService := keep, pendingEpoch := false, epoch := if changed then (a.epoch + 1) % 256 else a.epoch }
    let did := aditCarries s
    let s := moveLink s goal 0xFF
    let s := settleTies (if goal = .training then s else joinLanes s old keep)
    if !aditCarries s then s
    else groupSamples (if did then s else evalReturned s (groupChannels s)) f.audio

/-- A period that arrives while the link's domain closes is dropped at its edge (R478). -/
def execAditPeriod (f : AditPeriod) (s : State) : Result :=
  if closing s 0x4E then .next (spoilItem s 0x4E) else .next (periodBoundary s f)

/-- AUTO_ALIGN_SLIP (R446): the Foreman slips a lane that is not aligned by one bit, and journals it as the command it
issues (R511). -/
def execAutoAlignSlip (i : Fin 8) (s : State) : Result :=
  let id := 0x400 + i.val
  let l := getLane s id
  if !s.adit.enable || !s.adit.autoAlign || s.updating || l.state != .locked || l.align == 1 || !bit s.adit.mask i then .next s
  else .next (slipLane (autoEntry s 1 0 0xFFFF 0 (some s.now) originForeman 0x1007) id 1)

end Sys2Proof.Machine
end

