-- ==== Sys2Proof/Machine/AudioPorts.lean ====
section
/-! DEFINITION. Serial audio ports and capture streams (13): the AUDIOPORT commands (R387, R388) and the rows of port
frames, clocks, alignment and capture blocks. -/

namespace Sys2Proof.Machine

/-- First source, and destination, channel of a port (R370). -/
def portBase (p : Nat) : Nat := 0x1800 + 16 * p

def portNum : PortRun → Nat
  | .off => 0
  | .noClock => 1
  | .locking => 2
  | .running => 3

/-- AUDIOPORT_STATE (R389). -/
def portEvent (s : State) (p : Nat) (old new : PortRun) (reason : Nat) (step : Int) : State :=
  raise s 0x40 p (le 1 (portNum old) ++ le 1 (portNum new) ++ le 1 reason ++ zeros 1 ++ leInt 4 step)

/-- Source channels of a port's configuration: the active slots of an input (R372). -/
def portSources (p : Nat) (c : Bytes) : List Nat := if pcOutput c then [] else (pcActive c).map fun i => portBase p + i

/-- Move a port to a state (R375). The channels of an input that leaves RUNNING are ramped to silence, and fade in again when it is
RUNNING (R377). -/
def movePort (s : State) (p : Nat) (goal : PortRun) : State :=
  let x := getAport s p
  if x.state = goal then s
  else
    let ks := portSources p x.config
    let s := portEvent (setAport s p { x with
      state := goal, good := 0, bad := 0, tolRun := 0, alignRun := 0
      reported := if goal = .running then none else x.reported }) p x.state goal 0 0
    if goal = .running then evalReturned (ks.foldl rampUp s) ks
    else if x.state = .running then ks.foldl rampDown s else s

/-- An ALIGN step (R380, R388). -/
def alignStep (s : State) (p : Nat) (ps : Int) : State :=
  let x := getAport s p
  let s := setAport s p { x with alignSteps := satInc 32 x.alignSteps, stepDue := none, alignRun := 0, alignOffset := 0, aligned := true }
  portEvent s p x.state x.state 1 ps

/-! ### AUDIOPORT.CONFIG -/

/-- The first bad field of a configuration (R387). -/
def portBad (c : Bytes) : Option Nat :=
  let f := u8 c 7
  if 15 < u8 c 0 then some 0
  else if 1 < u8 c 1 then some 1
  else if 1 < u8 c 2 then some 2
  else if 1 < u8 c 3 then some 3
  else if !(if pcTdm c then ([2, 4, 8, 16] : List Nat).contains (u8 c 4) else u8 c 4 == 2) then some 4
  else if 1 < u8 c 5 then some 5
  else if (if pcMaster c then decide (7 < u8 c 6) else u8 c 6 != 0) then some 6
  else if 63 < f ∨ ((bit f 2 ∨ bit f 3) ∧ !pcTdm c) ∨ (bit f 4 ∧ !pcOutput c) ∨ (bit f 5 ∧ !pcMaster c) then some 7
  else if 2 ^ pcSlots c ≤ u16 c 8 then some 8
  else if 10000 < u16 c 10 then some 10
  else if (if pcMaster c then decide (20832 < u32 c 12) else u32 c 12 != 0) then some 12
  else if !zeroAt c 16 8 then some 16
  else none

/-- Channels a configuration serves, with its direction. -/
def portChannels (c : Bytes) : List (Bool × Nat) :=
  if pcEnable c then (pcActive c).map fun i => (pcOutput c, portBase (u8 c 0) + i) else []

/-- Whether any map entry reads a source channel. -/
def mapReads (s : State) (k : Nat) : Bool :=
  s.audio.dests.any fun p =>
    (meMode p.2.committed == 1 && meSource p.2.committed == k) || p.2.source == some k ||
    (meMode p.2.committed == 2 && entrySource s p.2.committed == some k)

/-- ROUTED (R388): channels a change takes away that are read, or mapped. -/
def portLoses (s : State) (c : Cmd) : Bool :=
  ((portChannels (getAport s (u8 c.p 0)).committed).filter fun x => !(portChannels c.p).contains x).any fun x =>
    if x.1 then meMode (getAdest s x.2).committed != 0 else mapReads s x.2

/-- Whether a change restarts the port (R388). -/
def portRestarts (old new : Bytes) : Bool :=
  sub old 2 5 != sub new 2 5 || (u8 old 7 % 16 != u8 new 7 % 16)

def commitPort (s : State) (c : Cmd) : State :=
  setAport s (u8 c.p 0) { getAport s (u8 c.p 0) with committed := sub c.p 0 24 }

/-- A port comes into its new configuration at once: it goes OFF, and starts again when it is enabled. -/
def restartPort (s : State) (p : Nat) : State :=
  let s := movePort s p .off
  let x := getAport s p
  let s := setAport s p { x with config := x.committed, changeAt := none, stepDue := none, previous := [] }
  if pcEnable x.committed then movePort s p .locking else s

/-- A running change takes effect at a frame boundary; a change of PHASE_NS counts as an ALIGN step, and slots that are cleared are
ramped to silence (R377, R388). -/
def portTakes (s : State) (p : Nat) : State :=
  let x := getAport s p
  let moved : Int := (pcPhase x.committed : Int) - pcPhase x.config
  let s := setAport s p { x with config := x.committed, changeAt := none }
  let old := portSources p x.config
  let new := portSources p x.committed
  let s := (old.filter fun k => !new.contains k).foldl rampDown s
  let s := (new.filter fun k => !old.contains k).foldl rampUp s
  let s := if moved = 0 then s else alignStep s p (1000 * moved)
  wake s (.audioPort p) (some s.now)

def defAudioportConfig : CommandDef where
  opcode := 0x0901
  flags := flagsForce
  lenOk c := c.len == 24
  check _ c := (portBad c.p).map badArg
  admission s c :=
    let after := commitPort s c
    firstOf
      [need (c.force || !portLoses s c) { status := stROUTED }, bandwidthNack s after 0xFFFF, currentNack s after 0xFFFF,
       need ((getAport s (u8 c.p 0)).changeAt.isNone) { status := stBUSY_DRAIN }]
  run s c :=
    let p := u8 c.p 0
    let x := getAport s p
    if x.state = .off ∨ !pcEnable (sub c.p 0 24) ∨ portRestarts x.config c.p then
      { state := restartPort (commitPort (commit s c 0xFFFF) c) p, effect := some s.now }
    else
      let s' := commitPort (commitLater s c 0xFFFF) c
      { state := setAport s' p { getAport s' p with changeAt := some (s.now + ms) }, wait := some (.audioPort p) }

def execAudioportConfig (ch : Fin 32) (s : State) : Result := .next (runCommand defAudioportConfig ch s)

/-- PORT, or STREAM, and three reserved bytes. -/
def portNack (c : Cmd) : Option Nack :=
  firstOf [need (decide (u8 c.p 0 ≤ 15)) (badArg 0), need (zeroAt c.p 1 3) (badArg 1)]

def defAudioportGetConfig : CommandDef where
  opcode := 0x0902
  lenOk c := c.len == 4
  check _ c := portNack c
  run s c := readDone s (le 1 (u8 c.p 0) ++ sub (getAport s (u8 c.p 0)).committed 1 23)

def execAudioportGetConfig (ch : Fin 32) (s : State) : Result := .next (runCommand defAudioportGetConfig ch s)

/-- Bit 1 of FLAGS: aligned on AFS_SHARE (R380). -/
def portAligned (s : State) (x : AudioPort) : Bool :=
  pcAlign x.config && x.state == .running && (s.refs.shareMode == 1 || (s.refs.shareMode == 2 && x.aligned && !x.afsAbsent))

def defAudioportStatus : CommandDef where
  opcode := 0x0903
  lenOk c := c.len == 4
  check _ c := portNack c
  run s c :=
    let x := getAport s (u8 c.p 0)
    readDone s (le 1 (u8 c.p 0) ++ le 1 (portNum x.state) ++ le 1 (flag x.afsAbsent + 2 * flag (portAligned s x)) ++ zeros 1 ++
      leInt 4 x.ppm ++ leInt 4 (x.reported.getD 0) ++ le 4 x.bclkKhz ++ le 4 x.frameErrors ++ le 4 x.rateChanges ++
      le 4 x.alignSteps ++ leInt 4 x.alignOffset ++ le 8 x.frames ++ le 8 s.now)

def execAudioportStatus (ch : Fin 32) (s : State) : Result := .next (runCommand defAudioportStatus ch s)

/-- AUDIOPORT.SHARE (R379): takes effect at admission. -/
def shareTakes (s : State) (c : Cmd) : State :=
  { s with refs := { s.refs with shareMode := u8 c.p 0, shareEngine := u8 c.p 1 } }

def defAudioportShare : CommandDef where
  opcode := 0x0904
  flags := flagsChange
  lenOk c := c.len == 4
  check _ c :=
    firstOf [need (decide (u8 c.p 0 ≤ 2)) (badArg 0), need (decide (u8 c.p 1 ≤ 7)) (badArg 1), need (zeroAt c.p 2 2) (badArg 2)]
  admission s c := currentNack s (shareTakes s c) 0xFFFF
  run s c := { state := shareTakes (commit s c 0xFFFF) c, effect := some s.now }

def execAudioportShare (ch : Fin 32) (s : State) : Result := .next (runCommand defAudioportShare ch s)

/-! ### Capture streams (R383-R386) -/

def capBase (c : Bytes) : Nat := u16 c 2

/-- The first bad field of AUDIOPORT.CAPTURE. -/
def captureBad (c : Bytes) : Option Nat :=
  if 15 < u8 c 0 then some 0
  else if 1 < u8 c 1 then some 1
  else if 255 < u16 c 2 then some 2
  else if u8 c 4 = 0 ∨ 64 < u8 c 4 ∨ 256 < u16 c 2 + u8 c 4 then some 4
  else if 2 < u8 c 5 then some 5
  else if !(([48, 96, 192, 480] : List Nat).contains (u16 c 6)) then some 6
  else if 7 < u8 c 8 then some 8
  else if 1 < u8 c 9 then some 9
  else if u8 c 10 ≠ 0 ∧ (u8 c 10 < 20 ∨ 250 < u8 c 10) then some 10
  else if !zeroAt c 11 5 then some 11
  else none

/-- Ranges of enabled streams must not overlap (R383). -/
def captureOverlaps (s : State) (c : Bytes) : Bool :=
  s.captures.any fun p =>
    p.1 != u8 c 0 && p.2.enabled && decide (capBase c < capBase p.2.config + capChannels p.2) &&
    decide (capBase p.2.config < capBase c + u8 c 4)

/-- Jobs on a stream end ABORTED (R388). -/
def abortCaptures (s : State) (i : Nat) : State :=
  let run := fun (s : State) (p : Port) =>
    (getPort s p).dma.foldl (fun s q =>
      match q.2.job with
      | some j => if j.kind = 3 ∧ j.object = i then finishJob s p q.1 j jobABORTED j.count else s
      | none => s) s
  run (run s .a) .b

def captureTakes (s : State) (c : Cmd) : State :=
  let i := u8 c.p 0
  let x := getCapture s i
  let s := if x.enabled then abortCaptures s i else s
  setCapture s i { x with
    enabled := u8 c.p 1 == 1, config := sub c.p 0 16, blocks := [], gap := false
    sampleCount := if u8 c.p 1 = 1 then 0 else x.sampleCount }

def defAudioportCapture : CommandDef where
  opcode := 0x0905
  flags := flagsChange
  lenOk c := c.len == 16
  check s c := firstOf [(captureBad c.p).map badArg, need (u8 c.p 1 == 0 || !captureOverlaps s c.p) (badArg 2)]
  admission s c := currentNack s (captureTakes s c) 0xFFFF
  run s c := { state := captureTakes (commit s c 0xFFFF) c, effect := some s.now }

def execAudioportCapture (ch : Fin 32) (s : State) : Result := .next (runCommand defAudioportCapture ch s)

def defAudioportCaptureStatus : CommandDef where
  opcode := 0x0906
  lenOk c := c.len == 4
  check _ c := portNack c
  run s c :=
    let x := getCapture s (u8 c.p 0)
    let next := match x.blocks with
      | b :: _ => b.1
      | [] => x.sampleCount
    readDone s (le 1 (u8 c.p 0) ++ le 1 (flag x.enabled) ++ zeros 2 ++ le 4 x.overruns ++ le 8 next ++ le 4 x.blocks.length ++
      zeros 4 ++ le 8 s.now ++ zeros 16)

def execAudioportCaptureStatus (ch : Fin 32) (s : State) : Result := .next (runCommand defAudioportCaptureStatus ch s)

/-- A sample in the stream's packing (R385). -/
def packSample (pack : Nat) (v : BitVec 24) : Bytes :=
  match pack with
  | 0 => le 3 v.toNat
  | 1 => le 4 (256 * v.toNat)
  | _ => le 4 (if v.toNat < 2 ^ 23 then v.toNat else v.toNat + 0xFF000000)

/-- NONPCM of a block: the channels whose source is non-PCM. -/
def captureNonPcm (s : State) (base : Nat) : Nat → Nat
  | 0 => 0
  | n + 1 => captureNonPcm s base n + (if sourceNonPcm s (getAdest s (0x1900 + base + n)).source then 2 ^ n else 0)

/-- A block of a stream that starts at device time `start` (R385). -/
def captureBlock (s : State) (i : Nat) (x : Capture) (start : Nat) (samples : List (BitVec 24)) : Bytes :=
  let n := capFrames x * capChannels x
  let data := (samples ++ List.replicate (n - samples.length) 0).take n
  let quiet := (List.range (capChannels x)).any fun k => halfDown s (halfOf (0x1900 + capBase x.config + k))
  le 8 x.sampleCount ++ le 8 start ++ le 8 (captureNonPcm s (capBase x.config) (capChannels x)) ++ le 1 i ++ le 1 (capChannels x) ++
  le 2 (capFrames x) ++ le 1 (capPack x) ++ le 1 (2 * flag quiet) ++ zeros 2 ++ data.flatMap (packSample (capPack x))

/-- Blocks the ring of a stream holds. -/
def captureDepth (x : Capture) : Nat := max 1 (48 * capDepth x / capFrames x)

/-- CAPTURE_BLOCK (R385, R386): a block is complete; a full ring drops the oldest undelivered one. -/
def execCaptureBlock (i : Fin 16) (start : Nat) (samples : List (BitVec 24)) (s : State) : Result :=
  let x := getCapture s i.val
  if !x.enabled then .next s
  else
    let b := (x.sampleCount, captureBlock s i.val x start samples)
    let full := decide (captureDepth x ≤ x.blocks.length)
    let first := match x.blocks with
      | y :: _ => y.1
      | [] => x.sampleCount
    let s := setCapture s i.val { x with
      blocks := (if full then x.blocks.drop 1 else x.blocks) ++ [b], sampleCount := x.sampleCount + capFrames x
      overruns := if full then satInc 32 x.overruns else x.overruns, gap := x.gap || full }
    .next (if full && !x.gap then raise s 0x13C i.val (le 8 first) else s)

/-! ### Port rows -/

/-- Write one frame of samples into the histories of an input port's active slots (R370, R334). -/
def writeSlots (s : State) (p : Nat) (c : Bytes) (frame : List (BitVec 24)) : State :=
  if pcOutput c then s else (pcActive c).foldl (fun s i => pushSample s (portBase p + i) (frame.getD i 0)) s

/-- A frame of a running port (R376): accepted, or malformed and its previous samples written again. -/
def portFrame (s : State) (p : Nat) (good : Bool) (frame : List (BitVec 24)) : State :=
  let x := getAport s p
  if good then
    writeSlots (setAport s p { x with bad := 0, previous := frame, frames := x.frames + 1 }) p x.config frame
  else
    let s := setAport s p { x with bad := x.bad + 1, frameErrors := satInc 32 x.frameErrors }
    let s := writeSlots s p x.config x.previous
    if 48 ≤ x.bad + 1 then movePort s p .locking else s

/-- A frame of a locking port (R375): a master's first edge, or 48 good frames of a slave. -/
def lockFrame (s : State) (p : Nat) (good : Bool) : State :=
  let x := getAport s p
  if pcMaster x.config then movePort s p .running
  else if !good then setAport s p { x with good := 0, frameErrors := satInc 32 x.frameErrors }
  else if 48 ≤ x.good + 1 then movePort s p .running
  else setAport s p { x with good := x.good + 1 }

/-- AUDIO_PORT_FRAME (R376): FS ends a frame of `bclks` bit clocks that carried `frame`. A waiting change, or step, takes
effect at this boundary. -/
def execAudioPortFrame (p : Fin 16) (bclks : Nat) (frame : List (BitVec 24)) (s : State) : Result :=
  let x := getAport s p.val
  let good := pcMaster x.config || bclks == 32 * pcSlots x.config
  let s := match x.state with
    | .off => s
    | .noClock => movePort s p.val .locking
    | .locking => lockFrame s p.val good
    | .running => portFrame s p.val good frame
  let s := match x.changeAt with
    | some t => if t ≤ s.now then portTakes s p.val else s
    | none => s
  .next (match x.stepDue with
    | some ps => if x.state = .running then alignStep s p.val ps else s
    | none => s)

/-- PORT_CLOCK_LOSS (R375). -/
def execPortClockLoss (p : Fin 16) (s : State) : Result :=
  let x := getAport s p.val
  if pcMaster x.config || x.state == .off then .next s else .next (movePort s p.val .noClock)

/-- PORT_RATE_UPDATE (R378): the FS rate over the last 100 ms in 0.01 ppm, which is measured against the oscillator and corrected
by the time source's offset (R404), the measured BCLK, and whether the whole window lies after RUNNING. -/
def execPortRateUpdate (p : Fin 16) (ppm : Int) (bclkKhz : Nat) (whole : Bool) (s : State) : Result :=
  let x := getAport s p.val
  let ppm := deviceRate s ppm
  if x.state = .off ∨ x.state = .noClock then .next s
  else
    let s := if pcOutput x.config then s
      else (pcActive x.config).foldl (fun s i => setAsrc s (portBase p.val + i) { getAsrc s (portBase p.val + i) with ppm := ppm }) s
    let x := { x with ppm := ppm, bclkKhz := bclkKhz }
    if x.state != .running || !whole then .next (setAport s p.val x)
    else
      let tell := fun (s : State) (reason : Nat) => raise s 0x41 p.val (le 1 reason ++ zeros 3 ++ leInt 4 ppm)
      match x.reported with
      | none => .next (tell (setAport s p.val { x with reported := some ppm, tolRun := 0 }) 1)
      | some r =>
        let off := (ppm - r).natAbs
        if off ≤ 100 * pcRateTol x.config then .next (setAport s p.val { x with tolRun := 0 })
        else if x.tolRun < 2 then .next (setAport s p.val { x with tolRun := x.tolRun + 1 })
        else .next (tell (setAport s p.val { x with reported := some ppm, tolRun := 0, rateChanges := satInc 32 x.rateChanges }) 2)

/-- Whether a port measures itself against AFS_SHARE (R380). -/
def followsShare (s : State) (x : AudioPort) : Bool :=
  s.refs.shareMode == 2 && pcMaster x.config && pcAlign x.config && x.state == .running

/-- ALIGN_MEASURE (R380): the offset of FS from AFS_SHARE in ps. The tenth offset above 20 ns in a row asks for a step. -/
def execAlignMeasure (p : Fin 16) (ps : Int) (s : State) : Result :=
  let x := getAport s p.val
  if !followsShare s x then .next s
  else
    let off := decide (20000 < ps.natAbs)
    let n := if off then x.alignRun + 1 else 0
    .next (setAport s p.val { x with
      alignOffset := ps, afsAbsent := false, aligned := !off, alignRun := if n = 10 then 0 else n
      stepDue := if n = 10 then some ps else x.stepDue })

/-- AFS_ABSENT (R380). -/
def execAfsAbsent (p : Fin 16) (s : State) : Result :=
  let x := getAport s p.val
  if followsShare s x then .next (setAport s p.val { x with afsAbsent := true, stepDue := none }) else .next s

end Sys2Proof.Machine
end

