-- ==== Sys2Proof/Machine/Hash.lean ====
section
/-! DEFINITION. The digests the manual names: CRC-32 with the IEEE 802.3 polynomial (R521, R550) and SHA-256 of FIPS 180-4
(R521, R523, R524, R538). -/

namespace Sys2Proof.Machine

/-! ### CRC-32 -/

/-- One bit of the division by the reflected polynomial, `n` times. -/
def crcBits : Nat → BitVec 32 → BitVec 32
  | 0, r => r
  | n + 1, r => crcBits n (if r.getLsbD 0 then (r >>> 1) ^^^ 0xEDB88320 else r >>> 1)

/-- CRC-32 of a string. -/
def crc32 (b : Bytes) : BitVec 32 :=
  ~~~(b.foldl (fun r x => crcBits 8 (r ^^^ x.setWidth 32)) 0xFFFFFFFF)

/-! ### SHA-256 -/

def shaStart : List (BitVec 32) :=
  [0x6A09E667, 0xBB67AE85, 0x3C6EF372, 0xA54FF53A, 0x510E527F, 0x9B05688C, 0x1F83D9AB, 0x5BE0CD19]

def shaConstants : List (BitVec 32) :=
  [0x428A2F98, 0x71374491, 0xB5C0FBCF, 0xE9B5DBA5, 0x3956C25B, 0x59F111F1, 0x923F82A4, 0xAB1C5ED5,
   0xD807AA98, 0x12835B01, 0x243185BE, 0x550C7DC3, 0x72BE5D74, 0x80DEB1FE, 0x9BDC06A7, 0xC19BF174,
   0xE49B69C1, 0xEFBE4786, 0x0FC19DC6, 0x240CA1CC, 0x2DE92C6F, 0x4A7484AA, 0x5CB0A9DC, 0x76F988DA,
   0x983E5152, 0xA831C66D, 0xB00327C8, 0xBF597FC7, 0xC6E00BF3, 0xD5A79147, 0x06CA6351, 0x14292967,
   0x27B70A85, 0x2E1B2138, 0x4D2C6DFC, 0x53380D13, 0x650A7354, 0x766A0ABB, 0x81C2C92E, 0x92722C85,
   0xA2BFE8A1, 0xA81A664B, 0xC24B8B70, 0xC76C51A3, 0xD192E819, 0xD6990624, 0xF40E3585, 0x106AA070,
   0x19A4C116, 0x1E376C08, 0x2748774C, 0x34B0BCB5, 0x391C0CB3, 0x4ED8AA4A, 0x5B9CCA4F, 0x682E6FF3,
   0x748F82EE, 0x78A5636F, 0x84C87814, 0x8CC70208, 0x90BEFFFA, 0xA4506CEB, 0xBEF9A3F7, 0xC67178F2]

/-- A big-endian 32-bit word of a string. -/
def beWord (b : Bytes) (i : Nat) : BitVec 32 :=
  BitVec.ofNat 32 (u8 b i * 16777216 + u8 b (i + 1) * 65536 + u8 b (i + 2) * 256 + u8 b (i + 3))

/-- The padded message: a one bit, zeros, and the length in bits as a 64-bit big-endian number. -/
def shaPad (b : Bytes) : Bytes :=
  b ++ [0x80] ++ zeros ((119 - b.length % 64) % 64) ++ (le 8 (8 * b.length)).reverse

/-- The message schedule, newest word first, grown by `n` words. -/
def shaSchedule : Nat → List (BitVec 32) → List (BitVec 32)
  | 0, w => w
  | n + 1, w =>
    let x := w.getD 14 0
    let y := w.getD 1 0
    let a := x.rotateRight 7 ^^^ x.rotateRight 18 ^^^ (x >>> 3)
    let c := y.rotateRight 17 ^^^ y.rotateRight 19 ^^^ (y >>> 10)
    shaSchedule n ((w.getD 15 0 + a + w.getD 6 0 + c) :: w)

/-- The eight working words. -/
structure ShaState where
  a : BitVec 32
  b : BitVec 32
  c : BitVec 32
  d : BitVec 32
  e : BitVec 32
  f : BitVec 32
  g : BitVec 32
  h : BitVec 32
  deriving DecidableEq, Repr

/-- One round, with the constant and the schedule word summed. -/
def shaRound (s : ShaState) (k : BitVec 32) : ShaState :=
  let s1 := s.e.rotateRight 6 ^^^ s.e.rotateRight 11 ^^^ s.e.rotateRight 25
  let ch := (s.e &&& s.f) ^^^ (~~~s.e &&& s.g)
  let t1 := s.h + s1 + ch + k
  let s0 := s.a.rotateRight 2 ^^^ s.a.rotateRight 13 ^^^ s.a.rotateRight 22
  let maj := (s.a &&& s.b) ^^^ (s.a &&& s.c) ^^^ (s.b &&& s.c)
  { a := t1 + (s0 + maj), b := s.a, c := s.b, d := s.c, e := s.d + t1, f := s.e, g := s.f, h := s.g }

def shaLoad (l : List (BitVec 32)) : ShaState :=
  { a := l.getD 0 0, b := l.getD 1 0, c := l.getD 2 0, d := l.getD 3 0, e := l.getD 4 0, f := l.getD 5 0, g := l.getD 6 0
    h := l.getD 7 0 }

def shaWords (s : ShaState) : List (BitVec 32) := [s.a, s.b, s.c, s.d, s.e, s.f, s.g, s.h]

/-- One 64-byte block from offset `i`. -/
def shaBlock (h : List (BitVec 32)) (b : Bytes) (i : Nat) : List (BitVec 32) :=
  let w := (shaSchedule 48 (((List.range 16).map fun j => beWord b (i + 4 * j)).reverse)).reverse
  let t := ((List.zip shaConstants w).map fun p => p.1 + p.2).foldl shaRound (shaLoad h)
  (List.zip h (shaWords t)).map fun p => p.1 + p.2

/-- SHA-256 of a string, 32 bytes. -/
def sha256 (b : Bytes) : Bytes :=
  let p := shaPad b
  ((List.range (p.length / 64)).foldl (fun h i => shaBlock h p (64 * i)) shaStart).flatMap fun w => (le 4 w.toNat).reverse

end Sys2Proof.Machine
end

