-- ==== Sys2Proof/Machine/Island.lean ====
section
/-! DEFINITION. The return note of the always-on island (R550, R551) and the end of a standby entry (R552). -/

namespace Sys2Proof.Machine

/-- STATE of the note. -/
def noteState (s : State) : Nat := u8 s.island.note 4

/-- Whether the note's CRC is valid. -/
def noteCrcOk (s : State) : Bool := u32 s.island.note 252 == (crc32 (sub s.island.note 0 252)).toNat

/-- A note that READY reports: STATE 1 with a valid CRC (R551). -/
def noteValid (s : State) : Bool := noteState s == 1 && noteCrcOk s

/-- READY sets STATE to 2 (R551); the rest of the note, its CRC among it, stays as written (log entry 46). -/
def consumeNote (s : State) : State :=
  if noteState s = 1 then { s with island := { s.island with note := s.island.note.set 4 2 } } else s

/-- Write the note: STATE 1, WAKES one more (R550, R552). -/
def writeNote (s : State) : State :=
  match s.fw.standby with
  | none => s
  | some (reason, host, gen, seq) =>
    let b := le 4 0x5EB7 ++ le 1 1 ++ zeros 3 ++ le 4 reason ++ le 4 (u32 s.island.note 12 + 1) ++ le 8 seq ++ le 8 gen ++
      le 8 s.now ++ le 4 (u32 s.fw.header 16) ++ zeros 20 ++ sub host 0 128 ++ zeros 60
    { s with
      island := { s.island with note := b ++ le 4 (crc32 b).toNat }
      fw := { s.fw with noteWritten := true } }

/-- A domain that still has power. -/
def drawsPower (d : Domain) : Bool := d.state != .off && !d.cut

/-- When the last gateable domain is cut, the note is written and FUSE.STANDBY completes with the note's DEVICE_TIME
(R552). -/
def settleStandby (s : State) : State :=
  if s.fw.standby.isSome && !s.fw.noteWritten && !(s.domains.any fun p => drawsPower p.2) then
    wake (writeNote s) .standby (some s.now)
  else s

end Sys2Proof.Machine
end

