-- ==== Sys2Proof/Machine/Scaler.lean ====
section
/-! DEFINITION. The scaler (R261-R263), and which frames a deinterlacer weaves (R264). -/

namespace Sys2Proof.Machine

/-! ### Geometry (R261, R263) -/

/-- One dimension of a resize, in eighths of a sample: the part of the source that is shown, and where it lies in the destination. -/
structure Axis where
  srcStart : Nat
  srcLen : Nat
  dstStart : Nat
  dstLen : Nat
  deriving DecidableEq, Repr

/-- A whole dimension of `a` samples shown in all of `b`. -/
def wholeAxis (a b : Nat) : Axis := { srcStart := 0, srcLen := 8 * a, dstStart := 0, dstLen := 8 * b }

/-- The source's part is the middle three quarters (FILL), or the destination's is (FIT). -/
def Axis.crop (x : Axis) : Axis := { x with srcStart := x.srcLen / 8, srcLen := x.srcLen / 4 * 3 }
def Axis.bars (x : Axis) : Axis := { x with dstStart := x.dstLen / 8, dstLen := x.dstLen / 4 * 3 }

/-- A frame 720 samples wide is 4:3, every other 16:9 (R263). -/
def isNarrow (f : Bytes) : Bool := fmtWidth f == 720

/-- The horizontal and the vertical resize of a conversion under ASPECT `mode` (R263). -/
def axesOf (mode : Nat) (f g : Bytes) : Axis × Axis :=
  let h := wholeAxis (fmtWidth f) (fmtWidth g)
  let v := wholeAxis (fmtHeight f) (fmtHeight g)
  if isNarrow f == isNarrow g then (h, v)
  else
    match mode, isNarrow f with
    | 0, true => (h.bars, v)
    | 0, false => (h, v.bars)
    | 1, true => (h, v.crop)
    | 1, false => (h.crop, v)
    | _, _ => (h, v)

/-- Where destination sample `n` lies: within the picture, within a bar, or across an edge. -/
inductive Place where
  | picture
  | bar
  | edge
  deriving DecidableEq, Repr

def Axis.place (x : Axis) (n : Nat) : Place :=
  if x.dstStart ≤ 8 * n ∧ 8 * n + 8 ≤ x.dstStart + x.dstLen then .picture
  else if 8 * n + 8 ≤ x.dstStart ∨ x.dstStart + x.dstLen ≤ 8 * n then .bar
  else .edge

/-- The position in the source of the centre of destination sample `n`, in 1/64 sample from the centre of sample 0, rounded half
upward. -/
def Axis.position (x : Axis) (n : Nat) : Int :=
  let num : Int := ((8 * n + 4 : Nat) - (x.dstStart : Int)) * x.srcLen + ((x.srcStart : Int) - 4) * x.dstLen
  (16 * num + x.dstLen) / (2 * x.dstLen : Nat)

/-! ### The filter (R261, R262) -/

/-- A set of a scaler bank: `T` taps in 64 phases, `code p j` being tap `j` of phase `p`. -/
structure Filter where
  taps : Nat
  code : Nat → Nat → Int

/-- Luma (0) or chroma (1) set of a bank's bytes. -/
def bankFilter (b : Bytes) (taps set : Nat) : Filter :=
  { taps := taps, code := fun p j => signed 2 (u16 b (128 * taps * set + 2 * (taps * p + j))) }

/-- The polyphase filter at a position: tap T / 2 − 1 stands on the sample at or before it, and the edge samples repeat. -/
def Filter.apply (t : Filter) (size : Nat) (code : Nat → Nat) (pos : Int) : Nat :=
  let first := pos / 64 - ((t.taps / 2 : Nat) : Int) + 1
  let p := (pos % 64).toNat
  let sum := (List.range t.taps).foldl (fun (n : Int) j =>
    n + t.code p j * (code (min (first + (j : Int)).toNat (size - 1)) : Int)) 0
  (max 0 (min (openDiv sum 16384) 65535)).toNat

/-- One component of a destination sample along an axis (R261): black in a bar; a dimension of ratio 1 is bypassed; half-band
stages, whose filter the manual does not give, and a sample across an edge leave it open. -/
def Axis.code (x : Axis) (t : Filter) (size : Nat) (code : Nat → Nat) (black free n : Nat) : Nat :=
  match x.place n with
  | .bar => black
  | .edge => free
  | .picture =>
    if x.srcLen = x.dstLen then
      (if x.srcStart % 8 = x.dstStart % 8 then code ((8 * n + x.srcStart - x.dstStart) / 8) else free)
    else if 2 * x.dstLen ≤ x.srcLen ∨ t.taps = 0 then free
    else t.apply size code (x.position n)

/-- Every component of a sample along an axis. -/
def Axis.sample (x : Axis) (luma chroma : Filter) (size : Nat) (p : Nat → Sample) (black free : Sample) (n : Nat) : Sample :=
  ⟨x.code luma size (fun i => (p i).y) black.y free.y n, x.code chroma size (fun i => (p i).cb) black.cb free.cb n,
   x.code chroma size (fun i => (p i).cr) black.cr free.cr n⟩

/-- Step 6: a picture of format `f` resized to format `g`, horizontally first (R261, R263), with the bank `bank` of `taps` taps. -/
def scaled (s : State) (mode bank taps : Nat) (f g : Bytes) (base : Nat) (p : Picture) : Picture :=
  let b := tableBytes s 2 bank (256 * taps)
  let taps := if b.isEmpty then 0 else taps
  let luma := bankFilter b taps 0
  let chroma := bankFilter b taps 1
  let x := axesOf mode f g
  let wide : Picture := fun n c =>
    x.1.sample luma chroma (fmtWidth f) (fun i => p n i) (blackSample g) (wildPicture base 5 n c) c
  fun n c => x.2.sample luma chroma (fmtHeight f) (fun i => wide i c) (blackSample g) (wildPicture base 7 n c) n

/-! ### Weaving (R264) -/

/-- Whether a source frame is woven from its own two fields: always under WEAVE, and under MOTION_ADAPTIVE in a cadence whose
matching pair they are. -/
def weaves (prof f : Bytes) (v : Film) (paired : Bool) : Bool :=
  pfDeint prof == 1 || (pfDeint prof == 0 && decide (2 ≤ v.lock) && (paired || fmtScan f == 2))

end Sys2Proof.Machine
end

