-- ==== Sys2Proof/Machine/Conversion.lean ====
section
/-! DEFINITION. The frame a conversion makes (R244, R245, R257, R258, R264-R278): its samples through the chain of stages,
its timecode and ancillary records, and closing it. A stage whose filter, vectors or contents the manual does not give makes
free values; every other stage computes (log entry 12). -/

namespace Sys2Proof.Machine

/-! ### The colour stage (R274-R276) -/

/-- A 1D LUT on a 16-bit input (R276), rounded half upward: `e` gives its 4,096 entries. -/
def lut1d (e : Nat → Nat) (x : Nat) : Nat :=
  let i := x / 16
  let f : Int := x % 16
  if 4095 ≤ i then e 4095
  else ((16 * (e i : Int) + ((e (i + 1) : Int) - e i) * f + 8) / 16).toNat

/-- The value a 3D LUT node stands for (R276): round(v × 65,535 / 4,095). -/
def lutNode (v : Nat) : Nat := (v * 65535 * 2 + 4095) / (2 * 4095)

/-- Tetrahedral interpolation (R276): `node` gives a channel's value at a node, 2,048 inputs to a step. -/
def lut3d (node : Nat → Nat → Nat → Nat) (r g b : Nat) : Nat :=
  let fr := r % 2048
  let fg := g % 2048
  let fb := b % 2048
  let top := max fr (max fg fb)
  let low := min fr (min fg fb)
  let mid := fr + fg + fb - top - low
  let corner := fun (t : Nat) =>
    node (r / 2048 + (if t ≤ fr then 1 else 0)) (g / 2048 + (if t ≤ fg then 1 else 0)) (b / 2048 + (if t ≤ fb then 1 else 0))
  openDivNat (node (r / 2048) (g / 2048) (b / 2048) * (2048 - top) + corner top * (top - mid) + corner mid * (mid - low) +
    corner low * low) 2048

/-- One row of the matrix on a triple of 16-bit signals, with its offset, clipped (R260, R276). -/
def matrixRow (p : Bytes) (r : Nat) (x : Nat × Nat × Nat) : Nat :=
  let m := fun (c : Nat) => signed 4 (u32 p (16 + 4 * (3 * r + c)))
  let v := openDiv (m 0 * x.1 + m 1 * x.2.1 + m 2 * x.2.2) 65536 + signed 4 (u32 p (52 + 4 * r))
  (max 0 (min v 65535)).toNat

def peakClip (x : Nat × Nat × Nat) : Nat × Nat × Nat := (min x.1 65535, min x.2.1 65535, min x.2.2 65535)

/-- Apply a 1D LUT slot to a triple; 0xFFFF is identity. -/
def applyLut1d (s : State) (slot : Nat) (x : Nat × Nat × Nat) : Nat × Nat × Nat :=
  if slot = 0xFFFF then x
  else
    let e := fun (k i : Nat) => u16 (tableBytes s 0 slot 24576) (2 * (4096 * k + i))
    (lut1d (e 0) x.1, lut1d (e 1) x.2.1, lut1d (e 2) x.2.2)

/-- Apply a 3D LUT slot; 0xFFFF is identity. -/
def applyLut3d (s : State) (slot : Nat) (x : Nat × Nat × Nat) : Nat × Nat × Nat :=
  if slot = 0xFFFF then x
  else
    let node := fun (k r g b : Nat) => lutNode (u16 (tableBytes s 1 slot 215622) (6 * (r + 33 * g + 1089 * b) + 2 * k) % 4096)
    (lut3d (node 0) x.1 x.2.1 x.2.2, lut3d (node 1) x.1 x.2.1 x.2.2, lut3d (node 2) x.1 x.2.1 x.2.2)

/-- The colour stage on a sample: decode, LUT, matrix, 3D LUT, LUT, encode, under a TABLES profile `p` (R274). -/
def colourSample (s : State) (p f g : Bytes) (v : Sample) : Sample :=
  let x := peakClip (Config.colourDecode (fmtColour f) (fmtRange f) v.y v.cb v.cr)
  let x := applyLut1d s (pfLutIn p) x
  let x := (matrixRow p 0 x, matrixRow p 1 x, matrixRow p 2 x)
  let x := applyLut1d s (pfLutOut p) (applyLut3d s (pfLut3d p) x)
  let y := Config.colourEncode (fmtColour g) (fmtRange g) x.1 x.2.1 x.2.2
  ⟨y.1, y.2.1, y.2.2⟩

/-! ### The chain (R257) -/

/-- What the chain makes a frame from: the frame G, the frame G + 1 where it is used, and the phase q of the frame and of its second
field. -/
structure ChainInput where
  first : Picture
  second : Option Picture := none
  phase : Nat := 0
  phase2 : Nat := 0
  cut : Bool := false
  motion : Bool := false

/-- Steps 1 and 2: a stored frame on the internal scale at 4:4:4. Luma passes the chroma filters, which leave other chroma
open. -/
def fetched (s : State) (b : Bench) (j : Nat) (f : Bytes) (base i : Nat) : Picture := fun n c =>
  let b := slotView b j
  let x := j * benchPitch b
  if fmtSampling f = 1 then storedSample s b x f n c
  else ⟨storedLuma s b x f n c, wild base i n c 1, wild base i n c 2⟩

/-- BLEND (R266), component by component. -/
def blendCode (q a b : Nat) : Nat := openDivNat ((64 - q) * a + q * b) 64

def blendSample (q : Nat) (a b : Sample) : Sample := ⟨blendCode q a.y b.y, blendCode q a.cb b.cb, blendCode q a.cr b.cr⟩

/-- Step 3: woven fields are as the store holds them (R173, R264); the methods that interpolate leave the picture open. -/
def deinterlaced (f g : Bytes) (woven : Bool) (base i : Nat) (p : Picture) : Picture :=
  if deinterlaces f g && !woven then wildPicture base i else p

/-- Step 4 (R265-R268): under BLEND and MOTION each field of an interlaced destination is made for its own instant. -/
def temporal (g : Bytes) (x : ChainInput) (base : Nat) : Picture := fun n c =>
  let q := if fmtScan g = 1 ∧ n % 2 = 1 then x.phase2 else x.phase
  match x.second with
  | none => x.first n c
  | some p =>
    if x.cut then (if q < 32 then x.first n c else p n c)
    else if x.motion then wildPicture base 4 n c
    else blendSample q (x.first n c) (p n c)

/-- Steps 4 to 7 of the chain, on frames that step 3 has made; `e` is the route entry. -/
def chain (s : State) (e prof f g : Bytes) (x : ChainInput) (base : Nat) : Picture :=
  let p := temporal g x base
  let p := if colourRuns prof f g then fun n c => colourSample s (if pfColour prof = 1 then prof else derivedBytes f g) f g (p n c) else p
  let p := if sameSize f g then p else scaled s (pfAspect prof) (bankInForce e prof) (reTaps e) f g base p
  if fmtSampling g = 1 then p else fun n c => ⟨(p n c).y, wild base 6 n c 1, wild base 6 n c 2⟩

/-- Whether steps 2 to 7 are all bypassed and the depths are equal, so that the codes pass (R258). -/
def passesCodes (e prof f g : Bytes) : Bool := stagesOf prof f g (reFrc e) == 0 && fmtDepth f == fmtDepth g

/-- A 16-bit sample with dither of ±1 output code (R273). -/
def ditherCode (g : Bytes) (frame n c k v : Nat) : Nat :=
  let unit := enterCode (fmtDepth g) 1
  v + (Config.dither frame n c k).toNat % (2 * unit + 1) - unit

/-- Step 8 before it rounds and clips: with DITHER set each sample of frame `frame` is dithered, unless its codes pass (R258, R273). -/
def depthPicture (e prof f g : Bytes) (frame : Nat) (p : Picture) : Picture :=
  if !bit (u8 prof 7) 0 || passesCodes e prof f g then p
  else fun n c =>
    ⟨ditherCode g frame n c 0 (p n c).y, ditherCode g frame n c 1 (p n c).cb, ditherCode g frame n c 2 (p n c).cr⟩

/-- Free values a converted frame may use. -/
def chainSpan : Nat := 8 * pictureSpan

/-! ### The source frames of a conversion (R245, R266-R268) -/

/-- What a conversion reads when its frame closes: the frame G with its slot, whether a chased frame closed INCOMPLETE, and
the frame G + 1 where the temporal stage runs and has it. -/
structure Reading where
  bench : Bench
  slot : Nat
  mixed : Bool := false
  next : Option Nat := none

/-- The temporal stage runs (R257). -/
def temporalRuns (s : State) (d : Nat) (x : Context) : Bool :=
  ratesDiffer (contextSource s x.source) (destFormat s d) && reFrc x.entry != 0

/-- The frame a context reads; G + 1 counts when it is COMPLETE and of the same format, its source is not LOST, and G is not the
first frame of a new source (R267, R268). -/
def readingOf (s : State) (d : Nat) (x : Context) : Option Reading :=
  match x.reading, x.held.head?.bind fun h => (getBench s h.1).map fun b => (b, h.2) with
  | some g, some (b, i) =>
    let j := (slotOfFrame b g).getD i
    let next := (x.second.bind (slotOfFrame b)).bind fun k =>
      if temporalRuns s d x && (getSlot b k).state == .complete && (getSlot b k).format == (getSlot b j).format &&
          (getSource s x.source).state != .lost && !x.fresh then some k
      else none
    let chosen := g :: (if temporalRuns s d x then [] else x.second.toList)
    some { bench := b, slot := j, next := next
           mixed := b.slot.any fun p => chosen.contains p.2.frame && p.2.state == .incomplete }
  | _, _ => none

/-- Whether the COMPLETE frames of a bench started at equal intervals, to 1 ns: a fit of their START_TIMEs then gives them back
(R266, log entry 98). -/
def steadyStarts (b : Bench) : Bool :=
  let l := b.slot.filter fun p => p.2.state == .complete
  match newestOf l, (lowestFrame b (l.map (·.1))).map (getSlot b) with
  | some top, some low =>
    let n : Int := (top.2.frame : Int) - low.frame
    l.all fun p =>
      let gap : Int := ((p.2.start : Int) - low.start) * n - ((p.2.frame : Int) - low.frame) * ((top.2.start : Int) - low.start)
      decide (-n ≤ gap) && decide (gap ≤ n)
  | _, _ => false

/-- φ × TF_s of R266, in ns: from the start of G to the frame's temporal position; of unsteady START_TIMEs what their fit gives. -/
def phaseNs (s : State) (x : Context) (r : Reading) (facts : CloseFacts) : Nat :=
  let tf := frameNs (contextSource s x.source)
  if steadyStarts r.bench then min tf (x.aim - ((getSlot r.bench r.slot).start : Int)).toNat else min facts.phase 64 * tf / 64

/-- q of a phase in ns: round(64 φ), from 0 to 64. -/
def quantPhase (tf ns : Nat) : Nat := if tf = 0 then 0 else min 64 ((128 * ns + tf) / (2 * tf))

/-- q of the frame, and of the second field of an interlaced destination, half a frame later (R265); 0 where G stands alone (R267). -/
def phasesUsed (s : State) (d : Nat) (x : Context) (r : Option Reading) (facts : CloseFacts) : Nat × Nat :=
  match r with
  | some r =>
    if r.next.isNone then (0, 0)
    else
      let tf := frameNs (contextSource s x.source)
      let ns := phaseNs s x r facts
      (quantPhase tf ns, quantPhase tf (ns + frameNs (destFormat s d) / 2))
  | none => (0, 0)

/-- The slot of the frame whose timecode and records a converted frame of phase q carries (R269). -/
def selectedSlot (r : Reading) (q : Nat) : Nat :=
  match r.next with
  | some k => if 32 ≤ q then k else r.slot
  | none => r.slot

/-- The bytes of a converted frame, and how many free values they may use: black without a source; open where a chased frame
closed INCOMPLETE, since the manual does not say at which line. -/
def conversionData (s : State) (d : Nat) (x : Context) (r : Option Reading) (facts : CloseFacts) (frame : Nat) : Bytes × Nat :=
  let g := destFormat s d
  let s := viewTables s d
  let prof := profileInForce s d x
  let code := leaveCode (fmtDepth g)
  match r with
  | none => (packFrame g code (fun _ _ => blackSample g), 0)
  | some r =>
    let f := (getSlot r.bench r.slot).format
    if r.mixed || (getSlot r.bench r.slot).state != .complete then (packFrame g code (wildPicture s.free 0), pictureSpan)
    else
      let q := phasesUsed s d x (some r) facts
      let made := fun (j i : Nat) (paired : Bool) =>
        deinterlaced f g (weaves prof f x.film paired) s.free (2 + i) (fetched s r.bench j f s.free i)
      let c : ChainInput :=
        { first := made r.slot 0 facts.paired, second := r.next.map fun k => made k 1 facts.pairedNext
          phase := q.1, phase2 := q.2, cut := facts.sceneCut && reFrc x.entry == 2
          motion := reFrc x.entry == 2 && x.motionState != 1 }
      (packFrame g code (depthPicture x.entry prof f g frame (chain s x.entry prof f g c s.free)), chainSpan)

/-! ### Timecode and ancillary records (R269-R271) -/

/-- Records of an ancillary area, one by one (R177). -/
def splitRecords : Nat → Bytes → List Bytes
  | 0, _ => []
  | fuel + 1, b =>
    if b.length < 8 then []
    else
      let n := roundUp (8 + 2 * u16 b 4) 8
      b.take n :: splitRecords fuel (b.drop n)

/-- Whether a record is an ST 12-2 timecode packet. -/
def isAtc (r : Bytes) : Bool := u8 r 8 == 0x60 && u8 r 10 == 0x60

/-- Ancillary records of slot `j` of a bench. -/
def slotRecords (s : State) (b : Bench) (j : Nat) : List Bytes :=
  let n := (getSlot b j).ancBytes
  splitRecords n (slotRead s b j (ancOff (slotView b j)) n)

/-- Records of the COMPLETE frames above `a` and below `n` that a conversion left out, in the order of the frames; their timecode
is skipped with them (R269, R271). -/
def skippedRecords (s : State) (b : Bench) (a n : Nat) : List Bytes :=
  (List.range (n - a - 1)).flatMap fun i =>
    match slotOfFrame b (a + 1 + i) with
    | some j => if (getSlot b j).state = .complete then (slotRecords s b j).filter fun r => !isAtc r else []
    | none => []

/-- Whether a timecode packet is ATC_LTC: its distributed binary bits, one in each of its first eight words, are all 0 (PRESUMED,
log entry 22). -/
def isLtc (r : Bytes) : Bool := isAtc r && (List.range 8).all fun i => !bit (u16 r (14 + 2 * i)) 3

/-- A 10-bit word of ST 291-1: its low eight bits with even parity in bit 8 and the inverse of that in bit 9. -/
def parityWord (v : Nat) : Nat :=
  let odd := (List.range 8).foldl (fun n i => n + v / 2 ^ i % 2) 0 % 2
  v % 256 + 256 * odd + 512 * (1 - odd)

/-- A timecode packet with another value: four bits of it in each of 16 words, and the checksum of the result (PRESUMED, log
entry 22). -/
def withTimecode (r : Bytes) (v : BitVec 64) : Bytes :=
  let words := (List.range 16).map fun i => parityWord (u16 r (14 + 2 * i) % 16 + 16 * (v.toNat / 16 ^ i % 16))
  let sum := ((List.range 3).foldl (fun n i => n + u16 r (8 + 2 * i) % 512) 0 + words.foldl (fun n w => n + w % 512) 0) % 512
  r.take 14 ++ words.flatMap (le 2) ++ le 2 (sum + 512 * (1 - sum / 256)) ++ r.drop 48

/-- What fits of a list of records in `room` bytes, and how many do not. -/
def fitRecords : Nat → List Bytes → Bytes × Nat
  | _, [] => ([], 0)
  | room, r :: t =>
    if r.length ≤ room then (r ++ (fitRecords (room - r.length) t).1, (fitRecords (room - r.length) t).2)
    else ((fitRecords room t).1, (fitRecords room t).2 + 1)

/-- Whether a conversion counts a timecode of its own (R269). -/
def regenerates (s : State) (d : Nat) (x : Context) : Bool :=
  ratesDiffer (contextSource s x.source) (destFormat s d) && pfTc (profileInForce s d x) != 1

/-- A timecode packet of the selected frame as the converted frame carries it (R269, R270): under REGENERATE the ATC_LTC packet has
the regenerated value, and no ATC_VITC packet goes out while the source's timecode is invalid. -/
def carriedAtc (s : State) (d : Nat) (x : Context) (valid : Bool) (tc : Option (BitVec 64)) (r : Bytes) : List Bytes :=
  if !isAtc r || !regenerates s d x then [r]
  else if isLtc r then [withTimecode r (tc.getD 0)]
  else if valid then [r] else []

/-- The records a converted frame carries (R271): those of its source frame the first time it is selected, after those of
the frames skipped before it; its timecode packets alone when it is selected again. -/
def conversionRecords (s : State) (d : Nat) (x : Context) (b : Bench) (j n : Nat) (tc : Option (BitVec 64)) : List Bytes :=
  let own := (slotRecords s b j).flatMap (carriedAtc s d x (getSlot b j).tcValid tc)
  if x.started && x.lastSelected == n then own.filter isAtc
  else (if x.started then skippedRecords s b x.lastSelected n else []) ++ own

/-- Timecode of a converted frame and whether it was anchored anew (R269, R270): the regenerated count is anchored at the first
frame, and again when it differs by more than one destination frame from the time of the selected frame and `ns` more. -/
def conversionTimecode (s : State) (d : Nat) (x : Context) (v : Option Slot) (ns : Nat) : Option (BitVec 64) × Bool :=
  let g := destFormat s d
  let src := match v with
    | some v => if v.tcValid then some v.timecode else none
    | none => none
  if !regenerates s d x then (src, false)
  else
    let time := fun (w : BitVec 64) => tcTime (contextSource s x.source) w.toNat + 1200 * ns
    match x.tcValue, src with
    | none, none => (none, false)
    | none, some w => (some (tcAnchor g w.toNat (time w)), false)
    | some c, none => (some (tcNext g c), false)
    | some c, some w =>
      if 1200 * frameNs g < tcApart (tcTime g (tcNext g c).toNat) (time w) then (some (tcAnchor g w.toNat (time w)), true)
      else (some (tcNext g c), false)

/-! ### Closing a frame -/

/-- MOTION_STATE of the next frame (R268). -/
def nextMotion (x : Context) (alone : Bool) : Nat := if alone then 1 else min 3 (x.motionState + 1)

/-- Count what a conversion saw (R267, R270, R282). -/
def countConversion (s : State) (d : Nat) (x : Context) (facts : CloseFacts) (breaks : Nat) (anchored : Bool) : State :=
  let run := stagesOf (profileInForce s d x) (contextSource s x.source) (destFormat s d) (reFrc x.entry)
  let v := getConv s d
  setConv s d { v with
    delivered := v.delivered + 1
    sceneCuts := satAdd 32 v.sceneCuts (flag (facts.sceneCut && bit run 2 && reFrc x.entry == 2))
    cadenceBreaks := satAdd 32 v.cadenceBreaks breaks
    tcReanchors := satAdd 32 v.tcReanchors (flag anchored) }

/-- A chased frame that closed INCOMPLETE mixes two frames (R245). -/
def countMixed (s : State) (d : Nat) (mixed : Bool) : State :=
  if !mixed then s
  else
    let o := getOutput s d
    setOutput s d { o with counts := { o.counts with mixed := satInc 32 o.counts.mixed } }

def countDropped (s : State) (d n : Nat) : State :=
  let o := getOutput s d
  setOutput s d { o with counts := { o.counts with ancDropped := satAdd 32 o.counts.ancDropped n } }

/-- What the deinterlacer of a context knows after the fields of a frame, and how many broke its lock: it looks for a cadence under
MOTION_ADAPTIVE alone (R264). -/
def examineFields (s : State) (d : Nat) (x : Context) (facts : CloseFacts) : Film × Nat :=
  let f := contextSource s x.source
  if deinterlaces f (destFormat s d) && pfDeint (profileInForce (viewTables s d) d x) == 0 then
    x.film.run (fmtScan f == 2) facts.fields
  else ({}, 0)

/-- FRAME_CLOSE of a destination bench: every write of the frame in progress is acknowledged (R244). -/
def closeConverted (s : State) (d : Nat) (facts : CloseFacts) : State :=
  let key := benchKey d true
  match getContext s d, getBench s key with
  | some x, some b =>
    match x.working, landingSlot b with
    | some n, some j =>
      if (getSlot b j).frame ≠ n then s
      else
        let film := examineFields s d x facts
        let x := { x with film := film.1 }
        let r := readingOf s d x
        let pair := r.bind (·.next)
        let q := (phasesUsed s d x r facts).1
        let selected := r.map fun r => (r.bench, selectedSlot r q)
        let number := (selected.map fun p => (getSlot p.1 p.2).frame).getD x.lastSelected
        let tc := conversionTimecode s d x (selected.map fun p => getSlot p.1 p.2)
          (if temporalRuns s d x && pair.isNone then 0 else (r.map fun r => phaseNs s x r facts).getD 0)
        let data := conversionData s d x r facts n
        let anc := match selected with
          | some (sb, i) => fitRecords b.ancArea (conversionRecords s d x sb i number tc.1)
          | none => ([], 0)
        let s := countConversion s d x { facts with sceneCut := facts.sceneCut && pair.isSome } film.2 tc.2
        let s := countDropped (countMixed s d ((r.map (·.mixed)).getD false)) d anc.2
        let s := slotWrite { s with free := s.free + data.2 } b j 0 data.1
        let s := slotWrite s b j (ancOff (slotView b j)) anc.1
        let (pid, s) := takeLong s
        let s := closeSlot s key j true fun v =>
          { v with tcValid := tc.1.isSome, timecode := tc.1.getD 0x8000000000000000, ancBytes := anc.1.length, payloadId := pid }
        setContext s d { x with
          working := none, lastFrame := n, lastSource := x.reading.getD x.lastSource, started := true
          lastSelected := number, fresh := x.fresh && r.isNone, phase := q
          fallback := min facts.fallback 1000
          tcValue := match tc.1 with
            | some v => some v
            | none => x.tcValue
          motionState := nextMotion x (facts.sceneCut || (temporalRuns s d x && pair.isNone)) }
    | _, _ => s
  | _, _ => s

end Sys2Proof.Machine
end

