-- ==== Sys2Proof/Machine/Compose.lean ====
section
/-! DEFINITION. What an Ashlar draws (R307, R313-R317, R322, R323, R327): each canvas sample from the bottom layer up, and the
composed frame in the writeback bench. Filtered scaling and changes of sampling make free values (log entry 97). -/

namespace Sys2Proof.Machine

/-! ### Blending (R315) -/

/-- What a layer puts on a sample: its α as a fraction, and its colour. -/
structure Paint where
  num : Nat
  den : Nat
  colour : Sample
  deriving DecidableEq, Repr

/-- c = α · c_layer + (1 − α) · c_below on one component. -/
def over1 (num den layer below : Nat) : Nat :=
  if num = den then layer else if num = 0 then below else openDivNat (num * layer + (den - num) * below) den

/-- The same on a sample. -/
def paintOver (below : Sample) (p : Option Paint) : Sample :=
  match p with
  | none => below
  | some p =>
    ⟨over1 p.num p.den p.colour.y below.y, over1 p.num p.den p.colour.cb below.cb, over1 p.num p.den p.colour.cr below.cr⟩

/-- A colour word on the internal scale (R313). -/
def colourWord (v : Nat) : Sample := ⟨enterCode 10 (v % 1024), enterCode 10 (v / 1024 % 1024), enterCode 10 (v / 1048576 % 1024)⟩

/-- Colour `i` of an Ashlar's palette (R328). -/
def palette (s : State) (k i : Nat) : Sample := colourWord (u32 (getAshlar s k).config (8 + 4 * i))

def solid (v : Sample) : Option Paint := some ⟨1, 1, v⟩

/-! ### Pictures and images (R314-R317) -/

/-- The source sample nearest to sample `i` of `n`, of the `m` that are stretched over them: centres on centres, and either
one where two are equally near. -/
def nearestOf (m n i : Nat) : Nat :=
  let v := (2 * i + 1) * m / (2 * n)
  if (2 * i + 1) * m % (2 * n) = 0 ∧ Config.roundsUp ((2 * i + 1) * m : Nat) (2 * n) = false then v - 1 else v

/-- The level a layer draws from: its bench, address and format, and the crop on it, where the crop's edges lie on samples
of the level and inside the frame. -/
structure Level where
  bench : Bench
  addr : Nat
  format : Bytes
  left : Nat
  top : Nat
  width : Nat
  height : Nat

/-- The level of the frame a layer holds. -/
def heldLevel (s : State) (e : Bytes) (r : LayerRun) : Option Level :=
  match r.held with
  | none => none
  | some (key, j, _) =>
    match getBench s key with
    | none => none
    | some b =>
      let f := (getSlot b j).format
      let k := 2 ^ (r.level % 4)
      let w := if leCropW e = 0 then fmtWidth f else leCropW e
      let h := if leCropW e = 0 then fmtHeight f else leCropH e
      if leCropX e % k = 0 ∧ leCropY e % k = 0 ∧ w % k = 0 ∧ h % k = 0 ∧ leCropX e + w ≤ fmtWidth f ∧ leCropY e + h ≤ fmtHeight f then
        let v := slotView b j
        some { bench := v, addr := levelAddr v f j k, format := if k = 1 then f else levelFormat f k
               left := leCropX e / k, top := leCropY e / k, width := w / k, height := h / k }
      else none

/-- A layer needs no scaling. -/
def unscaled (e : Bytes) (v : Level) : Bool := v.width == leW e && v.height == leH e

/-- The image sample nearest to sample (`j`, `i`) of the rectangle, with the chroma that stands with it. -/
def nearestSample (s : State) (e : Bytes) (v : Level) (j i : Nat) : Sample :=
  storedSample s v.bench v.addr v.format (v.top + nearestOf v.height (leH e) j) (v.left + nearestOf v.width (leW e) i)

/-- The colour of sample (`j`, `i`) of the rectangle on a canvas (R315): exact unscaled or with NEAREST, its chroma where the
samplings agree; free otherwise. -/
def sampleOf (s : State) (canvas e : Bytes) (v : Option Level) (free : Sample) (j i : Nat) : Sample :=
  match v with
  | none => free
  | some v =>
    let near := bit (u8 e 2) 2
    if unscaled e v || near then
      let p := nearestSample s e v j i
      if fmtSampling v.format = fmtSampling canvas ∧ (fmtSampling canvas = 1 ∨ near ∨ v.left % 2 = 0) then p
      else ⟨p.y, free.cb, free.cr⟩
    else free

/-- α of an image sample (R316): its luma as filtered, and the nearest image sample. -/
def imageAlpha (e : Bytes) (luma : Nat) (nearest : Option Sample) (free : Nat) : Nat × Nat :=
  let op := leOpacity e
  match leAlpha e with
  | 0 => (op, 255)
  | 1 =>
    match nearest with
    | some p => (if p = colourWord (u32 e 36) then 0 else op, 255)
    | none => (if free % 2 = 0 then 0 else op, 255)
  | _ => (min (luma - 4096) 56064 * op, 56064 * 255)

/-- What a PICTURE or IMAGE layer puts on sample (`j`, `i`) of its rectangle; `black` when it has no frame to show. -/
def fetchedPaint (s : State) (canvas e : Bytes) (v : Option Level) (black : Bool) (free : Sample) (j i : Nat) : Option Paint :=
  let p := if black then blackSample canvas else sampleOf s canvas e v free j i
  if leKind e = 1 then some ⟨leOpacity e, 255, p⟩
  else
    let nearest := if black then some (blackSample canvas) else v.map fun v => nearestSample s e v j i
    let a := imageAlpha e p.y nearest free.y
    some ⟨a.1, a.2, if leAlpha e = 2 then colourWord (u32 e 36) else p⟩

/-! ### Meters and tally borders (R322, R323) -/

/-- Whether a line of the scale lies below a level in 0.1 dB: `p` of `len` lines from the base, −60 dB to 0; the line
that holds the level is open. -/
def belowLevel (v : Int) (len p free : Nat) : Bool :=
  if (600 * (p + 1) : Int) ≤ (v + 600) * len then true else if (v + 600) * len ≤ (600 * p : Int) then false else free % 2 == 1

/-- A line within the reach of the peak mark, which is 2 lines at the peak-hold value. -/
def nearPeak (v : Int) (len p : Nat) : Bool :=
  let m := (v + 600) * len / 600
  decide (m - 2 ≤ (p : Int)) && decide ((p : Int) ≤ m + 1) && decide (-600 ≤ v)

/-- The colour of line `p` of a bar: LEVEL, PEAK and non-PCM of its channel. -/
def barColour (s : State) (k : Nat) (e : Bytes) (m : Int × Int × Bool) (len p free : Nat) : Sample :=
  if m.2.2 then palette s k 6
  else if nearPeak m.2.1 len p ∧ free / 2 % 2 = 1 then palette s k 7
  else if !belowLevel m.1 len p free then palette s k 0
  else if belowLevel (10 * signed 1 (u8 e 40)) len p (free / 4) then palette s k 1
  else if belowLevel (10 * signed 1 (u8 e 41)) len p (free / 8) then palette s k 2
  else palette s k 3

/-- What a METER layer puts on sample (`j`, `i`): bars with gaps of 2, upright when H ≥ W; open where the bars do not come out
equal. -/
def meterPaint (s : State) (k : Nat) (e : Bytes) (r : LayerRun) (free : Sample) (j i : Nat) : Option Paint :=
  let n := r.meters.length
  let upright := decide (leW e ≤ leH e)
  let across := if upright then leW e else leH e
  let bar := meterBar e
  let at_ := if upright then i else j
  if n = 0 then none
  else if (across - 2 * (n - 1)) % n ≠ 0 then solid free
  else if bar ≤ at_ % (bar + 2) then none
  else
    solid (barColour s k e (r.meters.getD (at_ / (bar + 2)) (-1000, -1000, false)) (if upright then leH e else leW e)
      (if upright then leH e - 1 - j else i) free.y)

/-- What a TALLY layer puts on sample (`j`, `i`): its border. -/
def tallyPaint (s : State) (k : Nat) (e : Bytes) (r : LayerRun) (j i : Nat) : Option Paint :=
  let w := u8 e 28
  if r.tally = 0 then none
  else if i < w ∨ leW e ≤ i + w ∨ j < w ∨ leH e ≤ j + w then solid (palette s k (if r.tally = 2 then 5 else 4))
  else none

/-! ### The composed frame -/

/-- What layer `i` of Ashlar `k` puts on the canvas sample in line `n` and column `c`. -/
def layerPaint (s : State) (k i : Nat) (canvas e : Bytes) (base n c : Nat) : Option Paint :=
  let a := getAshlar s k
  let r := Tab.get a.run i {}
  if c < leX e ∨ leX e + leW e ≤ c ∨ n < leY e ∨ leY e + leH e ≤ n then none
  else
    let y := n - leY e
    let x := c - leX e
    let free := wildPicture base i n c
    match leKind e with
    | 1 | 2 => fetchedPaint s canvas e (heldLevel s e r) (r.black || r.held.isNone || a.missed.contains (i, n)) free y x
    | 3 => some ⟨leOpacity e, 255, colourWord (u32 e 36)⟩
    | 4 => meterPaint s k e r free y x
    | 5 => tallyPaint s k e r y x
    | _ => none

/-- The composed picture: the layers that are not covered, over black, from the bottom up (R313, R315, R319). -/
def composed (s : State) (k base : Nat) : Picture := fun n c =>
  let canvas := canvasNow s k
  let layers := (getAshlar s k).layers
  (layers.filter fun p => !layerCovered canvas layers p.1 p.2).foldl
    (fun v p => paintOver v (layerPaint s k p.1 canvas p.2 base n c)) (blackSample canvas)

/-- Free values a composed frame may use. -/
def composeSpan : Nat := 64 * pictureSpan

/-- Write the composed frame into slot `j` of the writeback bench. -/
def writeComposed (s : State) (k j : Nat) : State :=
  match getBench s (wbKey k) with
  | none => s
  | some b =>
    let f := canvasNow s k
    slotWrite { s with free := s.free + composeSpan } b j 0 (packFrame f (roundCode (fmtDepth f)) (composed s k s.free))

/-- Meter values the latch cycle samples for a layer (R320, R322). -/
def sampleMeters (s : State) (e : Bytes) : List (Int × Int × Bool) :=
  (meterChannels e).map fun c =>
    if leDestChannels e then
      let x := getAdest s c
      (x.level, peakOf x.recent, sourceNonPcm s x.source)
    else
      let x := getAsrc s c
      (x.level, peakOf x.recent, x.nonPcm)

/-! ### Underruns (R327) -/

/-- A line of a layer that has not returned is drawn black: the Ashlar counts it, reports its frame once, and composes the
line anew. Which picture line a raster line is, the manual leaves to the raster's standard. -/
def ashlarUnderrun (s : State) (k layer line : Nat) : State :=
  let a := getAshlar s k
  let first := a.underrunFrame != some a.lastFrame
  let f := canvasNow s k
  let row := (Config.freeLong s.free).toNat % fmtHeight f
  let s := setAshlar { s with free := s.free + 1 } k { a with
    underrunLines := satInc 32 a.underrunLines, underrunFrame := some a.lastFrame, missed := (layer, row) :: a.missed }
  let s := match (getBench s (wbKey k)).bind landingSlot with
    | none => s
    | some j =>
      let code := roundCode (fmtDepth f)
      let p := composed s k s.free
      writePacked { s with free := s.free + composeSpan } (wbKey k) j f row (packLuma f code p row) (packChroma f code p row)
  if first then raise s 0x31 k (le 1 layer ++ zeros 1 ++ le 2 line ++ zeros 4 ++ le 8 a.lastFrame) else s

/-- OUTPUT_UNDERRUN (R296, R327): `layer` is the layer that lacks the line on an output an Ashlar feeds. -/
def execOutputUnderrun (d : BitVec 16) (line : Nat) (chased : Bool) (layer : Fin 64) (s : State) : Result :=
  match (getOutput s d.toNat).sending with
  | .frame _ _ _ => .next (underrun s d.toNat line chased)
  | .ashlar k => .next (underrun (ashlarUnderrun s k layer line) d.toNat line false)
  | _ => .next s

end Sys2Proof.Machine
end

