-- ==== Sys2Proof/Machine/Reference.lean ====
section
/-! DEFINITION. Reference engines, genlock and holdover (14): selection and switchover on the servo tick (R397-R399), the
states of an engine (R401-R403), device time (R404), clock outputs (R405) and the REFERENCE commands (R407). -/

namespace Sys2Proof.Machine

/-- Whether a candidate bears phase: not the 10 MHz and 27 MHz clocks (R399). -/
def bearsPhase (s : State) (e : Bytes) : Bool := ceKind e != 4 || u8 (getRefInput s (2 + ceIndex e)).config 2 == 2

/-- Period within which a correction is the smallest, in ns (R399); 0 for PTP. -/
def phasePeriod (s : State) (e : Bytes) : Nat :=
  match ceKind e with
  | 1 => frameNs (getRefInput s (ceIndex e)).format
  | 3 => frameNs (routeFormat s (ceIndex e))
  | 4 => 20833
  | _ => 0

/-- Offset of a candidate from the engine's alignment points (R399, R392). -/
def candOffset (s : State) (x : RefEngine) (k : Nat) : Int :=
  let e := rcEntry x.config k
  let raw := (getCand x k).offset - ceDelay e + x.offset
  let p := phasePeriod s e
  if !bearsPhase s e then 0
  else if p = 0 then raw
  else
    let m := raw % (p : Int)
    if (p : Int) < 2 * m then m - p else m

/-- Whether a measurement is of the candidate an entry names. -/
def factsOf (e : Bytes) (f : CandidateFacts) : Bool :=
  ceKind e != 0 && ceKind e == f.kind && ceIndex e == f.index && (f.kind != 2 || ceDomain e == f.domain)

/-- A slot's candidate with what was measured of it. -/
def takeFacts (c : Candidate) (f : CandidateFacts) : Candidate :=
  { c with quality := f.quality, offset := f.phase, freq := f.freq, ptpClass := f.ptpClass, syncBw := f.syncBw }

/-- The candidate of an entry newly configured: it shares the measurement that stands (R392). -/
def freshCand (s : State) (e : Bytes) : Candidate :=
  match s.refs.measured.find? (factsOf e) with
  | some f => takeFacts {} f
  | none => {}

/-! ### Events -/

def refNum : RefState → Nat
  | .freeRun => 0
  | .acquiring => 1
  | .locked => 2
  | .holdover => 3
  | .lost => 4

/-- REF_STATE (R408). -/
def refEvent (s : State) (e : Nat) (old new : RefState) (reason : Nat) : State :=
  raise s 0x50 e (le 1 (refNum old) ++ le 1 (refNum new) ++ le 1 reason ++ le 1 ((getRef s e).selected.getD 0xFF))

/-- An engine changes state (R401): its followers' AUTO paths are evaluated again (R356). -/
def moveRef (s : State) (e : Nat) (goal : RefState) (reason : Nat) : State :=
  let x := getRef s e
  let held := goal == .holdover
  let bad := goal == .freeRun || goal == .lost
  let loop := goal == .acquiring || goal == .locked
  let s := setRef s e { x with
    state := goal, since := s.now, holdoverExpired := if held then x.holdoverExpired else false
    holdoverStart := if held then s.uptime else x.holdoverStart
    holdoverReady := if bad then false else x.holdoverReady, history := if bad then [] else x.history
    bandwidth := if loop then x.bandwidth else 0, slewing := loop && x.slewing
    lockTicks := 0, trackTicks := 0, halveTicks := 0
    freq := if held then x.estimate else if goal = .freeRun then 0 else x.freq }
  evalWhere (refEvent s e x.state goal reason) fun c y => clockOf s c (effEntry s c) == e && y.source.isSome

/-! ### Phase corrections (R399) -/

/-- Outputs and master ports that follow an engine step with its alignment points. -/
def stepFollowers (s : State) (e : Nat) (ps : Int) : State :=
  { s with
    outputs := s.outputs.map fun p =>
      if ocEngine p.2.config = e ∧ p.2.state ≠ .off ∧ !p.2.following then (p.1, { p.2 with stepDue := true }) else p
    aports := s.aports.map fun p =>
      if pcMaster p.2.config ∧ pcEngine p.2.config = e ∧ p.2.state = .running then (p.1, { p.2 with stepDue := some ps }) else p }

/-- A jump of engine time by `d` ns. -/
def jumpRef (s : State) (e : Nat) (d : Int) : State :=
  let x := getRef s e
  stepFollowers (setRef s e { x with offset := x.offset + d, jumps := satInc 32 x.jumps, phase := 0, slewing := false }) e (1000 * d)

/-- Correct the phase at the selection of slot `k`; `cold` when the engine comes from FREE_RUN or LOST. -/
def correctPhase (s : State) (e k : Nat) (cold : Bool) : State :=
  let x := getRef s e
  let off := candOffset s x k
  if off = 0 then setRef s e { x with phase := 0, slewing := false }
  else if cold || !rcSlew x.config || decide (rcSlewLimit x.config < off.natAbs) then jumpRef s e (-off)
  else setRef s e { x with phase := off, slewing := true }

/-- Acquisition bandwidth, 0.1 Hz (R400). -/
def acquireBw (x : RefEngine) (k : Nat) : Nat :=
  if ceKind (rcEntry x.config k) = 2 then min 400 (getCand x k).syncBw else 400

/-- Select slot `k` (R397): a switchover from a running loop, a selection otherwise. -/
def selectCand (s : State) (e k : Nat) : State :=
  let x := getRef s e
  let running := x.state == .locked || x.state == .acquiring
  let cold := x.state == .freeRun || x.state == .lost
  let before := s
  let s := setRef s e { x with
    selected := some k, bandwidth := acquireBw x k, lastKind := ceKind (rcEntry x.config k)
    candidates := Tab.set x.candidates k { getCand x k with waiting := false }
    switchovers := if running then satInc 32 x.switchovers else x.switchovers
    estimate := if x.state = .locked ∧ x.holdoverReady then meanOf (x.history.drop 2000) else x.estimate }
  correctPhase (moveRef (candChanges before s) e .acquiring (if running then 3 else 1)) e k cold
where
  /-- Mean of a list of frequencies. -/
  meanOf (l : List Int) : Int := if l.isEmpty then 0 else l.foldl (· + ·) 0 / (l.length : Int)

/-- The best of the qualified candidates (R397 step 1). -/
def bestCand (s : State) (x : RefEngine) : List Nat → Option Nat
  | [] => none
  | k :: t =>
    match bestCand s x t with
    | none => if qualified s x k then some k else none
    | some j =>
      let pk := cePriority (rcEntry x.config k)
      let pj := cePriority (rcEntry x.config j)
      if qualified s x k ∧ (pk < pj ∨ (pk = pj ∧ candQuality s x j ≤ candQuality s x k)) then some k else some j

/-- No candidate is qualified (R401). -/
def loseRef (s : State) (e : Nat) : State :=
  let x := getRef s e
  if x.state = .locked ∨ x.state = .acquiring then
    let est := if x.state = .locked ∧ x.holdoverReady then selectCand.meanOf (x.history.drop 2000) else x.estimate
    let s := candChanges s (setRef s e { x with selected := none, estimate := est })
    if x.holdoverReady then moveRef s e .holdover 4 else moveRef s e .lost 5
  else s

/-- Which candidate waits (R397 step 3): the best one, when REVERTIVE and not the selected one. -/
def markWaiting (s : State) (e : Nat) (w : Option Nat) : State :=
  let x := getRef s e
  let changed := slots.filter fun k => (getCand x k).waiting != (w == some k)
  candChanges s (setRef s e { x with
    candidates := changed.foldl (fun t k => Tab.set t k { Tab.get t k {} with waiting := w == some k }) x.candidates })

/-- Evaluate one engine (R397). -/
def evaluate (s : State) (e : Nat) : State :=
  let x := getRef s e
  if slots.all fun k => ceKind (rcEntry x.config k) == 0 then
    if x.state = .freeRun then s
    else moveRef (candChanges s (setRef s e { x with selected := none, slewing := false })) e .freeRun 6
  else
    let best := bestCand s x slots
    match x.selected with
    | some k =>
      if qualified s x k then
        markWaiting s e (if rcRevertive x.config && best != some k then best else none)
      else
        match best with
        | some j => selectCand (markWaiting s e none) e j
        | none => loseRef (markWaiting s e none) e
    | none =>
      match best with
      | some j => selectCand (markWaiting s e none) e j
      | none => loseRef s e

/-- A configuration takes effect at its tick (R398): a candidate that was removed or changed is not selected any more; the
losses of its slot stay counted (R407). A change of ENGINE_OFFSET_NS moves the alignment points that followers see: at once and
counted as a jump, or by a slew (R399, `driftRef`). -/
def configTakes (s : State) (e : Nat) : State :=
  let x := getRef s e
  match x.pending with
  | none => s
  | some c =>
    let kept := match x.selected with
      | some k => rcEntry c k == rcEntry x.config k
      | none => true
    let moved := rcOffset c - x.shown
    let bwChanged := rcTrackBw c != rcTrackBw x.config
    let cands := slots.foldl (fun t k => if rcEntry c k = rcEntry x.config k then t else
      Tab.set t k { freshCand s (rcEntry c k) with losses := (getCand x k).losses }) x.candidates
    let s := candChanges s <| setRef s e { x with
      config := c, pending := none, candidates := cands, selected := if kept then x.selected else none
      holdoverReady := x.holdoverReady && !bwChanged, history := if bwChanged then [] else x.history
      trackTicks := if bwChanged then 0 else x.trackTicks }
    let s := if moved = 0 then s
      else if !rcSlew c || decide (rcSlewLimit c < moved.natAbs) then
        let y := getRef s e
        stepFollowers (setRef s e { y with jumps := satInc 32 y.jumps, shown := rcOffset c, shownDrift := 0 }) e (1000 * moved)
      else s
    wake s (.servoTick e) (some s.now)

/-! ### Engine time between ticks (R390, R399) -/

/-- Whether a slew runs: of the engine's phase, or of the alignment points its followers see. -/
def slews (x : RefEngine) : Bool := x.slewing || x.shown != rcOffset x.config

/-- What `ns` of the oscillator's time do to an engine: it gains on that time by its frequency, and ENGINE_OFFSET_NS as followers
see it moves by SLEW_PPM towards the value configured. Both keep the part of a nanosecond that is left, in 1e-9 ns. -/
def driftRef (ns : Nat) (x : RefEngine) : RefEngine :=
  let unit : Int := 1000000000
  let gain := x.drift + ns * x.freq
  let gap := rcOffset x.config - x.shown
  let part := x.shownDrift + (if gap < 0 then -1 else 1) * (100 * ns * rcSlewPpm x.config : Nat)
  let way := if gap = 0 then 0 else part.tdiv unit
  let done := decide (gap.natAbs ≤ way.natAbs)
  { x with
    offset := x.offset + gain / unit, drift := gain % unit
    shown := if done then rcOffset x.config else x.shown + way, shownDrift := if done then 0 else part.tmod unit }

/-! ### The loop (R400-R402) -/

/-- Phase, or frequency, error within the lock window. -/
def inWindow (s : State) (x : RefEngine) (k : Nat) : Bool :=
  let e := rcEntry x.config k
  if !bearsPhase s e then decide ((x.freq - 10 * (getCand x k).freq).natAbs ≤ 50)
  else decide (x.phase.natAbs ≤ (if ceKind e = 2 then 500 else 100))

/-- What a tick does in the loop of an engine. -/
def runLoop (s : State) (e : Nat) (facts : List LoopFact) : State :=
  let x := getRef s e
  match x.selected with
  | none => s
  | some k =>
    let x := match facts.find? fun f => f.engine == e with
      | none => x
      | some f =>
        { x with
          phase := f.phase, freq := f.freq
          slewing := x.slewing && decide (10 ≤ f.phase.natAbs) }
    let good := inWindow s x k && !slews x
    match x.state with
    | .acquiring =>
      let n := if good then x.lockTicks + 1 else 0
      if 2000 ≤ n then moveRef (setRef s e x) e .locked 2 else setRef s e { x with lockTicks := n }
    | .locked =>
      let track := rcTrackBw x.config
      let halve := decide (track < x.bandwidth) && decide (4000 ≤ x.halveTicks + 1)
      let bw := if halve then max track (x.bandwidth / 2) else if x.bandwidth < track then track else x.bandwidth
      let n := if x.bandwidth = track then x.trackTicks + 1 else 0
      setRef s e { x with
        bandwidth := bw, halveTicks := if halve then 0 else x.halveTicks + 1, trackTicks := n
        holdoverReady := x.holdoverReady || decide (60000 ≤ n), history := (x.freq :: x.history).take 60000 }
    | _ => setRef s e x

/-! ### Device time (R404) -/

/-- Whether an engine is on a PTP candidate with its loop running. -/
def onPtp (x : RefEngine) : Bool :=
  (x.state == .locked || x.state == .acquiring) && (match x.selected with
    | some k => ceKind (rcEntry x.config k) == 2
    | none => false)

/-- Whether device time follows an engine: on a PTP candidate, and in HOLDOVER entered from one (R84). -/
def leadsTime (x : RefEngine) : Bool := onPtp x || (x.state == .holdover && x.lastKind == 2)

/-- TIME_SOURCE of SYS.STATUS. -/
def timeSourceNum (s : State) : Nat :=
  match s.refs.timeSource with
  | none => 0
  | some e =>
    let x := getRef s e
    if onPtp x then 1 else if leadsTime x then 2 else 0

/-- Move device time by `d` ns against the oscillator. What is measured against device time moves with it: the time of each
engine stays, and so do the instants at which frames of sources and outputs begin. -/
def moveTime (s : State) (d : Int) : State :=
  let move := fun (y : RefEngine) => { y with
    offset := y.offset - d, candidates := Tab.mapAll y.candidates fun _ c => { c with offset := c.offset + d } }
  let shift := fun (t : Nat) => if t = 0 then 0 else ((t : Int) + d).toNat
  { s with
    now := ((s.now : Int) + d).toNat
    sources := Tab.mapAll s.sources fun _ x => { x with frameStart := shift x.frameStart }
    outputs := Tab.mapAll s.outputs fun _ o => { o with nextLatch := shift o.nextLatch }
    refs := { s.refs with
      measured := s.refs.measured.map fun f => { f with phase := f.phase + d }
      engines := slots.foldl (fun t k => Tab.set t k (move (Tab.get t k {}))) s.refs.engines } }

/-- Device time equals the time of the engine it follows (R84, R404); the time of the other engines does not move. A step raises
TIME_STEPPED (log entry 35); what the engine's frequency brings is no step. -/
def followTime (s : State) (step : Bool) : State :=
  match s.refs.timeSource with
  | none => s
  | some e =>
    let x := getRef s e
    if !leadsTime x || x.offset == 0 then s
    else
      let t := moveTime s x.offset
      if step then raise t 0x140 e (leInt 8 x.offset) else t

/-- `ns` of the oscillator's time pass: the engines run, and device time with them. -/
def passTime (s : State) (ns : Nat) : State :=
  followTime { s with
    now := s.now + ns, uptime := s.uptime + ns
    refs := { s.refs with engines := Tab.mapAll s.refs.engines fun _ x => driftRef ns x } } false

/-- SERVO_TICK (R397): configurations admitted before it take effect, every engine is evaluated, its loop runs, and device
time follows. Commands that waited for the tick complete. While update stage 1 holds the servo there is no tick (R527). -/
def servoTick (facts : List LoopFact) (s : State) : State :=
  let s := settlePorts s (slots.foldl configTakes s)
  let s := slots.foldl evaluate s
  let s := slots.foldl (fun s e => runLoop s e facts) s
  let s := match s.refs.pendingSource with
    | some t => { s with refs := { s.refs with timeSource := t, pendingSource := none } }
    | none => s
  let s := followTime s true
  ([8, 9, 10, 11, 16] : List Nat).foldl (fun s k => wake s (.servoTick k) (some s.now)) s

def execServoTick (facts : List LoopFact) (s : State) : Result := if servoHeld s then .next s else .next (servoTick facts s)

/-! ### Candidates -/

/-- Slots of an engine that name a measured candidate. -/
def namingSlots (x : RefEngine) (f : CandidateFacts) : List Nat := slots.filter fun k => factsOf (rcEntry x.config k) f

/-- Every engine that names the candidate takes a measurement. -/
def measureAll (s : State) (f : CandidateFacts) : State :=
  slots.foldl (fun s e =>
    (namingSlots (getRef s e) f).foldl (fun s k =>
      let x := getRef s e
      setRef s e { x with candidates := Tab.set x.candidates k (takeFacts (getCand x k) f) }) s) s

/-- The best quality that what is measured of a candidate allows (R396): ±50 ppm against the oscillator, the timing noise of an
analog input, the clockClass of a grandmaster, and the offset and noise of an external clock. -/
def gradeLimit (f : CandidateFacts) : Nat :=
  if 5000 < f.freq.natAbs then 0
  else
    match f.kind with
    | 1 => if f.noise ≤ 2000 then 3 else if f.noise ≤ 10000 then 2 else if f.noise ≤ 50000 then 1 else 0
    | 2 => if f.ptpClass = 6 then 3 else if f.ptpClass = 7 then 2 else if f.ptpClass = 52 ∨ f.ptpClass = 187 then 1 else 0
    | 4 => if f.freq.natAbs ≤ 500 ∧ f.noise ≤ 1000 then 3 else if f.freq.natAbs ≤ 2000 then 2 else 1
    | _ => 3

/-- Whether an analog input accepts a format (R393): WIDTH, HEIGHT, RATE and SCAN in a line of its table, for the sync detected, which
has to be the one MODE asks for. -/
def analogTakes (want mode : Nat) (f : Bytes) : Bool :=
  let key := (fmtWidth f, fmtHeight f)
  (want = 0 || want = mode) &&
    if mode = 1 then fmtScan f == 1 && ((key == (720, 486) && fmtRate f == 9) || (key == (720, 576) && fmtRate f == 8))
    else
      (key == (1280, 720) && fmtScan f == 0 && ([8, 9, 10] : List Nat).contains (fmtRate f)) ||
      (key == (1920, 1080) &&
        match fmtScan f with
        | 0 => ([1, 2, 3, 4, 5, 8, 9, 10] : List Nat).contains (fmtRate f)
        | 1 => ([8, 9, 10] : List Nat).contains (fmtRate f)
        | _ => ([1, 2, 3, 4, 5] : List Nat).contains (fmtRate f))

/-- What an input detects (R407): absent, identifying, present or a wrong format. -/
def detect (x : RefInput) (analog : Bool) (f : CandidateFacts) : RefInput :=
  let want := sub x.config 4 6
  let wrong := analog && !f.format.isEmpty &&
    ((u16 want 0 != 0 && sub f.format 0 6 != want) || !analogTakes (u8 x.config 2) f.mode f.format)
  { x with
    state := if !f.present then 1 else if analog ∧ f.format.isEmpty then 2 else if wrong then 4 else 3
    mode := if f.present then f.mode else 0
    format := if f.present ∧ analog ∧ !f.format.isEmpty then sub f.format 0 6 ++ zeros 10 else zeros 16, noise := f.noise
    losses := if x.state = 3 ∧ !f.present then satInc 32 x.losses else x.losses }

/-- Keep a measurement in place of the one before it. -/
def keepFacts (s : State) (f : CandidateFacts) : State :=
  let other := fun (g : CandidateFacts) => !(g.kind == f.kind && g.index == f.index && g.domain == f.domain)
  { s with refs := { s.refs with measured := s.refs.measured.filter other ++ [f] } }

/-- CANDIDATE_QUALITY_CHANGE (R396): every engine that names the candidate takes the new measurement, its quality no better than
what is measured allows. A wrong format leaves an analog candidate at quality 0 (R393); an SDI candidate's quality follows from its
source. -/
def execCandidateQualityChange (f : CandidateFacts) (s : State) : Result :=
  let before := s
  let input := match f.kind with
    | 1 => some f.index
    | 4 => some (2 + f.index)
    | _ => none
  let s := match input with
    | some i => if inputEnabled s i then setRefInput s i (detect (getRefInput s i) (f.kind == 1) f) else s
    | none => s
  let bad := match input with
    | some i => (getRefInput s i).state != 3
    | none => false
  let f := { f with quality := if bad then 0 else min f.quality (gradeLimit f) }
  .next (candChanges before (measureAll (keepFacts s f) f))

/-- PTP_MESSAGE (R394): a message on port `p` is passed to the servo: candidates on that port and domain take its
measurement, their quality unchanged. The port's PTP_ASYMMETRY_NS is taken from the phase measured (R423). While
update stage 3 holds the offload engine, it is counted in OFFLOAD_DROPS and its candidate keeps its quality (R527). -/
def execPtpMessage (p : Fin 4) (f : CandidateFacts) (s : State) : Result :=
  let n := getNet s p.val
  if n.link != .up then .next s
  else if offloadHeld s then .next (setNet s p.val { n with offloadDrops := satInc 32 n.offloadDrops })
  else
    let f := { f with phase := f.phase - signed 4 (u32 n.config 16) }
    let renew := fun (g : CandidateFacts) =>
      if g.kind == 2 && bit g.index p.val && g.domain == f.domain then
        { g with phase := f.phase, freq := f.freq, ptpClass := f.ptpClass, syncBw := f.syncBw }
      else g
    let s := { s with refs := { s.refs with measured := s.refs.measured.map renew } }
    .next (slots.foldl (fun s e =>
      let x := getRef s e
      (slots.filter fun k => ceKind (rcEntry x.config k) == 2 && bit (ceIndex (rcEntry x.config k)) p.val &&
          ceDomain (rcEntry x.config k) == f.domain).foldl (fun s k =>
        let x := getRef s e
        setRef s e { x with candidates := Tab.set x.candidates k { getCand x k with
          offset := f.phase, freq := f.freq, ptpClass := f.ptpClass, syncBw := f.syncBw } }) s) s)

/-- WTR_EXPIRED (R397): the waiting candidate replaces the selected one. -/
def execWtrExpired (e k : Fin 8) (s : State) : Result :=
  let x := getRef s e.val
  if (getCand x k.val).waiting && bestCand s x slots == some k.val && x.selected != some k.val then .next (selectCand s e.val k.val)
  else .next s

/-- HOLDOVER_EXPIRED (R403). -/
def execHoldoverExpired (e : Fin 8) (s : State) : Result :=
  let x := getRef s e.val
  if x.state != .holdover || x.holdoverExpired then .next s
  else .next (refEvent (setRef s e.val { x with holdoverExpired := true }) e.val .holdover .holdover 7)

/-! ### REFERENCE commands (R407) -/

/-- The first bad field of a candidate entry. -/
def entryBad (p : Product) (e : Bytes) : Option Nat :=
  let i := ceIndex e
  let delay := ceDelay e
  let okIndex := match ceKind e with
    | 1 => decide (i ≤ 1)
    | 4 => decide (i ≤ 1)
    | 2 => if isSmall p then ([1, 2, 3] : List Nat).contains i else ([1, 2, 4, 8, 3, 12] : List Nat).contains i
    | _ => decide (i < sdiCount p)
  if ceKind e = 0 then (if zeroAt e 1 15 then none else some 1)
  else if 4 < ceKind e then some 0
  else if 7 < cePriority e then some 1
  else if !okIndex then some 2
  else if (if ceKind e = 2 then decide (127 < ceDomain e) else ceDomain e != 0) then some 4
  else if (if ceKind e = 2 then decide (1 < u8 e 5) else u8 e 5 != 0) then some 5
  else if !zeroAt e 6 2 then some 6
  else if delay < -1000000 ∨ 1000000 < delay then some 8
  else if !zeroAt e 12 4 then some 12
  else none

/-- Two entries name the same candidate. -/
def sameCand (a b : Bytes) : Bool :=
  ceKind a != 0 && ceKind a == ceKind b && ceIndex a == ceIndex b && ceDomain a == ceDomain b

/-- The checks of the eight entries. -/
def entriesNack (s : State) (c : Bytes) : Option Nack :=
  firstOf (slots.map fun k =>
    match entryBad s.product (rcEntry c k) with
    | some o => some (badItem k (24 + 16 * k + o))
    | none => need (!(slots.any fun j => decide (j < k) && sameCand (rcEntry c j) (rcEntry c k))) (badItem k (24 + 16 * k + 2)))

def defReferenceConfig : CommandDef where
  opcode := 0x0A01
  flags := flagsChange
  lenOk c := c.len == 152
  check s c :=
    let off := rcOffset c.p
    firstOf
      [need (decide (u8 c.p 0 ≤ 7)) (badArg 0), need (decide (u8 c.p 1 ≤ 3)) (badArg 1), need (decide (u8 c.p 2 ≤ 3)) (badArg 2),
       need (decide (u8 c.p 3 ≤ 100)) (badArg 3), need (decide (u16 c.p 4 ≤ 40)) (badArg 4),
       need (decide (u16 c.p 6 ≤ 600)) (badArg 6), need (decide (u32 c.p 8 ≤ 86400)) (badArg 8),
       need (decide (-500000000 ≤ off) && decide (off ≤ 500000000)) (badArg 12),
       need (decide (u32 c.p 16 ≤ 10000000)) (badArg 16), need (zeroAt c.p 20 4) (badArg 20), entriesNack s c.p]
  admission s c := need ((getRef s (u8 c.p 0)).pending.isNone) { status := stBUSY_DRAIN }
  run s c :=
    let e := u8 c.p 0
    let s' := commitLater s c 0xFFFF
    { state := setRef s' e { getRef s' e with pending := some (sub c.p 0 152) }, wait := some (.servoTick e) }

def execReferenceConfig (ch : Fin 32) (s : State) : Result := .next (runCommand defReferenceConfig ch s)

/-- A unit number below `n`, and three reserved bytes. -/
def unitNack (c : Cmd) (n : Nat) : Option Nack :=
  firstOf [need (decide (u8 c.p 0 < n)) (badArg 0), need (zeroAt c.p 1 3) (badArg 1)]

def defReferenceGetConfig : CommandDef where
  opcode := 0x0A02
  lenOk c := c.len == 4
  check _ c := unitNack c 8
  run s c :=
    let x := getRef s (u8 c.p 0)
    readDone s (le 1 (u8 c.p 0) ++ sub (x.pending.getD x.config) 1 151)

def execReferenceGetConfig (ch : Fin 32) (s : State) : Result := .next (runCommand defReferenceGetConfig ch s)

/-- One candidate record. -/
def candRecord (s : State) (x : RefEngine) (k : Nat) : Bytes :=
  let e := rcEntry x.config k
  let c := getCand x k
  le 1 (ceKind e) ++ le 1 (candQuality s x k) ++ le 1 (candState s x k) ++ le 1 (if ceKind e = 2 then c.ptpClass else 0) ++
  leInt 4 (if ceKind e = 0 then 0 else candOffset s x k) ++ leInt 4 c.freq ++ le 4 c.losses

/-- HOLDOVER_LEFT, in seconds rounded up. -/
def holdoverLeft (s : State) (x : RefEngine) : Nat :=
  if x.state = .holdover ∧ !x.holdoverExpired then
    ceilDiv (rcHoldover x.config * 1000000000 - (s.uptime - x.holdoverStart)) 1000000000
  else 0xFFFFFFFF

def defReferenceStatus : CommandDef where
  opcode := 0x0A03
  lenOk c := c.len == 4
  check _ c := unitNack c 8
  run s c :=
    let e := u8 c.p 0
    let x := getRef s e
    readDone s (le 1 e ++ le 1 (refNum x.state) ++ le 1 (x.selected.getD 0xFF) ++
      le 1 (flag x.holdoverReady + 2 * flag x.holdoverExpired + 4 * flag (slews x) +
        8 * flag (slots.any fun k => (getCand x k).waiting) + 16 * flag (s.refs.timeSource == some e)) ++
      le 2 x.bandwidth ++ zeros 2 ++ leInt 4 x.freq ++ leInt 4 x.phase ++ leInt 8 ((s.now : Int) + x.offset) ++ le 8 x.since ++
      le 4 (holdoverLeft s x) ++ le 4 x.jumps ++ le 4 x.switchovers ++ zeros 4 ++ le 8 s.now ++ zeros 8 ++
      slots.flatMap (candRecord s x))

def execReferenceStatus (ch : Fin 32) (s : State) : Result := .next (runCommand defReferenceStatus ch s)

/-- The four fields of an expected format that are compared (R393). -/
def refFormatOk (f : Bytes) : Bool :=
  zeroAt f 0 16 || (([720, 1280, 1920] : List Nat).contains (fmtWidth f) && ([486, 576, 720, 1080] : List Nat).contains (fmtHeight f) &&
    decide (1 ≤ fmtRate f) && decide (fmtRate f ≤ 13) && decide (fmtScan f ≤ 2))

/-- Whether an input is the selected candidate of some engine. -/
def inputSelected (s : State) (i : Nat) : Bool :=
  s.refs.engines.any fun p =>
    match p.2.selected with
    | some k => ceInput (rcEntry p.2.config k) == some i
    | none => false

/-- A channel waits on the servo tick for `k` (R95). -/
def tickBusy (s : State) (k : Nat) : Bool := s.channels.any fun p => (p.2.waiting.map (·.cause)) == some (.servoTick k)

/-- The state REFERENCE.INPUT gives: the input starts afresh; candidates on a disabled input lose their quality. -/
def inputTakes (s : State) (c : Cmd) : State :=
  let i := u8 c.p 0
  let x := getRefInput s i
  let on := u8 c.p 1 == 1
  let f : CandidateFacts := { kind := if i < 2 then 1 else 4, index := i % 2, quality := 0 }
  candChanges s <| setRefInput (measureAll (keepFacts s f) f) i { x with
    config := sub c.p 0 24, state := if on then 1 else 0, mode := 0, format := zeros 16, noise := 0 }

def defReferenceInput : CommandDef where
  opcode := 0x0A04
  flags := flagsForce
  lenOk c := c.len == 24
  check _ c :=
    let analog := decide (u8 c.p 0 < 2)
    firstOf
      [need (decide (u8 c.p 0 ≤ 3)) (badArg 0), need (decide (u8 c.p 1 ≤ 1)) (badArg 1),
       need (if analog then decide (u8 c.p 2 ≤ 2) else decide (1 ≤ u8 c.p 2) && decide (u8 c.p 2 ≤ 3)) (badArg 2),
       need (if analog then decide (u8 c.p 3 ≤ 1) else u8 c.p 3 == 0) (badArg 3),
       need (if analog then refFormatOk (sub c.p 4 16) else zeroAt c.p 4 16) (badArg 4), need (zeroAt c.p 20 4) (badArg 20)]
  admission s c :=
    firstOf [need (!(u8 c.p 1 == 0 && inputSelected s (u8 c.p 0)) || c.force) { status := stROUTED },
             currentNack s (inputTakes s c) 0xFFFF, need (!tickBusy s (8 + u8 c.p 0)) { status := stBUSY_DRAIN }]
  run s c := { state := inputTakes (commitLater s c 0xFFFF) c, wait := some (.servoTick (8 + u8 c.p 0)) }

def execReferenceInput (ch : Fin 32) (s : State) : Result := .next (runCommand defReferenceInput ch s)

def defReferenceInputStatus : CommandDef where
  opcode := 0x0A05
  lenOk c := c.len == 4
  check _ c := unitNack c 4
  run s c :=
    let x := getRefInput s (u8 c.p 0)
    readDone s (le 1 (u8 c.p 0) ++ le 1 x.state ++ le 1 x.mode ++ zeros 1 ++ sub x.format 0 16 ++ le 4 x.noise ++ le 4 x.losses ++ zeros 4)

def execReferenceInputStatus (ch : Fin 32) (s : State) : Result := .next (runCommand defReferenceInputStatus ch s)

def defReferenceTimeSource : CommandDef where
  opcode := 0x0A06
  flags := flagsChange
  lenOk c := c.len == 4
  check _ c := firstOf [need (decide (u8 c.p 0 ≤ 7) || u8 c.p 0 == 0xFF) (badArg 0), need (zeroAt c.p 1 3) (badArg 1)]
  admission s _ := need (!tickBusy s 16) { status := stBUSY_DRAIN }
  run s c :=
    let s' := commitLater s c 0xFFFF
    let t := if u8 c.p 0 = 0xFF then none else some (u8 c.p 0)
    { state := { s' with refs := { s'.refs with pendingSource := some t } }, wait := some (.servoTick 16) }

def execReferenceTimeSource (ch : Fin 32) (s : State) : Result := .next (runCommand defReferenceTimeSource ch s)

/-- The state REFERENCE.CLKOUT gives: the clock stops, or stays low while its PLL locks. -/
def clkTakes (s : State) (c : Cmd) : State :=
  setClk s (u8 c.p 0) { enable := u8 c.p 1 == 1, engine := u8 c.p 2, freq := u8 c.p 3, running := false }

def clkBusy (s : State) (k : Nat) : Bool := s.channels.any fun p => (p.2.waiting.map (·.cause)) == some (.clockOut k)

def defReferenceClkout : CommandDef where
  opcode := 0x0A07
  flags := flagsChange
  lenOk c := c.len == 4
  check _ c :=
    firstOf [need (decide (u8 c.p 0 ≤ 1)) (badArg 0), need (decide (u8 c.p 1 ≤ 1)) (badArg 1), need (decide (u8 c.p 2 ≤ 7)) (badArg 2),
             need (decide (1 ≤ u8 c.p 3) && decide (u8 c.p 3 ≤ 10)) (badArg 3)]
  admission s c := firstOf [currentNack s (clkTakes s c) 0xFFFF, need (!clkBusy s (u8 c.p 0)) { status := stBUSY_DRAIN }]
  run s c :=
    let x := getClk s (u8 c.p 0)
    let same := x.running && u8 c.p 1 == 1 && x.engine == u8 c.p 2 && x.freq == u8 c.p 3
    if same then { state := commit s c 0xFFFF, effect := some s.now }
    else if u8 c.p 1 = 0 then { state := clkTakes (commit s c 0xFFFF) c, effect := some s.now }
    else { state := clkTakes (commitLater s c 0xFFFF) c, wait := some (.clockOut (u8 c.p 0)) }

def execReferenceClkout (ch : Fin 32) (s : State) : Result := .next (runCommand defReferenceClkout ch s)

/-- CLKOUT_STARTED (R405). -/
def execClkoutStarted (k : Fin 2) (s : State) : Result :=
  let x := getClk s k.val
  if x.enable then .next (wake (setClk s k.val { x with running := true }) (.clockOut k.val) (some s.now)) else .next s

end Sys2Proof.Machine
end

