-- ==== Sys2Proof/Machine/Scan.lean ====
section
/-! DEFINITION. What a latch cycle selects: the frame an output sends (R19, R20, R294, R295, R601), the frames the layers
of an Ashlar draw and their alarms (R320, R324), and the source frame of a conversion (R245). -/

namespace Sys2Proof.Machine

/-! ### Choosing a source frame -/

/-- A choice of what to send: the source, its frame number, the slot whose hold is taken, and the flags of R302. -/
structure Pick where
  sending : Sending := .black
  source : Nat := 0xFFFF
  frame : Option Nat := none
  flags : FrameFlags := {}

def blackPick : Pick := { flags := { black := true } }

/-- R151, R164: readers treat a source as black; `true` also for one whose bench is gone. -/
def readsBlack (s : State) (src : Nat) : Bool :=
  (getSource s src).blackNow || !benchExists s (benchKey src false) ||
  (isAshlarObj src && !((getAshlar s (src - 0xC0)).enabled && ashlarOn s (src - 0xC0)))

/-- Whether a source is lost, or away from its format, within its loss-hold (R150). -/
def readsHeld (s : State) (src : Nat) : Bool :=
  (isWeighed s.product src || isTie src) && (getSource s src).state != .formatted

/-- The newest frame of a source whose start lies at or before `t`, counting frames to come (R19, R245). -/
def frameBefore (s : State) (src : Nat) (f : Bytes) (t : Int) : Int :=
  let c := frameClock s src
  (c.1 : Int) + (t - (c.2 : Int)) * (fpsNum f : Int) / (1000000000 * (fpsDen f : Int))

/-- The frame `n` places before the newest COMPLETE one, frames that closed INCOMPLETE left out (R601). -/
def nthComplete (b : Bench) : Nat → Nat → Option Nat
  | 0, top => newestUpTo b top
  | n + 1, top =>
    match newestUpTo b top with
    | none => none
    | some j => if (getSlot b j).frame = 0 then some j else
        match nthComplete b n ((getSlot b j).frame - 1) with
        | some i => some i
        | none => some j

/-- COMPLETE frames of a bench numbered above `a` and at most `b` (R601). -/
def completeBetween (bench : Bench) (a b : Nat) : Nat :=
  (bench.slot.filter fun p => p.2.state == .complete && decide (a < p.2.frame) && decide (p.2.frame ≤ b)).length

/-- The slot an output on a synchronised route takes of a bench whose newest COMPLETE frame is in `top`, and the number
of the frame it sends from it: frame F − N of R19, or those of R208 and R601. A chased frame whose write has not begun is
sent from its own slot as it lands, and the newest frame before it stays held. -/
def syncSlot (s : State) (d src : Nat) (e : Bytes) (b : Bench) (top : Nat) : Nat × Nat :=
  let whole := fun (j : Nat) => (j, (getSlot b j).frame)
  if isPattern src || readsHeld s src then whole top
  else if isHostSource src then whole ((nthComplete b (reDelay e) (getSlot b top).frame).getD top)
  else
    let f := rasterOf s d
    let start : Int := (s.now : Int) + 500 + (linesNs f (latchLead f) : Int)
    let g := frameBefore s src f (start - (lineNs f : Int) - 2000) - (reDelay e : Int)
    if g < 0 then whole top
    else
      let n := g.toNat
      let chase := !reStable e && reDelay e == 0
      match slotOfFrame b n with
      | some j =>
        if (getSlot b j).state = .complete then (j, n)
        else if chase then (j, n) else whole ((newestUpTo b n).getD top)
      | none =>
        let j := (newestUpTo b n).getD top
        if chase ∧ nextFrame s (benchKey src false) ≤ n then (j, n) else whole j

/-- Flags of a frame against the one sent before (R295, R601): a frame sent again is a repeat, or frozen under loss and
hold; one that leaves frames out is a skip. -/
def againFlags (s : State) (src : Nat) (b : Bench) (before now : Nat) : FrameFlags :=
  if before = now then (if readsHeld s src then { frozen := true } else { repeated := true })
  else if before < now ∧ !isPattern src ∧
      1 < (if isHostSource src then completeBetween b before now else now - before) then { skipped := true }
  else {}

/-- The frame sent before, from the same source on the same bench. -/
def sentBefore (o : Output) (key src : Nat) : Option Nat :=
  match o.sending with
  | .frame k _ n => if k = key ∧ o.source = src then some n else none
  | _ => none

/-- The slot of a bench that the output holds. -/
def sentSlot (o : Output) (key : Nat) : List Nat :=
  match o.sending with
  | .frame k j _ => if k = key then [j] else []
  | _ => []

/-- What the output sent, again: nothing but a frame of a slot can be sent again. -/
def again (o : Output) (flags : FrameFlags) : Pick :=
  match o.sending with
  | .frame _ _ _ => { sending := o.sending, source := o.source, frame := o.sourceFrame, flags := flags }
  | _ => blackPick

/-- The frame of a synchronised route (R19, R294). -/
def pickSync (s : State) (d : Nat) (e : Bytes) : Pick :=
  let src := reSource e
  let key := benchKey src false
  let o := getOutput s d
  match getBench s key with
  | none => blackPick
  | some b =>
    let b := readable b (sentSlot o key)
    if readsBlack s src then blackPick
    else
      match newestSlot b with
      | none =>
        match sentBefore o key src with
        | some _ => again o (if readsHeld s src then { frozen := true } else { repeated := true })
        | none => blackPick
      | some top =>
        let p := syncSlot s d src e b top
        { sending := .frame key p.1 p.2, source := src, frame := some p.2
          flags := match sentBefore o key src with
            | some n => againFlags s src b n p.2
            | none => {} }

/-- The frame of a converted route: frame `n` of the destination bench if COMPLETE, else the frame before (R247, R294). -/
def pickConverted (s : State) (d n : Nat) : Pick :=
  let key := benchKey d true
  let o := getOutput s d
  match getContext s d, (getBench s key).bind fun b => (slotOfFrame b n).map fun j => (j, getSlot b j) with
  | some x, some (j, v) =>
    if v.state = .complete then { sending := .frame key j n, source := x.source, frame := some x.lastSource }
    else again o { repeated := true }
  | _, _ => again o { repeated := true }

/-- Whether the route that stands for `d` after what it has latched is held. -/
def standsHeld (s : State) (d : Nat) : Bool :=
  match (getRoute s d).next.getLast? with
  | some n => n.reason == 6
  | none => (getRoute s d).state == .held

/-- What a direct destination sends (R24, R218): the source's words, but safe black on a pinned route from the loss of its
source until the source is FORMATTED again. -/
def pickDirect (s : State) (d : Nat) (e : Bytes) : Pick :=
  let words : Pick := { sending := .stream, source := reSource e }
  if reClass e ≠ 1 then words
  else
    match (getSource s (reSource e)).state with
    | .formatted => words
    | .lost => blackPick
    | .absent => blackPick
    | _ => if (getOutput s d).sending = .stream then words else blackPick

/-- Whether an Ashlar composes: it is enabled, its domain is ON and it is not QUIET (R312). -/
def composes (s : State) (k : Nat) : Bool :=
  (getAshlar s k).enabled && !(getAshlar s k).quiet && (getDomain s (0x40 + k)).state == .on

/-- What output `d` sends as frame `n` under the route entry `e` of class `cls` (R294, R298, R218, R312). -/
def pickFrame (s : State) (d n : Nat) (e : Bytes) (cls : Nat) : Pick :=
  let o := getOutput s d
  let r := getRoute s d
  let src := reSource e
  if reRemoves e || o.quiet then blackPick
  else if standsHeld s d && r.entry == e then
    if r.heldBlack then blackPick else again o { frozen := true }
  else if fedByAshlar s src d then
    if composes s (src - 0xC0) then { sending := .ashlar (src - 0xC0), source := src, frame := some n } else blackPick
  else
    match cls with
    | 1 => pickDirect s d e
    | 3 => pickConverted s d n
    | _ => pickSync s d e

/-! ### Holds -/

/-- Take, and end, the hold that sending `x` needs (R180). -/
def holdSending (s : State) (x : Sending) : State :=
  match x with
  | .frame k j _ => holdSlot s k j false
  | _ => s

def unholdSending (s : State) (x : Sending) : State :=
  match x with
  | .frame k j _ => unholdSlot s k j false
  | _ => s

/-! ### Layers (R317, R320, R324) -/

/-- The lowest-numbered COMPLETE frame of a bench numbered `n` or higher. -/
def pinnedSlot (b : Bench) (n : Nat) : Option Nat :=
  lowestFrame b ((b.slot.filter fun p => p.2.state == .complete && decide (n ≤ p.2.frame)).map (·.1))

/-- Level a layer fetches of a frame: that of R317 for the frame's own FORMAT. -/
def layerLevel (s : State) (src : Nat) (e : Bytes) (v : Slot) : Nat := levelOf v.format e (ctProxy (contractOf s src))

/-- The slot a fetching layer selects, with its level (R320); none draws black. -/
def layerPick (s : State) (src : Nat) (e : Bytes) (mine : List Nat) : Option (Nat × Nat) :=
  if src = 0xFFFF || readsBlack s src then none
  else
    match getBench s (benchKey src false) with
    | none => none
    | some b =>
      let b := readable b mine
      match (if lePin e then pinnedSlot b (lePinFrame e) else newestSlot b) with
      | none => none
      | some j =>
        let k := layerLevel s src e (getSlot b j)
        if k = 1 ∨ lePin e then some (j, k)
        else
          ((newestOf (b.slot.filter fun p => p.2.proxyValid)).map (·.1)).map fun i => (i, layerLevel s src e (getSlot b i))

/-- Whether the change map of a slot has a bit set (R157). -/
def mapMoves (s : State) (b : Bench) (j : Nat) : Bool :=
  let n := tileCount (getSlot b j).format
  (slotRead s b j (mapOff (slotView b j) + 8 * n) (ceilDiv n 8)).any (· != 0)

def alarm (s : State) (k i cause src n : Nat) : State :=
  raise s 0x32 k (le 1 i ++ le 1 cause ++ le 2 src ++ zeros 4 ++ le 8 n)

def onRun (s : State) (k i : Nat) (f : LayerRun → LayerRun) : State :=
  let a := getAshlar s k
  setAshlar s k { a with run := Tab.set a.run i (f (Tab.get a.run i {})) }

def runOf (s : State) (k i : Nat) : LayerRun := Tab.get (getAshlar s k).run i {}

/-- A newly selected frame counts as still or moving (R324). -/
def countStill (s : State) (k i src : Nat) (e : Bytes) (b : Bench) (j : Nat) : State :=
  let r := runOf s k i
  let v := getSlot b j
  if !v.mapValid then s
  else if mapMoves s b j then
    let s := onRun s k i fun r => { r with still := 0, frozen := false }
    if r.frozen then alarm s k i 2 src v.frame else s
  else
    let s := onRun s k i fun r => { r with still := r.still + 1, frozen := r.frozen || decide (leFreeze e ≤ r.still + 1) }
    if !r.frozen ∧ leFreeze e ≤ r.still + 1 then alarm s k i 1 src v.frame else s

/-- LOST and RETURNED of a watched source, seen at the latch cycle (R324). -/
def watchLoss (s : State) (k i src : Nat) : State :=
  let x := getSource s src
  let r := runOf s k i
  if x.state = .lost ∧ !r.lost then alarm (onRun s k i fun r => { r with lost := true }) k i 3 src x.lastFrame
  else if x.state = .formatted ∧ r.lost then alarm (onRun s k i fun r => { r with lost := false }) k i 4 src x.lastFrame
  else s

/-- Let go of what a layer held. -/
def dropHold (s : State) (h : Option (Nat × Nat × Nat)) : State :=
  match h with
  | some (b, j, _) => unholdSlot s b j false
  | none => s

/-- One fetching layer selects its frame: it takes the new hold before it lets go of the old one. -/
def selectFetching (s : State) (k i : Nat) (e : Bytes) : State :=
  let src := layerSource s k e
  let key := benchKey src false
  let old := (runOf s k i).held
  let s := if leAlarm e then watchLoss s k i src else s
  if layerCovered (canvasNow s k) (getAshlar s k).layers i e && !lePin e then
    dropHold (onRun s k i fun r => { r with held := none, black := false }) old
  else
    let mine := match old with
      | some (k, j, _) => if k = key then [j] else []
      | none => []
    match layerPick s src e mine, getBench s key with
    | some (j, level), some b =>
      let n := (getSlot b j).frame
      let s := holdSlot s key j false
      let s := onRun s k i fun r => { r with held := some (key, j, n), level := levelCode level, black := false }
      let s := if leAlarm e ∧ old ≠ some (key, j, n) then countStill s k i src e b j else s
      dropHold s old
    | _, _ => dropHold (onRun s k i fun r => { r with held := none, level := 0xFF, black := true }) old

/-- Every layer of an Ashlar in a latch cycle. -/
def selectLayers (s : State) (k : Nat) : State :=
  (getAshlar s k).layers.foldl (fun s p =>
    if leFetches p.2 then selectFetching s k p.1 p.2
    else if leKind p.2 = 5 then onRun s k p.1 fun r => { r with tally := tallyDrawn s p.2 }
    else if leKind p.2 = 4 then onRun s k p.1 fun r => { r with meters := sampleMeters s p.2 }
    else s) s

/-- The writeback frame that was landing closes (R307). -/
def closeWriteback (s : State) (k : Nat) : State :=
  match (getBench s (wbKey k)).bind landingSlot with
  | none => s
  | some j =>
    let pid := takeLong s
    closeSlot pid.2 (wbKey k) j true fun v => { v with payloadId := pid.1 }

/-- Frame `n` lands, composed from what the latch cycle selected (R307, R320): its samples stand in the slot from here on, and
the time at which each line lands is left to the lines of the output. -/
def landWriteback (s : State) (k n : Nat) : State :=
  let s := { s with store := { s.store with nextFrame := Tab.set s.store.nextFrame (wbKey k) (n + 1) } }
  match getBench s (wbKey k) with
  | none => s
  | some b =>
    match chooseSlot b with
    | some j => writeComposed (landSlot s (wbKey k) j n (canvasNow s k)) k j
    | none => skipWrite s (wbKey k) n

/-- QUIET of an enabled Ashlar clears in the first latch cycle after its domain is ON again, with the layer table that the Foreman
has applied anew (R312). -/
def wakeAshlar (s : State) (k n : Nat) : State :=
  let a := getAshlar s k
  if a.enabled && a.quiet && (getDomain s (0x40 + k)).state == .on then
    ashlarEvent (setAshlar s k { a with quiet := false }) k 4 n
  else s

/-- The latch cycle of an Ashlar for frame `n` of its drive output (R307, R312, R320). -/
def latchAshlar (s : State) (k n : Nat) : State :=
  if composes s k then
    landWriteback (selectLayers (closeWriteback (setAshlar s k { getAshlar s k with lastFrame := n, missed := [] }) k) k) k n
  else s

/-! ### The source frame of a conversion (R245) -/

/-- The frames a context reads: the slot it holds and the number of the newest, and of the one before it where the assignment is
interpolating; and the temporal position of the frame it makes (R266). -/
structure ContextChoice where
  slot : Nat
  frame : Nat
  older : Option (Nat × Nat) := none
  aim : Int := 0

/-- The slot held for frame `n` of a bench whose newest COMPLETE frame is in `top`, and the number of the frame read: only a
chase takes a frame that is not COMPLETE (R20). -/
def chosenSlot (s : State) (src : Nat) (b : Bench) (chase : Bool) (top n : Nat) : Nat × Nat :=
  let whole := fun (j : Nat) => (j, (getSlot b j).frame)
  match slotOfFrame b n with
  | some j => if (getSlot b j).state = .complete ∨ chase then (j, n) else whole ((newestUpTo b n).getD top)
  | none =>
    let j := (newestUpTo b n).getD top
    if chase ∧ nextFrame s (benchKey src false) ≤ n then (j, n) else whole j

/-- The frame before the one chosen, the other frame of an interpolating assignment (R238). -/
def withOlder (b : Bench) (p : Nat × Nat) : ContextChoice :=
  { slot := p.1, frame := p.2
    older := if p.2 = 0 then none else (newestUpTo b (p.2 - 1)).map fun j => (j, (getSlot b j).frame) }

/-- The frames G and G + 1 of a rate conversion (R266); G alone where nothing of G + 1 is there to be chased. -/
def framePair (s : State) (src : Nat) (b : Bench) (chase : Bool) (top g : Nat) : ContextChoice :=
  let p := chosenSlot s src b chase top g
  match slotOfFrame b (g + 1) with
  | some i => { slot := i, frame := g + 1, older := some p }
  | none =>
    if chase ∧ nextFrame s (benchKey src false) ≤ g + 1 then { slot := p.1, frame := g + 1, older := some p }
    else { slot := p.1, frame := p.2 }

/-- The temporal position t of R266 for a frame whose latch instant is `deadline`: its display instant less D of R249. -/
def temporalAt (s : State) (d : Nat) (x : Context) (deadline : Nat) : Int :=
  (deadline : Int) + (linesNs (rasterOf s d) (latchLead (rasterOf s d)) : Int) - (conversionNs s x.source d x.entry : Int)

/-- The pair a context reads of a host frame source for rate conversion: G is the newest COMPLETE frame whose START_TIME is at or
before `t`, and G + 1 the next one that is COMPLETE (R266, R601). -/
def hostPair (b : Bench) (t : Int) (top : Nat) : ContextChoice :=
  let whole := b.slot.filter fun p => p.2.state == .complete
  match newestOf (whole.filter fun p => decide ((p.2.start : Int) ≤ t)) with
  | none => { slot := top, frame := (getSlot b top).frame }
  | some g =>
    match lowestFrame b ((whole.filter fun p => decide (g.2.frame < p.2.frame)).map (·.1)) with
    | none => { slot := g.1, frame := g.2.frame }
    | some i => { slot := i, frame := (getSlot b i).frame, older := some (g.1, g.2.frame) }

/-- The source frames a context reads for a frame whose latch instant is `deadline` (R245, R601); none is black. The newest is the
one whose last active line lands T_tail before the deadline, less FRAME_DELAY; of a deinterlacing it is G + 1. Where frames are
made for their own instants G is the newest frame that starts at or before t (R266, log entry 98). -/
def contextPick (s : State) (d : Nat) (x : Context) (deadline : Nat) : Option ContextChoice :=
  let src := x.source
  let e := x.entry
  let f := contextSource s src
  let two := interpolating f (destFormat s d) (reFrc e)
  if readsBlack s src then none
  else
    match getBench s (benchKey src false) with
    | none => none
    | some b =>
      let b := readable b ((x.held.filter fun h => h.1 == benchKey src false).map (·.2))
      match newestSlot b with
      | none => none
      | some top =>
        let whole := fun (j : Nat) => (j, (getSlot b j).frame)
        let choose := fun (p : Nat × Nat) => if two then withOlder b p else { slot := p.1, frame := p.2 }
        let t := temporalAt s d x deadline
        let temporal := ratesDiffer f (destFormat s d) && reFrc e != 0
        let p : ContextChoice :=
          if isPattern src || readsHeld s src then { slot := top, frame := (getSlot b top).frame }
          else if isHostSource src then
            if temporal then hostPair b t top else choose (whole ((nthComplete b (reDelay e) (getSlot b top).frame).getD top))
          else
            let landed : Int := (deadline : Int) - (tailNs s src d e : Int) - (linesNs f (latchLine f) : Int)
            let chase := !reStable e && reDelay e == 0
            let g := if temporal then frameBefore s src f t else frameBefore s src f landed - (reDelay e : Int)
            if g < 0 then choose (whole top)
            else if temporal then framePair s src b chase top g.toNat
            else choose (chosenSlot s src b chase top g.toNat)
        some { p with aim := t }

end Sys2Proof.Machine
end

