-- ==== Sys2Proof/Machine/Latch.lean ====
section
/-! DEFINITION. Latch cycles, frame starts and switch instants (R215, R286-R301), the work of conversion contexts
(R244-R253, R269-R271), FRAME_CLOSE, and shadow entries that no latch cycle takes. -/

namespace Sys2Proof.Machine

/-! ### Conversion contexts -/

/-- Add a frame to the late window of a context (R250). -/
def pushWindow (x : Context) (late : Bool) : Context := { x with window := (x.window ++ [late]).drop (x.window.length + 1 - 100) }

/-- CRUSHER_LATE and the counters of a late frame (R247). -/
def countLateFrame (s : State) (d n : Nat) (x : Context) : State :=
  let v := getConv s d
  let c := getCrusher s x.engine
  let s := setConv s d { v with late := satInc 32 v.late }
  let s := setCrusher s x.engine { c with late := satInc 16 c.late }
  raise s 0x20 x.engine (le 2 d ++ le 1 (lateWindow x) ++ le 1 (flag x.blocked) ++ zeros 4 ++ le 8 n)

/-- Abandon the frame in progress: its slot closes INCOMPLETE (R247). -/
def abandonFrame (s : State) (d : Nat) : State :=
  let key := benchKey d true
  match (getBench s key).bind landingSlot with
  | some j => closeSlot s key j false
  | none => s

/-- L_n for a context: its frame `n` was delivered, is late, or is the first of a migration (R247, R252). -/
def deadline (s : State) (d n : Nat) : State :=
  match getContext s d with
  | none => s
  | some x =>
    let missed := x.working == some n
    let arrives := (x.arriving.map (·.frame)) == some n
    let s := if missed then abandonFrame s d else s
    let x' : Context := { x with working := none, arriving := if arrives then none else x.arriving }
    let s :=
      if missed && arrives then
        let v := getConv s d
        setConv (setContext s d x') d { v with repeats := satInc 32 v.repeats }
      else if missed then
        let x' := pushWindow x' true
        let s := countLateFrame (setContext s d x') d n x'
        if 3 ≤ lateWindow x' then autoMigrate s d else s
      else setContext s d (if x.started && x.lastFrame == n then pushWindow x' false else x')
    match x.arriving with
    | some m => if m.frame = n then let before := s; settleDelta before (appliedOn s m.gen d n) m.gen else s
    | none => s

/-- At L_{m−1} the bench's placement generation changes and the context moves to its new engine (R251). `lost` tells that
the old placement still had writes of frame m − 1 to make. -/
def moveContext (s : State) (d n : Nat) (lost : Bool) : State :=
  match getContext s d with
  | none => s
  | some x =>
    match x.migration with
    | none => s
    | some m =>
      if m.frame ≠ n + 1 then s
      else
        let before := s
        let s := setContext s d { x with
          engine := m.engine, placement := (x.placement + 1) % 256, window := [], motionState := 1, migration := none
          arriving := some m }
        let v := getConv s d
        let s := setConv s d { v with
          migrations := satInc 32 v.migrations, stale := if lost then satInc 32 v.stale else v.stale }
        moveDelta before (settleService (crusherEvent s x.engine 4 x.placement d) x.engine) m.gen

/-- The context begins frame `n + 1` (R244): it takes the slots it reads, lets go of the old ones, and lands the frame. -/
def beginWork (s : State) (d n : Nat) : State :=
  match getContext s d with
  | none => s
  | some x =>
    let key := benchKey x.source false
    let pick := contextPick s d x (s.now + 500 + frameNs (rasterOf s d))
    let held := match pick with
      | some p => p.older.toList.map (fun q => (key, q.1)) ++ [(key, p.slot)]
      | none => []
    let s := held.foldl (fun s h => holdSlot s h.1 h.2 false) s
    let s := x.held.foldl (fun s h => unholdSlot s h.1 h.2 false) s
    let s := setContext s d { x with
      held := held, working := some (n + 1), aim := (pick.map (·.aim)).getD x.aim
      reading := pick.map fun p => (p.older.map (·.2)).getD p.frame
      second := pick.bind fun p => p.older.map fun _ => p.frame }
    let dk := benchKey d true
    match getBench s dk with
    | none => s
    | some b =>
      match chooseSlot b with
      | some j => landSlot s dk j (n + 1) (rasterOf s d) x.placement
      | none => skipWrite s dk (n + 1)

/-! ### Shadow entries at a latch cycle (R289-R292) -/

/-- An entry of unit `u` that latch cycle `n` has to apply. -/
def dueAt (u n : Nat) (x : Shadow) : Bool := x.unit == u && x.written && x.armed && !x.taken && decide (x.target ≤ n)

def fencesOpen (s : State) (x : Shadow) : Bool := x.fences.all fun f => fenceSatisfied s f.fence f.epoch

def dropShadow (s : State) (x : Shadow) : State := onFm s fun f => { f with shadow := f.shadow.filter (· != x) }

/-- A change whose entry missed its target's latch cycle completes LATE where it still waits (R291). -/
def markLate (s : State) (gen : Nat) : State :=
  { s with
    fm := { s.fm with changes := s.fm.changes.map fun c => if c.gen = gen then { c with late := true } else c }
    channels := s.channels.map fun p =>
      match p.2.waiting with
      | some w => if w.cause = .change gen then (p.1, { p.2 with waiting := some { w with reply := { w.reply with status := stLATE } } }) else p
      | none => p }

def countRetry (s : State) (d : Nat) : State :=
  let o := getOutput s d
  setOutput s d { o with counts := { o.counts with fenceRetries := satInc 32 o.counts.fenceRetries } }

/-- A timing step (R297): counted, and shown in the flags of the frame that ends. -/
def timingStep (s : State) (d : Nat) : State :=
  let o := getOutput s d
  setOutput s d { o with
    stepDue := false, flags := { o.flags with timingStep := true }
    counts := { o.counts with timingSteps := satInc 32 o.counts.timingSteps } }

/-- Whether two configurations time an output differently. -/
def retimes (a b : Bytes) : Bool :=
  ocFormat a != ocFormat b || ocEngine a != ocEngine b || ocPhase a != ocPhase b

/-- Of the records of a frame on raster `f`, how many an output cannot send: those whose line the raster does not have (R25), and
of those after the latch line the ones its buffer of 32 KiB does not hold (R288). -/
def unsentRecords (f : Bytes) (rs : List Bytes) : Nat :=
  let fits := fun (r : Bytes) => decide (1 ≤ u16 r 0) && decide (u16 r 0 ≤ totalLines f)
  (rs.filter fun r => !fits r).length + (fitRecords 32768 (rs.filter fun r => fits r && decide (latchLine f < u16 r 0))).2

/-- The output ends its hold on the frame it sends, and counts the ancillary records of it that it has not sent (R25, R288). -/
def endSending (s : State) (d : Nat) : State :=
  let x := (getOutput s d).sending
  let n := match x with
    | .frame k j _ =>
      match getBench s k with
      | some b => unsentRecords (rasterOf s d) (slotRecords s b j)
      | none => 0
    | _ => 0
  unholdSending (countDropped s d n) x

/-- The output goes OFF (R299): its hold ends, its routes of this latch take effect, and its frame count holds. -/
def stopOutput (s : State) (d n : Nat) : State :=
  let s := endSending s d
  let s := setOutput s d { getOutput s d with disabling := true, next := .nothing, following := false, quiet := false, latched := n, lastLatch := s.now + 500, nextLatch := 0 }
  let s := moveOutput s d .off
  let s := (getRoute s d).next.foldl (fun s x => routeTakes s d x n) s
  let s := refreshFollowers s d
  if isSdi d then settleDomain s (0x10 + d / 8) else s

/-- Whether a configuration is that of lane 4j + 1, 4j + 2 or 4j + 3 of a quad-link gang (R305). -/
def tailConfig (d : Nat) (c : Bytes) : Bool := isSdi d && d % 4 != 0 && quadFormat (ocFormat c)

/-- A configuration comes into force at the latch of frame `n` (R297, R305, R310). A new timing is a timing step, which settleStep
makes once the entries of the cycle have been applied; a new format lays benches out anew, and is a new canvas. An output that
becomes a later lane of a gang steps into the gang's timing: from here on the generator of output 4j runs for it. -/
def takeConfig (s : State) (d n : Nat) (c : Bytes) : State :=
  let o := getOutput s d
  let old := o.config
  let s := setOutput s d { o with config := c }
  if tailConfig d c && ocEnable c then (if o.state = .off then s else stopOutput (timingStep s d) d n)
  else if !ocEnable c then (if o.state = .off then s else stopOutput s d n)
  else if !retimes old c then s
  else
    let s := setOutput s d { getOutput s d with stepDue := true }
    if ocFormat old = ocFormat c then s
    else
      let s := (newLayouts s d (ocFormat c)).foldl (fun s p => changeBench s p.1 p.2 true) s
      ((Tab.keys s.ashlars).filter fun k => (getAshlar s k).enabled && driveOf s k == d).foldl (fun s k => ashlarEvent s k 3 n) s

/-- Put a route change among those the switch instant of frame `n` shows. -/
def queueNext (s : State) (d n gen : Nat) (e : Bytes) (cls reason : Nat) (cause : Nat := 0) : State :=
  let r := getRoute s d
  setRoute s d { r with next := r.next ++ [{ gen := gen, entry := e, cls := cls, reason := reason, cause := cause, frame := n }] }

/-- The entry that stands for a destination after what it has latched. -/
def standing (s : State) (d : Nat) : Bytes × Nat :=
  let r := getRoute s d
  match r.next.getLast? with
  | some x => (x.entry, x.cls)
  | none => (r.entry, r.cls)

/-- The timing step that waits is made, unless the output goes on following a direct source: it then keeps that timing, and the new
values are stored (R297). One that stops following in this cycle takes the new timing, and its PHASE_NS stays as set (R284). -/
def settleStep (s : State) (d : Nat) : State :=
  let o := getOutput s d
  if !o.stepDue then s
  else if o.following && (standing s d).2 == 1 && !reRemoves (standing s d).1 then setOutput s d { o with stepDue := false }
  else timingStep (setOutput s d { o with following := false }) d

/-- The route of `d` is shed (R472). -/
def shedRoute (s : State) (d n gen : Nat) : State :=
  let before := s
  let r := getRoute s d
  let s := if r.cls = 1 then keepPhase s d (reSource r.entry) else s
  let s := setRoute s d { getRoute s d with state := .shed, effectFrame := n, gen := max (getRoute s d).gen gen, effectGen := gen }
  let s := releaseContext (withdrawMigration s d) d
  let s := appliedOn s gen d n
  settleDelta before (driveTallies s) gen

/-- Apply one due entry in the latch cycle of frame `n`. An enable that follows a disable waits for the frame start. -/
def applyEntry (s : State) (n : Nat) (x : Shadow) : State :=
  let u := x.unit
  match x.body with
  | .output c =>
    let before := s
    if ocEnable c && isTimed u && (getOutput s u).state == .off then s
    else settleDelta before (appliedOn (takeConfig (dropShadow s x) u n c) x.gen u n) x.gen
  | .route e cls =>
    if isAshlarObj u || (isTimed u && (getOutput s u).state == .off) then routeTakes (dropShadow s x) u { gen := x.gen, entry := e, cls := cls } n
    else queueNext (dropShadow s x) u n x.gen e cls 0
  | .classChange cls reason => queueNext (dropShadow s x) u n x.gen (standing s u).1 cls reason
  | .hold cause => queueNext (dropShadow s x) u n x.gen (standing s u).1 (standing s u).2 6 cause
  | .shed => shedRoute (dropShadow s x) u n x.gen
  | .layers k es =>
    let before := s
    settleDelta before (appliedOn (applyLayers (dropShadow s x) k es) x.gen u n) x.gen
  | .ashlar c =>
    let before := s
    let s := applyAshlar (dropShadow s x) (u - 0xC0) c n
    settleDelta before (appliedOn s x.gen u n) x.gen
  | .embed mode channels =>
    let before := s
    settleDelta before (appliedOn (applyEmbed (dropShadow s x) u mode channels) x.gen u n) x.gen
  | .audioMap _ =>
    onFm s fun f => { f with shadow := f.shadow.map fun y => if y = x then { y with taken := true } else y }

/-- A descriptor with an older wake epoch is discarded and counted in STALE of its domain (R301, R481); the Foreman writes the change,
which stays queued, again. -/
def discardStale (s : State) (x : Shadow) : State :=
  let s := onFm s fun f => { f with shadow := f.shadow.map fun y =>
    if y = x then { y with written := false, wake := wakeEpoch s x.unit } else y }
  match unitDomain x.unit with
  | some d => setDomain s d { getDomain s d with stale := ((getDomain s d).stale + 1) % 2 ^ 64 }
  | none => s

/-- Take one due entry: one of an older wake epoch is not applied, one waits on its fences (R292), and a late one is counted
(R291). -/
def takeEntry (s : State) (d n : Nat) (x : Shadow) : State :=
  if x.wake ≠ wakeEpoch s x.unit then discardStale s x
  else if !fencesOpen s x then countRetry s d
  else
    let late := decide (x.target < n) && x.fences.isEmpty && !x.late
    let s := if late then countLate (markLate s x.gen) d true else s
    applyEntry s n x

/-- Units whose changes are taken in the latch cycles of output `d`: itself, its gang, and the Ashlars it drives. -/
def latchUnits (s : State) (d : Nat) : List Nat :=
  (if isSdi d && d % 4 == 0 then [d, d + 1, d + 2, d + 3].filter fun m => m == d || gangTail s m || quadFormat (ocFormat (getOutput s d).config)
   else [d]) ++ ((Tab.keys s.ashlars).filter fun k => driveOf s k == d).map ashlarObj

/-- Step 1 and 2 of R288: the due entries of the output's units in admission order (R88). -/
def takeShadows (s : State) (d n : Nat) : State :=
  let us := latchUnits s d
  (s.fm.shadow.filter fun x => us.any fun u => dueAt u n x).foldl (fun s x => takeEntry s d n x) s

/-! ### LATCH_CYCLE and OUTPUT_FRAME_START -/

/-- A chased frame that closed INCOMPLETE makes the frame that ends a mixed one (R20). -/
def resolveChase (s : State) (d : Nat) : State :=
  let o := getOutput s d
  match o.sending with
  | .frame k _ n =>
    let mixed := match getBench s k with
      | some b => b.slot.any fun p => p.2.frame == n && p.2.state == .incomplete
      | none => false
    if mixed && !o.flags.mixed then countMixed (setOutput s d { o with flags := { o.flags with mixed := true } }) d true else s
  | _ => s

/-- Steps 3 to 5 of R288: the selection for frame `n`, its hold, the end of the old hold, and what is recorded. -/
def selectFrame (s : State) (d n : Nat) : State :=
  let e := standing s d
  let before := getRoute s d
  let e := if e.2 = 3 ∧ before.cls ≠ 3 then (before.entry, before.cls) else e
  let p := if before.state == .shed && before.next.isEmpty then blackPick else pickFrame s d n e.1 e.2
  let idle := (getOutput s d).state == .idle
  let s := endSending (holdSending s p.sending) d
  let off := p.sending == .black && idle && ocLaneOff (getOutput s d).config
  let black := p.sending == .black && !off
  setOutput s d { getOutput s d with
    next := if off then .nothing else p.sending
    nextSource := p.source, nextSourceFrame := p.frame, nextFlags := { p.flags with black := black } }

/-- IDLE and ACTIVE (R299): a route, or its removal, takes effect in this latch cycle. -/
def settleState (s : State) (d : Nat) : State :=
  let o := getOutput s d
  if o.state = .off then s
  else
    let routed := !reRemoves (standing s d).1 && (getRoute s d).state != .shed || !(getRoute s d).next.isEmpty && !reRemoves (standing s d).1
    moveOutput s d (if routed && !o.quiet then .active else .idle)

/-- QUIET clears once the group's domain is ON again (R301). -/
def settleQuiet (s : State) (d : Nat) : State :=
  let o := getOutput s d
  if o.quiet && (!isSdi d || (getDomain s (0x10 + d / 8)).state == .on) then setOutput s d { o with quiet := false } else s

/-- The conversion side of the latch cycle: the deadline of frame `n`, a migration, and the work on frame `n + 1`. -/
def latchContext (s : State) (d n : Nat) : State :=
  match getContext s d with
  | none => s
  | some x =>
    let lost := x.working == some n
    let s := deadline s d n
    let s := if (standing s d).2 = 3 ∧ (getRoute s d).next ≠ [] then contextTakes s d (standing s d).1 else s
    let s := moveContext s d n lost
    if (standing s d).2 = 3 then beginWork s d n else s

/-- The latch cycle of frame `n` (R287, R288). -/
def latchOutput (s : State) (d : Nat) : State :=
  let n := (getOutput s d).latched
  let s := takeShadows (resolveChase (settleQuiet (latchFlows s d n) d) d) d n
  if (getOutput s d).state = .off then flushFlows s d n
  else
    let s := settleState (settleStep s d) d
    let ks := (Tab.keys s.ashlars).filter fun k => driveOf s k == d
    let s := selectFrame (ks.foldl (fun s k => wakeAshlar s k n) s) d n
    let s := ks.foldl (fun s k => latchAshlar s k n) (latchContext s d n)
    let o := getOutput s d
    setOutput s d { o with
      latched := n + 1, lastLatch := s.now + 500, nextLatch := s.now + 500 + frameNs (rasterOf s d) }

/-- LATCH_CYCLE. An output's latch cycle comes once for each frame (R287). -/
def execLatchCycle (d : BitVec 16) (s : State) : Result :=
  let o := getOutput s d.toNat
  if !isTimed d.toNat || o.state == .off || o.latched != o.frame || gangTail s d.toNat then .next s
  else .next (latchOutput s d.toNat)

/-- OUTPUT_FRAME_DONE of the frame that ends (R302). -/
def frameDone (s : State) (d : Nat) : State :=
  let o := getOutput s d
  raise s 0x3 d (le 8 (sentFrame o) ++ le 4 (orOnes o.sourceFrame) ++ le 2 o.source ++ le 1 (frameFlagBits o.flags))

/-- A frame starts (R286): the count advances and the frame latched for it goes out. A gated output sends nothing, and its
frames are none of safe black (R298). -/
def startOutputFrame (s : State) (d : Nat) : State :=
  let o := getOutput s d
  let f := if isSdi d && !powered s (0x10 + d / 8) then { o.nextFlags with black := false } else o.nextFlags
  let c := o.counts
  setOutput s d { o with
    frame := o.frame + 1, sending := o.next, source := o.nextSource, sourceFrame := o.nextSourceFrame, flags := f
    counts := { c with
      frames := c.frames + 1, black := c.black + flag f.black, repeats := satAdd 32 c.repeats (flag f.repeated)
      skips := satAdd 32 c.skips (flag f.skipped), frozen := satAdd 32 c.frozen (flag f.frozen) } }

/-- The entry that enables an OFF output and may take effect (R299, R305). -/
def enableDue (s : State) (d : Nat) : Option Shadow :=
  s.fm.shadow.find? fun x => x.unit == d && x.written && x.armed && (match x.body with
    | .output c => ocEnable c
    | _ => false)

/-- A gang's other outputs take its configuration with it (R305). -/
def enableTail (s : State) (m n : Nat) : State :=
  match enableDue s m with
  | some x =>
    let c := match x.body with
      | .output c => c
      | _ => []
    settleDelta s (appliedOn (setOutput (dropShadow s x) m { getOutput s m with config := c }) x.gen m n) x.gen
  | none => s

/-- An enable takes effect at a frame start: the output is IDLE and sends safe black (R299). -/
def enableOutput (s : State) (d : Nat) (x : Shadow) : State :=
  let c := match x.body with
    | .output c => c
    | _ => []
  let before := s
  let n := (getOutput s d).frame
  let o := getOutput s d
  let idle : Sending := if ocLaneOff c then .nothing else .black
  let f := frameNs (ocFormat c)
  let s := setOutput (dropShadow s x) d { o with
    config := c, frame := n + 1, latched := n + 1, sending := idle, next := idle, source := 0xFFFF, nextSource := 0xFFFF
    sourceFrame := none, nextSourceFrame := none, flags := { black := !ocLaneOff c }, nextFlags := {}, disabling := false
    following := false, nextLatch := s.now + f - linesNs (ocFormat c) (latchLead (ocFormat c))
    counts := { o.counts with frames := o.counts.frames + 1, black := o.counts.black + flag (!ocLaneOff c) } }
  let s := settleDelta before (appliedOn (refreshFollowers (moveOutput s d .idle) d) x.gen d n) x.gen
  (([d + 1, d + 2, d + 3]).filter fun m => gangTail s m).foldl (fun s m => enableTail s m n) s

/-- OUTPUT_FRAME_START: the packets left out are those of the frame that ends which did not fit the space left on their lines
(R25), or the packets of an IP sender's frame. -/
def execOutputFrameStart (x : LeftOut) (s : State) : Result :=
  let d := x.dest.toNat
  let o := getOutput s d
  let s := match o.sending with
    | .frame _ _ _ => countDropped s d x.packets
    | _ => s
  if !isTimed d || gangTail s d then .next s
  else if o.state = .off then
    let s := if o.disabling then
        let s := frameDone s d
        setOutput s d { getOutput s d with disabling := false, sending := .nothing, source := 0xFFFF, sourceFrame := none, flags := {} }
      else s
    match enableDue s d with
    | some x => .next (enableOutput s d x)
    | none => .next s
  else if o.latched ≠ o.frame + 1 then .next s
  else .next (startOutputFrame (frameDone s d) d)

/-! ### SWITCH_INSTANT (R215) -/

/-- Routes a destination has latched take effect, oldest first. -/
def takeNext (s : State) (d : Nat) : List NextRoute → State
  | [] => s
  | x :: t => takeNext (routeTakes s d x x.frame) d t

/-- Audio map entries that the latch cycle took come into force with the switch (R346), in admission order; with them the channels
they set, which then make one crossfade (R349). -/
def takeMaps (s : State) (u frame : Nat) : State × List Nat :=
  let due := s.fm.shadow.filter fun x => x.unit == u && x.taken
  due.foldl (fun (p : State × List Nat) x =>
    match x.body with
    | .audioMap es =>
      (settleDelta p.1 (appliedOn (putMap (dropShadow p.1 x) es) x.gen u frame) x.gen, p.2 ++ es.map (·.1))
    | _ => p) (s, [])

/-- A tie-line send has no latch cycle of its own: what is due is taken at its source's switching line (R283). -/
def latchTie (s : State) (d : Nat) : State :=
  (s.fm.shadow.filter fun x => dueAt d (nextLatched s d) x).foldl (fun s x =>
    if fencesOpen s x then applyEntry s (nextLatched s d) x else s) s

def switchAt (s : State) (d : Nat) : State :=
  let s := if isTie d then latchTie s d else s
  let n := (getOutput s (timingOf s d)).frame - 1
  let s := takeNext s d (getRoute s d).next
  let us := d :: (((Tab.keys s.ashlars).filter fun k => driveOf s k == d).map ashlarObj)
  let p := us.foldl (fun (p : State × List Nat) u => ((takeMaps p.1 u n).1, p.2 ++ (takeMaps p.1 u n).2)) (s, [])
  (p.2 ++ followers p.1 d).eraseDups.foldl refreshDest p.1

/-- SWITCH_INSTANT: packets of the new source that had begun before the instant are left out whole by a direct switch (R228). -/
def execSwitchInstant (x : LeftOut) (s : State) : Result :=
  let d := x.dest.toNat
  if isAshlarObj d || gangTail s d then .next s
  else
    let direct := ((getRoute s d).next.getLast?).any fun n => n.cls == 1 && n.reason == 0 && !reRemoves n.entry
    .next (switchAt (if direct then countDropped s d x.packets else s) d)

/-! ### FRAME_CLOSE (R179) -/

/-- A pattern generator's frame closes COMPLETE (R600). Its picture is a free value. -/
def closePattern (s : State) (src : Nat) : State :=
  let key := benchKey src false
  match getBench s key with
  | none => s
  | some b =>
    match landingSlot b with
    | none => s
    | some j =>
      let f := (getSlot b j).format
      let s' := slotWrite { s with free := s.free + pictureSpan } b j 0 (wildFrame f s.free)
      closeSlot s' key j true

/-- FRAME_CLOSE of the bench of `owner`, a destination bench when `dest` is set. -/
def execFrameClose (owner : BitVec 16) (dest : Bool) (facts : CloseFacts) (s : State) : Result :=
  let i := owner.toNat
  if dest then .next (closeConverted s i facts)
  else if isPattern i then .next (closePattern s i)
  else if isAshlarObj i then .next (closeWriteback s (i - 0xC0))
  else .next (closeSource s i facts)

/-! ### Shadow entries that no latch cycle takes (log entry 14) -/

/-- A unit whose generator is stopped and stays so. -/
def idleUnit (s : State) (u : Nat) : Bool :=
  if u = freeUnit then false else if isTie u then !tcEnable (getTie s (tieSendKey (u - 0x100))).config else !latches s u

/-- A removal, an audio map or an embed mode on such a unit takes effect as its entry is written. -/
def applyIdle (s : State) (x : Shadow) : State :=
  if !x.armed || !idleUnit s x.unit then s
  else
    let n := (timer s x.unit).frame
    match x.body with
    | .route e cls => if reRemoves e then routeTakes (dropShadow s x) x.unit { gen := x.gen, entry := e, cls := cls } n else s
    | .audioMap es => settleDelta s (appliedOn (applyMap (dropShadow s x) es) x.gen x.unit n) x.gen
    | .embed mode channels => settleDelta s (appliedOn (applyEmbed (dropShadow s x) x.unit mode channels) x.gen x.unit n) x.gen
    | _ => s

/-- The Foreman writes the shadow entries of a generation (R225, R290). -/
def writeShadow (s : State) (gen : Nat) : State :=
  let s := onFm s fun f => { f with shadow := f.shadow.map fun x => if x.gen = gen then { x with written := true } else x }
  (s.fm.shadow.filter fun x => x.gen == gen).foldl applyIdle s

/-- SHADOW_WRITE. -/
def execShadowWrite (gen : Nat) (s : State) : Result := .next (writeShadow s gen)

end Sys2Proof.Machine
end

