-- ==== Sys2Proof/Machine/NetFlow.lean ====
section
/-! DEFINITION. What network ports do by themselves (R410-R413, R417-R437): link states, the checks of a received packet,
the release of lines and samples, sending, and the protocols of the offload engine. -/

namespace Sys2Proof.Machine

/-! ### Ports (R410-R413) -/

def netNum : NetState → Nat
  | .down => 0
  | .noSignal => 1
  | .aligning => 2
  | .localFault => 3
  | .remoteFault => 4
  | .up => 5

/-- A change of a port's link state (R410): a departure from UP is counted, NET_LINK is raised, and in UP a gratuitous ARP
goes out and every group is joined anew (R412). -/
def moveNet (s : State) (p : Nat) (goal : NetState) : State :=
  let x := getNet s p
  if x.link = goal then s
  else
    let before := s
    let y := { x with
      link := goal
      linkLosses := if x.link = .up then satInc 16 x.linkLosses else x.linkLosses
      tx := if goal = .up then x.tx + 1 else x.tx
      reports := if goal = .up then (groupsOn s p).foldl (fun t g => Tab.set t g 2) x.reports else x.reports }
    let s := raise (setNet s p y) 0x60 p (le 1 (netNum x.link) ++ le 1 (netNum goal))
    candChanges before (ptpDown s)

/-- Receive lanes of a port, all LOCKED (R409, R410). -/
def netLanesLocked (s : State) (p : Nat) : Bool :=
  ([0, 1, 2, 3] : List Nat).all fun i => (getLane s (0x200 + 4 * p + i)).state == .locked

/-- NET_LINK. A disabled port, or one without its module, stays DOWN; every state beyond NO_SIGNAL needs the four lanes
LOCKED (R410). -/
def execNetLink (p : Fin 4) (goal : Fin 6) (fecCorrected fecUncorrected : Nat) (s : State) : Result :=
  let x := getNet s p.val
  let s := setNet s p.val { x with
    fecCorrected := x.fecCorrected + fecCorrected, fecUncorrected := x.fecUncorrected + fecUncorrected }
  if !ncEnable x.config || !x.present then .next (moveNet s p.val .down)
  else
    let t : NetState := match goal.val with
      | 0 => .noSignal
      | 1 => .noSignal
      | 2 => .aligning
      | 3 => .localFault
      | 4 => .remoteFault
      | _ => .up
    .next (moveNet s p.val (if netLanesLocked s p.val then t else .noSignal))

/-- QSFP_PRESENT_CHANGE (R413): QSFP_PRESENT_N high keeps the port DOWN; QSFP_INT_N is reported. -/
def execQsfpPresentChange (p : Fin 4) (present int : Bool) (s : State) : Result :=
  let x := getNet s p.val
  let s := setNet s p.val { x with present := present, intAsserted := int }
  if !present then .next (moveNet s p.val .down)
  else if ncEnable x.config ∧ x.link = .down then .next (moveNet s p.val .noSignal)
  else .next s

/-! ### A received frame (R417) -/

/-- What a receive flow counts. -/
def onFlow (s : State) (k : Nat) (f : Flow → Flow) : State := setFlow s k (f (getFlow s k))

/-- Steps 1 to 3 on port `p`: the counter that moves and drops the frame, the hand to the offload engine, or neither. -/
inductive PortVerdict where
  | drop (f : NetPort → NetPort)
  | offload
  | pass

def portCheck (x : NetPort) (m : NetPacket) : PortVerdict :=
  let vid := npVid x.config
  let vlanOk := match m.vlan with
    | none => true
    | some v => vid != 0 && v == vid
  if !m.fcsOk then .drop fun y => { y with fcs := y.fcs + 1 }
  else if 1522 < m.size then .drop fun y => { y with oversize := satInc 32 y.oversize }
  else if !vlanOk || (!m.ipv4 && !m.offload) then .drop fun y => { y with nonIpv4 := satInc 32 y.nonIpv4 }
  else if m.ipv4 && !m.ipOk then .drop fun y => { y with malformedIp := satInc 32 y.malformedIp }
  else if m.offload then .offload
  else .pass

/-- Whether a configuration has a leg on port `p` that a packet matches exactly (R417 step 4). -/
def legMatches (c : Bytes) (p : Nat) (m : NetPacket) : Bool :=
  fcEnable c && m.ssrc == fcSsrc c && (legsOf c).any fun l =>
    l.2 == p && m.src == fcSrc c l.1 && m.dst == fcDst c l.1 && m.port == fcUdp c l.1

/-- Step 4: the flow a packet on port `p` matches, in the configuration in force or in the one a move brings. -/
def matchFlow (s : State) (p : Nat) (m : NetPacket) : Option Nat :=
  if !m.udp then none
  else
    (s.flows.find? fun x =>
      keyDir x.1 == 0 && (legMatches x.2.config p m || (match x.2.moving with
        | some v => legMatches v.config p m
        | none => false))).map (·.1)

/-- R437: which legs may carry data of extended timestamp `e` while a move is on its way. -/
def placementOk (x : Flow) (p : Nat) (m : NetPacket) (e : Nat) : Bool :=
  match x.moving with
  | none => true
  | some v => if e < v.first then legMatches x.config p m else legMatches v.config p m

/-- Step 5: the leg's bucket after the packet, and whether it fits (R418). -/
def police (s : State) (c : Bytes) (l : Leg) (bytes : Nat) : Leg × Bool :=
  let used := l.used - fillRate s c * (s.now - l.since)
  let after := used + bytes * 100000000000
  if after ≤ bucketDepth s c then ({ l with used := after, since := s.now }, true)
  else ({ l with used := used, since := s.now }, false)

/-! ### Ancillary payloads (RFC 8331; PRESUMED, log entry 123) -/

/-- `n` bits of a payload from bit `o` on, the most significant first. -/
def beBits (b : Bytes) (o : Nat) : Nat → Nat
  | 0 => 0
  | n + 1 => 2 * beBits b o n + u8 b ((o + n) / 8) / 2 ^ (7 - (o + n) % 8) % 2

/-- What an ancillary packet is to the Weighbridge (R155, R428): a timecode packet of ST 12-2, told by the distributed bits of its first
eight words, or any other. -/
def rfcKind (words : List Nat) : AncKind :=
  let at_ := fun (i : Nat) => words.getD i 0
  if at_ 0 % 256 = 0x60 ∧ at_ 1 % 256 = 0x60 ∧ words.length = 20 then
    let code := (List.range 8).foldl (fun n i => n + at_ (3 + i) / 8 % 2 * 2 ^ i) 0
    let value := (List.range 16).foldl (fun n i => n + at_ (3 + i) / 16 % 16 * 16 ^ i) 0
    if code ≤ 2 then .timecode (if code = 0 then 1 else 2) (code == 2) (BitVec.ofNat 64 value) else .other
  else .other

/-- The ancillary packet at bit `o` of a payload, and the bit after it. -/
def rfcPacket (b : Bytes) (o : Nat) : AncPacket × Nat :=
  let n := beBits b (o + 52) 10 % 256
  let stop := o + roundUp (32 + 10 * (n + 4)) 32
  let words := (List.range (n + 4)).map fun i => beBits b (o + 32 + 10 * i) 10
  let sum := (words.take (n + 3)).foldl (fun m w => m + w % 512) 0 % 512
  ({ line := beBits b (o + 1) 11
     place := beBits b o 1 + 2 * flag (beBits b (o + 12) 12 == 0xFFE) + 4 * flag (beBits b 40 2 == 3)
     checksumOk := words.getD (n + 3) 0 == sum + 512 * (1 - sum / 256), fits := decide (stop ≤ 8 * b.length)
     words := words.map (BitVec.ofNat 10), kind := rfcKind words }, stop)

/-- The ancillary packets of a payload, from bit `o` on. -/
def rfcPackets (b : Bytes) : Nat → Nat → List AncPacket
  | 0, _ => []
  | n + 1, o => if 8 * b.length ≤ o then [] else (rfcPacket b o).1 :: rfcPackets b n (rfcPacket b o).2

def ancPackets (b : Bytes) : List AncPacket := rfcPackets b (u8 b 4) 64

/-- Step 6: RTP version 2, the payload type, and a length that suits the flow; an audio packet carries whole frames of its
binding's channels, and the packets of an ancillary one lie on lines of the raster (R427, R428). -/
def headerOk (s : State) (c : Bytes) (m : NetPacket) : Bool :=
  m.version == 2 && m.pt == fcPt c && m.lengthOk &&
    match fcKind c with
    | 0 => true
    | 1 =>
      let n := flowChannels s 0 (fcIndex c)
      n != 0 && m.data.length == n * sampleBytes c * packetSamples c
    | _ => (ancPackets m.data).all fun a =>
        decide (1 ≤ a.line) && decide (a.line ≤ totalLines (ctFormat (contractOf s (0x80 + fcAssoc c))))

/-- Width of a flow's sequence numbers (R419). -/
def seqBits (c : Bytes) : Nat := if fcKind c = 0 then 32 else 16

/-- Verdict of step 7 (R419). -/
inductive SeqVerdict where
  | accept
  | duplicate
  | behind
  | resync
  deriving DecidableEq, Repr

def seqCheck (x : Flow) (n seq : Nat) : SeqVerdict :=
  match x.newest with
  | none => .accept
  | some h =>
    if 64 ≤ x.reorderRun then .resync
    else if serialLater n h seq then .accept
    else if x.seen.contains seq then .duplicate
    else if serialDist n seq h ≤ 31 then .accept
    else .behind

/-- The flow once a packet of sequence number `seq` is accepted: H, and the numbers that still count as received. -/
def accepted (x : Flow) (n seq : Nat) (v : SeqVerdict) : Flow :=
  let later := match x.newest with
    | none => true
    | some h => serialLater n h seq
  if v = .resync then
    { x with newest := some seq, seen := [seq], reorderRun := 0, released := none, resyncs := satInc 32 x.resyncs }
  else if later then
    { x with newest := some seq, seen := seq :: x.seen.filter fun y => !serialLater n seq y, reorderRun := 0 }
  else { x with seen := seq :: x.seen, reorderRun := 0 }

/-- Time from the start of a virtual frame or field to the EAV of row `row` (R424, R132). -/
def rowTime (f : Bytes) (field2 : Bool) (row : Nat) : Nat :=
  if fmtScan f = 0 then
    linesNs f (latchLine f - rasterLines f + (if fmtHeight f = 4320 then row / 2 else row))
  else
    let first := match fmtHeight f with
      | 486 => if field2 then 283 else 21
      | 576 => if field2 then 336 else 23
      | _ => if field2 then 584 else 21
    let t := linesNs f (first - 1 + row)
    if field2 ∧ fmtScan f = 1 then t - frameNs f / 2 else t

/-- Release instant of a video packet (R424). -/
def releaseTime (s : State) (c : Bytes) (e : Nat) (field2 : Bool) (row : Nat) : Nat :=
  media90 e + 1000 * latenessUs c + rowTime (ctFormat (contractOf s (0x80 + fcIndex c))) field2 row

/-- Whether the frame that receive flow `i` released last is the one its source receives. -/
def flowFrameOpen (s : State) (i : Nat) : Bool :=
  match (getSource s (0x80 + i)).frame with
  | some f => (getFlow s (flowKey 0 0 i)).frameOf == some f.number
  | none => false

/-- Step 8: whether a packet comes after its release instant (R424, R427); one of an ancillary flow, after the video frame of its
timestamp has closed (R428). -/
def isLate (s : State) (c : Bytes) (e : Nat) (m : NetPacket) : Bool :=
  match fcKind c with
  | 0 => decide (releaseTime s c e m.field2 m.line < s.now)
  | 1 => decide (media48 e + playoutNs c < s.now)
  | _ =>
    let v := getFlow s (flowKey 0 0 (fcAssoc c))
    match v.frameTime with
    | none => false
    | some t => decide (e < v.frameFirst.getD t) || (decide (e ≤ t) && !flowFrameOpen s (fcAssoc c))

/-- Held bytes of a flow (R420). -/
def heldBytes (x : Flow) : Nat := x.held.foldl (fun n h => n + h.bytes) 0

/-- The Weighbridge's checks of a video packet (R160): a line beyond the contract is counted and its data discarded, and
samples past the line are counted. -/
def weighPacket (s : State) (c : Bytes) (m : NetPacket) : State :=
  if fcKind c ≠ 0 then s
  else
    let i := 0x80 + fcIndex c
    let s := if m.runsPast then onCounts s i fun k => { k with packetsMalformed := satInc 32 k.packetsMalformed } else s
    if fieldLines (ctFormat (contractOf s i)) ≤ m.line then
      onCounts s i fun k => { k with longFrameLines := satInc 32 k.longFrameLines }
    else s

/-- Steps 5 to 9 of R417 for a packet that matches flow `k` on port `p`. -/
def flowPacket (s : State) (k p : Nat) (m : NetPacket) : State :=
  let s := if keyKind k = 1 then flowPending s k else s
  let s := if keyKind k = 0 ∧ ((getSource s (0x80 + keyIndex k)).state = .absent ∨
      (getSource s (0x80 + keyIndex k)).state = .lost) then sourceLocking s (0x80 + keyIndex k) else s
  let x := getFlow s k
  let e := extend (flowClock (keyKind k) s.now) m.timestamp
  if !placementOk x p m e then setFlow s k { x with stale := satInc 32 x.stale }
  else
    let c := match x.moving with
      | some v => if e < v.first then x.config else v.config
      | none => x.config
    let (l, fits) := police s c (Tab.get x.legs p {}) m.ipBytes
    let x := { x with legs := Tab.set x.legs p l }
    if !fits then setFlow s k { x with policed := satInc 32 x.policed }
    else if !headerOk s c m then setFlow s k { x with malformed := satInc 32 x.malformed }
    else
      let x := { x with legs := Tab.set x.legs p { l with packets := l.packets + 1 } }
      let n := seqBits c
      let v := seqCheck x n m.seq
      if v = .duplicate then setFlow s k { x with duplicates := satInc 32 x.duplicates, reorderRun := 0 }
      else if v = .behind then setFlow s k { x with reorderDrops := satInc 32 x.reorderDrops, reorderRun := x.reorderRun + 1 }
      else if isLate s c e m then setFlow s k { x with late := satInc 32 x.late }
      else if flowQuota s c < heldBytes x + m.ipBytes then setFlow s k { x with quotaDrops := satInc 32 x.quotaDrops }
      else
        let y := accepted x n m.seq v
        let h : HeldPacket := { seq := m.seq, time := e, line := m.line, field2 := m.field2, bytes := m.ipBytes, data := m.data }
        weighPacket (setFlow s k { y with packets := y.packets + 1, held := h :: y.held, lastTime := e }) c m

/-! ### Release (R424-R428) -/

/-- Insert a held packet in the order of sequence numbers. -/
def insertPacket (n : Nat) (a : HeldPacket) : List HeldPacket → List HeldPacket
  | [] => [a]
  | b :: r => if serialLater n a.seq b.seq then a :: b :: r else b :: insertPacket n a r

def inOrder (n : Nat) (l : List HeldPacket) : List HeldPacket := l.foldl (fun l h => insertPacket n h l) []

/-- Numbers never received between `prev` and the numbers released after it, in order, and the newest released. -/
def gaps (n : Nat) : Option Nat → List Nat → Nat × Option Nat
  | prev, [] => (0, prev)
  | none, b :: r => gaps n (some b) r
  | some a, b :: r =>
    if serialLater n a b then
      let g := gaps n (some b) r
      (serialDist n a b - 1 + g.1, g.2)
    else gaps n (some a) r

/-- Release the held packets that `go` picks: their bytes leave the quota, and the gaps between them count in MISSING. -/
def releaseHeld (x : Flow) (go : HeldPacket → Bool) : Flow :=
  let n := seqBits x.config
  let g := gaps n x.released ((inOrder n (x.held.filter go)).map (·.seq))
  { x with held := x.held.filter fun h => !go h, missing := satAdd 32 x.missing g.1, released := g.2 }

/-- Ancillary receive flows tied to video flow `i` (R428). -/
def tiedFlows (s : State) (i : Nat) : List Nat :=
  (s.flows.filter fun p => keyDir p.1 == 0 && keyKind p.1 == 2 && fcAssoc p.2.config == i).map (·.1)

/-- The held packets of an ancillary flow that belong to the frame its video flow's source receives feed its side area and its
timecode (R428), and leave the buffer. -/
def feedAnc (s : State) (k : Nat) : State :=
  let i := fcAssoc (getFlow s k).config
  let v := getFlow s (flowKey 0 0 i)
  let due := fun (h : HeldPacket) => match v.frameFirst, v.frameTime with
    | some a, some b => decide (a ≤ h.time) && decide (h.time ≤ b)
    | _, _ => false
  if flowFrameOpen s i then
    let x := getFlow s k
    let s := (inOrder 16 (x.held.filter due)).foldl (fun s h =>
      (ancPackets h.data).foldl (fun s a => packetArrives s (0x80 + i) a) s) s
    onFlow s k fun x => releaseHeld x due
  else s

/-- A move of an audio flow takes effect at its first packet at or past the threshold (R437). -/
def audioMove (s : State) (k p : Nat) (m : NetPacket) : State :=
  let x := getFlow s k
  match x.moving with
  | none => s
  | some v =>
    if keyKind k = 1 ∧ v.first ≤ extend (clock48 s.now) m.timestamp ∧ legMatches v.config p m then flowMoves s k s.now else s

/-- PACKET_RECEIVED (R417): a frame on a port in UP. Packets for the offload engine are only counted here; OFFLOAD_PACKET
handles them. -/
def execPacketReceived (p : Fin 4) (m : NetPacket) (s : State) : Result :=
  let x := getNet s p.val
  if closing s (0x48 + p.val) then .next (spoilItem s (0x48 + p.val))
  else if x.link != .up then .next s
  else
    let x := { x with rx := x.rx + 1 }
    match portCheck x m with
    | .drop f => .next (setNet s p.val (f x))
    | .offload => .next (setNet s p.val x)
    | .pass =>
      match matchFlow s p.val m with
      | none => .next (setNet s p.val { x with unmatched := x.unmatched + 1 })
      | some k =>
        let s := flowPacket (audioMove (setNet s p.val x) k p.val m) k p.val m
        .next (if keyKind k = 2 then feedAnc s k else s)

/-- A disabled video flow, or one left without a source, ends with its frame boundary (R441, R136). -/
def endVideo (s : State) (i : Nat) : State :=
  let s := if fcEnable (getFlow s (flowKey 0 0 i)).config then s else disableTakes s (0x80 + i)
  if fcEnable (getFlow s (flowKey 0 0 i)).config then s
  else onFlow s (flowKey 0 0 i) fun x => { x with held := [], frameTime := none, frameFirst := none, frameOf := none }

/-- Ticks of C₉₀ that E advances by from one frame, or field, to the next, rounded down (R426). -/
def frameTicks (f : Bytes) : Nat := 90000 * fpsDen f / fpsNum f / (if fmtScan f = 1 then 2 else 1)

/-- Whether E goes from `t` to `e` by one TF, or one field period, within 1 TL (R426). -/
def inStep (f : Bytes) (t e : Nat) : Bool :=
  let n := if fmtScan f = 1 then 2 else 1
  let off : Int := ((e : Int) - t) * (n * fpsNum f : Nat) - (90000 * fpsDen f : Nat)
  decide (off.natAbs * totalLines f ≤ 90000 * n * fpsDen f)

/-- The boundary at which frame `e` of video flow `i`, or its second field, starts: TIMING_JUMPS is counted, and what belongs to
earlier frames is released. At a frame's, the frame before it closes if it has not (R160, R426), and a change or a move comes into
force (R428, R437, R441). -/
def frameBoundary (s : State) (i e : Nat) (second : Bool) : State :=
  let k := flowKey 0 0 i
  let x := getFlow s k
  let f := ctFormat (contractOf s (0x80 + i))
  let jump := match x.frameTime with
    | some t => !inStep f t e
    | none => false
  let s := if !second && flowFrameOpen s i then endFrame s (0x80 + i) false [] else s
  let x := releaseHeld { x with
    frameTime := some e, frameFirst := if second then x.frameFirst else some e
    jumps := if jump then satInc 32 x.jumps else x.jumps } fun h => decide (h.time < e)
  let s := setFlow s k x
  if second then s
  else
  let s := flowPending s k
  let s := match x.moving with
    | some m => if m.first ≤ e then onFlow (flowMoves s k (nextFrame s (benchKey (0x80 + i) false) - 1)) k fun y => { y with moveFrame := some e }
      else s
    | none => s
  let s := (tiedFlows s i).foldl (fun s a =>
    let s := flowPending (onFlow s a fun y => releaseHeld y fun h => decide (h.time < e)) a
    match (getFlow s a).moving with
    | some m => if m.first ≤ e then flowMoves s a s.now else s
    | none => s) s
  endVideo s i

/-- LINE_RELEASE (R424): the row of frame `e` whose EAV has come is released. `supplied` says that packets gave it
samples; where they did not, the line is missing, and in the first frame of a move that is a MOVE_GAP (R437). -/
def execLineRelease (i : Fin 64) (e row : Nat) (field2 supplied : Bool) (l : LineFacts) (s : State) : Result :=
  let k := flowKey 0 0 i.val
  if !fcEnable (getFlow s k).config then .next s
  else
    let second := field2 && fmtScan (sourceFormat (getSource s (0x80 + i.val))) == 1 && (getFlow s k).frameFirst.isSome
    let s := if (getFlow s k).frameTime = some e then s else frameBoundary s i.val e second
    if !fcEnable (getFlow s k).config then .next s
    else
      let s := onFlow s k fun x => releaseHeld x fun h =>
        decide (h.time < e) || (h.time == e && (decide (h.line ≤ row) && h.field2 == field2 || (field2 && !h.field2)))
      let s := if !supplied ∧ (getFlow s k).moveFrame = some e then
          onFlow s k fun x => { x with moveGaps := satInc 32 x.moveGaps, moveFrame := none }
        else s
      let s := onFlow s k fun x => { x with frameOf := (getSource s (0x80 + i.val)).frame.map (·.number) }
      let s := (tiedFlows s i.val).foldl feedAnc s
      .next (if supplied then lineArrives s (0x80 + i.val) l (some row) else s)

/-- FLOW_SILENT (R149): no packet on any leg of receive flow `i`; one with a leg that is live is not silent (R430). What waited for a
frame boundary takes effect. -/
def execFlowSilent (i : Fin 64) (s : State) : Result :=
  let x := getFlow s (flowKey 0 0 i.val)
  if (legsOf x.config).any fun l => (Tab.get x.legs l.2 {}).live then .next s
  else
  let s := loseSource s (0x80 + i.val) cFLOW_SILENT
  let s := flowPending s (flowKey 0 0 i.val)
  let s := (tiedFlows s i.val).foldl flowPending s
  .next (endVideo s i.val)

/-! ### Audio samples (R427, R364) -/

/-- A big-endian sample of a packet (ST 2110-30), at byte `o`, of 3 or 2 bytes. -/
def netSample (b : Bytes) (o width : Nat) : BitVec 24 :=
  if width = 3 then BitVec.ofNat 24 (65536 * u8 b o + 256 * u8 b (o + 1) + u8 b (o + 2))
  else BitVec.ofNat 24 (256 * (256 * u8 b o + u8 b (o + 1)))

/-- The packet that carries sample `e`, and its place in it. -/
def sampleIn (x : Flow) (e : Nat) : Option (HeldPacket × Nat) :=
  match x.held.find? fun h => decide (h.time ≤ e) && decide (e < h.time + packetSamples x.config) with
  | some h => some (h, e - h.time)
  | none => none

/-- One channel takes a sample, or zero where none came. The first sample after a gap ramps in over 48 samples of free
values; a data channel has no ramp. -/
def writeSample (s : State) (k : Nat) (v : Option (BitVec 24)) : State :=
  let x := getAsrc s k
  match v with
  | none =>
    setAsrc s k { x with
      samples := (0#24 :: x.samples).take historyDepth, concealed := satInc 32 x.concealed, ramp := if x.nonPcm then 0 else 48 }
  | some w => pushSample s k w

/-- AUDIO_SAMPLE_WRITE (R427): the write instant of sample `e` of audio receive flow `i`. A packet leaves the buffer with
its last sample. -/
def execAudioSampleWrite (i : BitVec 8) (e : Nat) (s : State) : Result :=
  let k := flowKey 0 1 i.toNat
  let x := getFlow s k
  match bindOf s 0 i.toNat with
  | none => .next s
  | some b =>
    if !fcEnable x.config then .next s
    else
      let w := sampleBytes x.config
      let s := (List.range b.count).foldl (fun s j =>
        writeSample s (0x1000 + b.base + j) ((sampleIn x e).map fun h => netSample h.1.data ((h.2 * b.count + j) * w) w)) s
      .next (onFlow s k fun y => releaseHeld y fun h => decide (h.time + packetSamples y.config ≤ e + 1))

/-! ### Liveness (R430) -/

/-- NET_LEG: a leg of a receive flow falls silent, or passes a packet again. -/
def execNetLeg (kind : Fin 3) (i : BitVec 8) (leg : Fin 2) (live : Bool) (s : State) : Result :=
  let k := flowKey 0 kind.val i.toNat
  let x := getFlow s k
  match (legsOf x.config).find? fun l => l.1 == leg.val with
  | none => .next s
  | some l =>
    let v := Tab.get x.legs l.2 {}
    if !fcEnable x.config || v.live == live then .next s
    else
      let s := setFlow s k { x with legs := Tab.set x.legs l.2 { v with live := live } }
      .next (audioLegs (raise s 0x61 l.2 (le 1 kind.val ++ le 1 i.toNat ++ le 1 leg.val ++ le 1 (flag live))) k)
where
  /-- The channels of an audio flow of which no leg is live are ramped to silence, and resume with its packets (R363, R430). -/
  audioLegs (s : State) (k : Nat) : State :=
    match (if keyKind k = 1 then bindOf s 0 (keyIndex k) else none) with
    | none => s
    | some b =>
      let x := getFlow s k
      if (legsOf x.config).any fun l => (Tab.get x.legs l.2 {}).live then
        evalReturned ((bindChannels b).foldl rampUp s) ((bindChannels b).filter fun c => (getAsrc s c).lostAt.isSome)
      else (bindChannels b).foldl rampDown s

/-! ### Sending (R431-R436) -/

/-- R435: whether a send flow has packets to send. -/
def sendsNow (s : State) (k : Nat) : Bool :=
  let c := (getFlow s k).config
  let o := getOutput s (0x80 + (if keyKind k = 2 then fcAssoc c else keyIndex k))
  fcEnable c &&
    match keyKind k with
    | 0 => o.state == .active || (o.state == .idle && !ocLaneOff o.config)
    | 1 => (bindOf s 1 (keyIndex k)).isSome
    | _ => o.state == .active

/-- Timestamp of the next packet of a send flow, and whether it was re-anchored (R431, R433): the start of the frame or field that the
output sends, one frame before the one it has latched already, or the count of samples sent since the enable. -/
def nextStamp (s : State) (k : Nat) (field2 : Bool) : Nat × Bool :=
  let x := getFlow s k
  let d := 0x80 + (if keyKind k = 2 then fcAssoc x.config else keyIndex k)
  if keyKind k = 1 then
    let n := packetSamples x.config
    let due := clock48 (s.now - packetTime x.config)
    let t := x.lastTime + n
    if x.frameTime.isNone then (due, false)
    else if (if due ≤ t then t - due else due - t) ≤ n then (t, false)
    else (due, true)
  else
    let f := rasterOf s d
    let o := timer s d
    let start := o.lastLatch + linesNs f (latchLead f) - (if o.latched = o.frame then 0 else frameNs f)
    (clock90 (start + (if field2 ∧ fmtScan f = 1 then frameNs f / 2 else 0)), false)

/-- One leg sends a packet: its port must be UP. -/
def sendLeg (s : State) (k p : Nat) : State :=
  if (getNet s p).link != .up then s
  else
    let s := setNet s p { getNet s p with tx := (getNet s p).tx + 1 }
    onFlow s k fun x => { x with legs := Tab.set x.legs p { Tab.get x.legs p {} with packets := (Tab.get x.legs p {}).packets + 1 } }

/-- PACKET_SEND: a packet of a send flow reaches its instant; `late` when it left more than 1 µs after it. An unresolved
destination sends nothing and counts (R436). -/
def execPacketSend (kind : Fin 3) (i : BitVec 8) (field2 late : Bool) (s : State) : Result :=
  let k := flowKey 1 kind.val i.toNat
  let s := if kind.val = 1 then sendBoundary s k s.now else s
  if !sendsNow s k then .next s
  else
    let c := (getFlow s k).config
    let ready := (legsOf c).filter fun l => resolved s l.2 (fcDst c l.1)
    let up := ready.filter fun l => (getNet s l.2).link == .up
    let unresolved := ready.length < (legsOf c).length
    let s := if unresolved then onFlow s k fun x => { x with sendFaults := satInc 32 x.sendFaults } else s
    if up.isEmpty then .next s
    else
      let t := nextStamp s k field2
      let s := up.foldl (fun s l => sendLeg s k l.2) s
      .next (onFlow s k fun x => { x with
        packets := x.packets + 1, lastTime := t.1, frameTime := some t.1
        sendSeq := (x.sendSeq + 1) % (if kind.val = 0 then 4294967296 else 65536)
        sendFaults := satAdd 32 x.sendFaults (flag late + flag t.2) })

/-! ### The offload engine (R412) -/

/-- Own MAC address of a port (R409). -/
def portMac (s : State) (p : Nat) : Nat := fuseField s 2 0x104 6 + p

/-- ARP_TIMER: a request for next hop `hop` of port `p` falls due, to resolve it or to refresh it; update stage 3 makes it wait
(R527). -/
def execArpTimer (p : Fin 4) (hop : BitVec 32) (s : State) : Result :=
  let x := getNet s p.val
  if x.link != .up || offloadHeld s || !(hopsOf s p.val).contains hop.toNat then .next s
  else .next (setNet s p.val { x with tx := x.tx + 1, arp := Tab.set x.arp hop.toNat (Tab.get x.arp hop.toNat {}) })

/-- IGMP_REPORT_TIMER: an unsolicited report for a group joined falls due; update stage 3 makes it wait (R527). -/
def execIgmpReportTimer (p : Fin 4) (group : BitVec 32) (s : State) : Result :=
  let x := getNet s p.val
  let n := Tab.get x.reports group.toNat 0
  if x.link != .up || offloadHeld s || n == 0 then .next s
  else .next (setNet s p.val { x with
    tx := x.tx + 1
    reports := if n = 1 then Tab.erase x.reports group.toNat else Tab.set x.reports group.toNat (n - 1) })

/-- Whether a port reports its groups under IGMP version 2. -/
def igmpV2 (x : NetPort) : Bool := x.igmpV2 || u8 x.config 14 == 1

/-- What a packet does once the offload engine has taken it. -/
def offloadTakes (s : State) (p : Nat) : OffloadPacket → State
  | .arpRequest t => if t = npAddress (getNet s p).config then portSends s p 1 else s
  | .arpReply a mac =>
    let x := getNet s p
    if (hopsOf s p).contains a then setNet s p { x with arp := Tab.set x.arp a { mac := some mac } } else s
  | .igmpQuery v =>
    let x := getNet s p
    let s := if v = 2 then setNet s p { x with igmpV2 := true } else s
    let n := (groupsOn s p).length
    portSends s p (if n = 0 then 0 else if igmpV2 (getNet s p) then n else 1)
  | .icmpEcho d =>
    let x := getNet s p
    if d = npAddress x.config ∧ x.icmpCount < 100 then portSends (setNet s p { x with icmpCount := x.icmpCount + 1 }) p 1 else s
  | .icmpOther => s
  | .ptp => s

/-- OFFLOAD_PACKET: at most 10,000 packets of a second of device time reach the engine; the rest are dropped and counted
(log entry 43), as are those that arrive while update stage 3 holds the engine (R527). -/
def execOffloadPacket (p : Fin 4) (m : OffloadPacket) (s : State) : Result :=
  let x := getNet s p.val
  if closing s (0x48 + p.val) then .next (spoilItem s (0x48 + p.val))
  else if x.link != .up then .next s
  else
    let sec := s.now / 1000000000
    let x := if x.offSecond = sec then x else { x with offSecond := sec, offCount := 0, icmpCount := 0 }
    if 10000 ≤ x.offCount ∨ offloadHeld s = true then .next (setNet s p.val { x with offloadDrops := satInc 32 x.offloadDrops })
    else .next (offloadTakes (setNet s p.val { x with offCount := x.offCount + 1 }) p.val m)

/-- NET_ADDRESS: another MAC claims the port's address, or a next hop has stayed unresolved for 1 s, which is reported once
until it resolves (R412, R436). -/
def execNetAddress (p : Fin 4) (addr : BitVec 32) (conflict : Bool) (s : State) : Result :=
  let x := getNet s p.val
  let a := addr.toNat
  if conflict then
    if x.link = .up ∧ npAddress x.config = a then .next (raise s 0x63 p.val (le 4 a ++ le 1 1)) else .next s
  else
    let y := Tab.get x.arp a {}
    if !(hopsOf s p.val).contains a || y.mac.isSome || y.raised then .next s
    else .next (raise (setNet s p.val { x with arp := Tab.set x.arp a { y with raised := true } }) 0x63 p.val (le 4 a ++ le 1 2))

/-! ### Drop reports (R443) -/

/-- Drop counters of a port, codes 1 to 6, and of a receive flow, codes 7 to 12. -/
def portDrops (x : NetPort) : List Nat := [x.fcs, x.oversize, x.nonIpv4, x.malformedIp, x.offloadDrops, x.unmatched]
def flowDrops (x : Flow) : List Nat :=
  [x.policed, x.malformed, if (legPorts x.config).length = 2 then 0 else x.duplicates, x.reorderDrops, x.late, x.quotaDrops]

/-- One record for each counter that moved. -/
def dropRecords (s : State) (p kind index : Nat) (code : Nat) : List Nat → List Nat → State
  | [], _ => s
  | n :: r, old =>
    let was := old.headD 0
    let s := if n = was then s
      else raise s 0x62 p (le 1 kind ++ le 1 0 ++ le 1 index ++ le 1 code ++ le 4 (min (n - was) 0xFFFFFFFF))
    dropRecords s p kind index (code + 1) r old.tail

/-- NET_DROP: the second's report of port `p` and of the receive flows whose first port it is. -/
def execNetDrop (p : Fin 4) (s : State) : Result :=
  let x := getNet s p.val
  let s := dropRecords s p.val 0 0xFF 1 (portDrops x) x.reported
  let s := setNet s p.val { x with reported := portDrops x }
  let ks := (s.flows.filter fun f => keyDir f.1 == 0 && (legPorts f.2.config).head? == some p.val).map (·.1)
  .next (ks.foldl (fun s k =>
    let y := getFlow s k
    let s := dropRecords s p.val (keyKind k) (keyIndex k) 7 (flowDrops y) y.reported
    setFlow s k { y with reported := flowDrops y }) s)

end Sys2Proof.Machine
end

