-- ==== Sys2Proof/Machine/NetCmds.lean ====
section
/-! DEFINITION. The NET commands (R439-R442). -/

namespace Sys2Proof.Machine

/-! ### NET.PORT_CONFIG, NET.PORT_GET_CONFIG, NET.PORT_STATUS -/

/-- Number of network ports of the product (R2). -/
def portCount (s : State) : Nat := unitCount s.product 4

/-- Field checks of NET.PORT_CONFIG. -/
def portConfigNack (s : State) (c : Cmd) : Option Nack :=
  firstOf
    [need (decide (u8 c.p 0 < portCount s)) (badArg 0), need (decide (u8 c.p 1 ≤ 1)) (badArg 1), need (decide (u8 c.p 2 ≤ 1)) (badArg 2),
     need (decide (8 ≤ npPrefix c.p) && decide (npPrefix c.p ≤ 30)) (badArg 3), need (isUnicast (npAddress c.p)) (badArg 4),
     need (npGateway c.p == 0 || onSubnet c.p (npGateway c.p)) (badArg 8), need (decide (u16 c.p 12 < 32768)) (badArg 12),
     need (decide (u8 c.p 14 ≤ 1)) (badArg 14), need (zeroAt c.p 15 1) (badArg 15),
     need (decide (-100000 ≤ signed 4 (u32 c.p 16)) && decide (signed 4 (u32 c.p 16) ≤ 100000)) (badArg 16),
     need (zeroAt c.p 20 12) (badArg 20), need (u8 c.p 1 == 0 || fieldDone s 2) (badArg 1)]

/-- Whether a PTP candidate names port `p` (R394). -/
def portCandidate (s : State) (p : Nat) : Bool :=
  s.refs.engines.any fun x => [x.2.config, x.2.pending.getD []].any fun c =>
    slots.any fun k => ceKind (rcEntry c k) == 2 && bit (ceIndex (rcEntry c k)) p

/-- A flow that loses its leg on port `p`: the other leg becomes leg 0 (R440). The source port of a send flow stays. -/
def dropLeg (send : Bool) (c : Bytes) (p : Nat) : Bytes :=
  let keep := (legsOf c).filter fun l => l.2 != p
  match keep with
  | l :: _ =>
    c.take 3 ++ le 1 (2 ^ l.2) ++ sub c 4 8 ++ le 4 (fcDst c l.1) ++ le 4 0 ++ le 2 (fcUdp c l.1) ++ le 2 0 ++
      le 4 (fcSrc c (if send then 0 else l.1)) ++ le 4 0 ++ c.drop 32
  | [] => c.take 2 ++ [0] ++ c.drop 3

/-- The end of a receive flow, or of a send flow that may end: at once, but a video flow that runs ends at its next frame
boundary. The channels of an audio flow are ramped to silence (R363, R441). -/
def endFlow (s : State) (k : Nat) (c : Bytes) : State :=
  let x := getFlow s k
  if keyDir k = 0 ∧ keyKind k = 0 then
    let i := 0x80 + keyIndex k
    let rest := atRest s i
    let s := disableSource s i
    if rest then setFlow s k { x with config := c, pending := none, moving := none, held := [], frameTime := none, frameFirst := none, frameOf := none }
    else setFlow s k { x with pending := some c, moving := none }
  else
    let s := match (if keyDir k = 0 ∧ keyKind k = 1 then bindOf s 0 (keyIndex k) else none) with
      | some b => (bindChannels b).foldl rampDown s
      | none => s
    setFlow s k { x with
      config := c, pending := none, moving := none, held := []
      legs := Tab.mapAll x.legs fun _ l => { l with live := false, used := 0 } }

/-- What FORCE does to the flows of a port that is disabled (R440). -/
def leavePort (s : State) (p : Nat) : State :=
  (s.flows.map (·.1)).foldl (fun s k =>
    let x := getFlow s k
    let c := flowCommitted x
    if !fcEnable c || !bit (fcPorts c) p then s
    else if fcPorts c = 2 ^ p then endFlow s k (c.take 2 ++ [0] ++ c.drop 3)
    else
      let y := match x.moving with
        | some m => { x with moving := some { m with config := dropLeg (keyDir k == 1) m.config p } }
        | none => { x with
            config := dropLeg (keyDir k == 1) x.config p, pending := x.pending.map fun b => dropLeg (keyDir k == 1) b p }
      setFlow s k { y with legs := Tab.erase y.legs p }) s

/-- Send flows of enabled outputs that a disable of port `p` would leave without a transport: FORCE does not override
(R442). -/
def strandsOutput (s : State) (p : Nat) : Bool :=
  (txFlows s).any fun x => keyKind x.1 == 0 && fcPorts x.2 == 2 ^ p && outputOn s (0x80 + keyIndex x.1)

/-- The state after NET.PORT_CONFIG, its journal apart. -/
def portConfigTakes (s : State) (c : Cmd) : State :=
  let p := u8 c.p 0
  let x := getNet s p
  let was := ncEnable x.config
  let on := u8 c.p 1 == 1
  let t := if on then setNet s p { x with config := c.p, resetPin := false, lowPower := false }
    else setNet (leavePort s p) p { getNet (leavePort s p) p with config := c.p, resetPin := true, igmpV2 := false, reports := [], arp := [] }
  let t := settlePorts s t
  if on && !was then
    let t := needDomain t (0x48 + p)
    let t := ([0, 1, 2, 3] : List Nat).foldl (fun t i => refreshLane (refreshLane t (0x200 + 4 * p + i)) (0x300 + 4 * p + i)) t
    if x.present then moveNet t p .noSignal else t
  else if was && !on then
    let t := moveNet t p .down
    let t := ([0, 1, 2, 3] : List Nat).foldl (fun t i => refreshLane (refreshLane t (0x200 + 4 * p + i)) (0x300 + 4 * p + i)) t
    settleDomain t (0x48 + p)
  else if on then
    let t := if sub x.config 3 11 != sub c.p 3 11 then portSends t p 1 else t
    if u8 x.config 2 ≠ u8 c.p 2 ∧ x.link ≠ .down then moveNet t p .noSignal else t
  else t

/-- NET.PORT_CONFIG (R440). -/
def defNetPortConfig : CommandDef where
  opcode := 0x0B01
  flags := flagsForce
  lenOk c := c.len == 32
  check := portConfigNack
  admission s c :=
    let p := u8 c.p 0
    let off := u8 c.p 1 == 0 && ncEnable (getNet s p).config
    firstOf
      [need (!(off && (portHasFlow s p || portCandidate s p)) || (c.force && !strandsOutput s p)) (refuse stROUTED (0x48 + p)),
       if u8 c.p 1 = 1 then forcedOffNack s (0x48 + p) else none, currentNack s (portConfigTakes s c) (0x48 + p),
       need (!((getDomain s (0x48 + p)).cut && u8 c.p 1 == 1)) (refuse stBUSY_DRAIN (0x48 + p))]
  run s c :=
    let p := u8 c.p 0
    let wakes := u8 c.p 1 == 1 && !ncEnable (getNet s p).config
    if wakes then
      let t := portConfigTakes (commitLater s c 0xFFFF) c
      if (getDomain t (0x48 + p)).state = .on then { state := journalRest t t.fm.gen t.now, effect := some t.now }
      else { state := t, wait := some (.domainOn (0x48 + p)) }
    else { state := portConfigTakes (commit s c 0xFFFF) c, effect := some s.now }

def execNetPortConfig (ch : Fin 32) (s : State) : Result := .next (runCommand defNetPortConfig ch s)

/-- PORT and three reserved bytes. -/
def portNamed (s : State) (c : Cmd) : Option Nack :=
  firstOf [need (decide (u8 c.p 0 < portCount s)) (badArg 0), need (zeroAt c.p 1 3) (badArg 1)]

/-- NET.PORT_GET_CONFIG. -/
def defNetPortGetConfig : CommandDef where
  opcode := 0x0B02
  lenOk c := c.len == 4
  check := portNamed
  run s c := readDone s (le 1 (u8 c.p 0) ++ sub (getNet s (u8 c.p 0)).config 1 31)

def execNetPortGetConfig (ch : Fin 32) (s : State) : Result := .next (runCommand defNetPortGetConfig ch s)

/-- NET.PORT_STATUS (R440). -/
def defNetPortStatus : CommandDef where
  opcode := 0x0B03
  lenOk c := c.len == 4
  check := portNamed
  run s c :=
    let p := u8 c.p 0
    let x := getNet s p
    readDone s (le 1 p ++ le 1 (netNum x.link) ++
      le 1 (flag x.present + 2 * flag x.intAsserted + 4 * flag (igmpV2 x) + 8 * flag (timeSourceNum s == 1)) ++ zeros 1 ++
      le 6 (portMac s p) ++ le 2 x.linkLosses ++ zeros 4 ++ le 8 x.rx ++ le 8 x.tx ++ le 8 x.fecCorrected ++
      le 8 x.fecUncorrected ++ le 8 x.fcs ++ le 8 x.unmatched ++ le 4 x.oversize ++ le 4 x.nonIpv4 ++ le 4 x.malformedIp ++
      le 4 x.offloadDrops ++ zeros 8 ++ le 8 s.now)

def execNetPortStatus (ch : Fin 32) (s : State) : Result := .next (runCommand defNetPortStatus ch s)

/-! ### NET.RX_FLOW and NET.TX_FLOW: fields -/

/-- Flows of a kind (R415). -/
def flowCount (s : State) (kind : Nat) : Nat := unitCount s.product (if kind = 0 then 64 else if kind = 1 then 256 else 128)

/-- PORTS: one port, or pair 0/1 or 2/3. -/
def flowPortsOk (s : State) (n : Nat) : Bool :=
  n == 1 || n == 2 || n == 3 || (!isSmall s.product && (n == 4 || n == 8 || n == 12))

/-- MARGIN_CEIL (R418, R541): 25 while it is not fused; a value above the range counts as the maximum (R542). -/
def marginCeiling (s : State) : Nat :=
  let v := fuseField s 16 0x14B 1
  if v = 0 ∨ 25 < v then 25 else v

/-- Checks both commands share, in the order of the layout, up to the addresses. -/
def flowFields (s : State) (c : Bytes) (recv : Bool) : List (Option Nack) :=
  let kind := fcKind c
  let pair := (legPorts c).length == 2
  [need (decide (kind ≤ 2)) (badArg 0), need (decide (fcIndex c < flowCount s kind)) (badArg 1),
   need (decide (u8 c 2 ≤ 1)) (badArg 2), need (flowPortsOk s (fcPorts c)) (badArg 3),
   need (match kind with
     | 0 => fcSender c == 0 || fcSender c == 2 || (recv && fcSender c == 1)
     | 1 => fcSender c == 0 || (recv && fcSender c == 1)
     | _ => fcSender c == 0) (badArg 4),
   need (decide (96 ≤ fcPt c) && decide (fcPt c ≤ 127)) (badArg 5),
   need (if kind = 1 then decide (u8 c 6 ≤ 1) else u8 c 6 == 0) (badArg 6),
   need (if kind = 2 then decide (fcAssoc c < flowCount s 0) else fcAssoc c == 0) (badArg 7),
   need (isMulticast (fcDst c 0) || isUnicast (fcDst c 0)) (badArg 12),
   need (if pair then isMulticast (fcDst c 1) || isUnicast (fcDst c 1) else fcDst c 1 == 0) (badArg 16),
   need (pair || fcUdp c 1 == 0) (badArg 22)]

/-- OFFSET_US of a receive flow (R424, R427). -/
def offsetOk (c : Bytes) : Bool :=
  let v := u32 c 40
  v == 0 || (match fcKind c with
    | 0 => decide (100 ≤ v) && decide (v ≤ 100000)
    | 1 => decide (packetTime c / 1000 + 125 ≤ v) && decide (v ≤ 100000)
    | _ => false)

/-- Another enabled flow with a leg of the same filter (R441). -/
def duplicateFilter (s : State) (k : Nat) (c : Bytes) : Bool :=
  (rxFlows s).any fun x => x.1 != k && fcSsrc x.2 == fcSsrc c && (legsOf x.2).any fun a => (legsOf c).any fun b =>
    a.2 == b.2 && fcSrc x.2 a.1 == fcSrc c b.1 && fcDst x.2 a.1 == fcDst c b.1 && fcUdp x.2 a.1 == fcUdp c b.1

/-- Whether the tied video flow is enabled on the same ports (R441, R442). -/
def tiedOk (s : State) (dir : Nat) (c : Bytes) : Bool :=
  let v := flowCommitted (getFlow s (flowKey dir 0 (fcAssoc c)))
  fcEnable v && fcPorts v == fcPorts c

def rxKey (c : Bytes) : Nat := flowKey 0 (fcKind c) (fcIndex c)
def txKey (c : Bytes) : Nat := flowKey 1 (fcKind c) (fcIndex c)

/-- OBJECT of a flow (R415): a source or destination for video, none else. -/
def flowObject (c : Bytes) : Nat := if fcKind c = 0 then 0x80 + fcIndex c else 0xFFFF

/-- Step 4 of NET.RX_FLOW. -/
def rxNack (s : State) (c : Cmd) : Option Nack :=
  let b := c.p
  let legs := legsOf b
  let local_ := fun (j p : Nat) => isMulticast (fcDst b j) || fcDst b j == npAddress (getNet s p).config
  firstOf (flowFields s b true ++
    [need ((legs.length == 2) || fcSrc b 1 == 0) (badArg 28),
     firstOf (legs.map fun l => need (!(isMulticast (fcDst b l.1) && fcSrc b l.1 == 0)) (badArg (24 + 4 * l.1))),
     need (decide (u8 b 36 ≤ 25) && decide (fcMargin b ≤ marginCeiling s)) (badArg 36), need (u8 b 37 == 0) (badArg 37),
     need (decide (u16 b 38 ≤ 24576)) (badArg 38), need (offsetOk b) (badArg 40), need (zeroAt b 44 2) (badArg 44),
     need (zeroAt b 46 2) (badArg 46),
     if u8 b 2 = 0 then none
     else firstOf
       [firstOf (legs.map fun l => need (local_ l.1 l.2) (badArg (12 + 4 * l.1))), need (!duplicateFilter s (rxKey b) b) badWhole,
        need (match fcKind b with
          | 0 => (getSource s (0x80 + fcIndex b)).contract.isSome
          | 1 => (bindOf s 0 (fcIndex b)).isSome
          | _ => tiedOk s 0 b) badWhole]])

/-- Step 4 of NET.TX_FLOW. -/
def txNack (s : State) (c : Cmd) : Option Nack :=
  let b := c.p
  firstOf (flowFields s b false ++
    [need (decide (u32 b 24 < 65536)) (badArg 24), need (u32 b 28 == 0) (badArg 28), need (u32 b 32 == 0) (badArg 32),
     need (u8 b 36 == 0) (badArg 36), need (if fcKind b = 0 then decide (u8 b 37 ≤ 1) else u8 b 37 == 0) (badArg 37),
     need (u16 b 38 == 0) (badArg 38), need (u32 b 40 == 0) (badArg 40), need (decide (u8 b 45 < 64)) (badArg 45),
     need (zeroAt b 46 2) (badArg 46),
     if u8 b 2 = 0 then none
     else need (match fcKind b with
       | 0 => true
       | 1 =>
         let n := flowChannels s 1 (fcIndex b)
         decide (1 ≤ n) && decide (n ≤ (if u8 b 6 = 1 then 64 else 8))
       | _ => tiedOk s 1 b) badWhole])

/-! ### What the two commands do -/

/-- A flow that is enabled starts with no packet seen. -/
def startFlow (s : State) (k : Nat) (c : Bytes) : State :=
  let x := getFlow s k
  setFlow s k { x with
    config := c, pending := none, moving := none, newest := none, seen := [], reorderRun := 0, held := [], frameTime := none, frameFirst := none, frameOf := none
    released := none, legs := Tab.mapAll x.legs fun _ l => { l with live := false, used := 0, since := s.now } }

/-- What a change of a flow amounts to. -/
inductive FlowChange where
  | start
  | stop
  | idle
  | move
  | rule
  deriving DecidableEq, Repr

def flowChange (old new : Bytes) : FlowChange :=
  if !fcEnable old then (if fcEnable new then .start else .idle)
  else if !fcEnable new then .stop
  else if fcPorts old != fcPorts new then .move
  else .rule

/-- Whether a rule change of a receive flow takes effect at once: no frame boundary or packet is to come (R94, R136). -/
def rxAtRest (s : State) (k : Nat) : Bool :=
  let x := getFlow s k
  match keyKind k with
  | 0 => atRest s (0x80 + keyIndex k)
  | 1 => !(x.legs.any fun l => l.2.live)
  | _ => atRest s (0x80 + fcAssoc x.config)

/-- First extended timestamp of a move (R437): the first count whose instant lies 40 ms or more after admission. -/
def moveFirst (s : State) (kind : Nat) : Nat :=
  ceilDiv ((s.now + 40 * ms) * (if kind = 1 then 48000 else 90000)) 1000000000

/-- Predicted source frame number of M (R437). -/
def moveFrameNumber (s : State) (i : Nat) : Nat :=
  let f := ctFormat (contractOf s (0x80 + i))
  let n := nextFrame s (benchKey (0x80 + i) false)
  match (getFlow s (flowKey 0 0 i)).frameTime with
  | none => n
  | some t =>
    let ahead := moveFirst s 0 - t
    let per := frameTicks f * (if fmtScan f = 1 then 2 else 1)
    if per = 0 then n else n - 1 + ceilDiv ahead per

/-- A move is put on the queue. -/
def queueMove (s : State) (c : Cmd) (k first : Nat) : State :=
  let w : When := { late := false, armed := true, time := s.now }
  let s := enqueue s (changeOf s c (flowUnit k) w [flowUnit k])
  onFlow s k fun x => { x with moving := some { config := c.p, first := first, gen := s.fm.gen } }

/-- NET.RX_FLOW's effect on a state whose generation has advanced. -/
def rxTakes (s : State) (c : Cmd) : State :=
  let k := rxKey c.p
  let x := getFlow s k
  let t := match flowChange (flowCommitted x) c.p with
    | .start =>
      let t := startFlow s k c.p
      if fcKind c.p = 0 then enableSource t (0x80 + fcIndex c.p) else t
    | .idle => setFlow s k { x with config := c.p }
    | .stop => endFlow s k c.p
    | .move => queueMove s c k (moveFirst s (fcKind c.p))
    | .rule => setFlow s k (if rxAtRest s k then { x with config := c.p } else { x with pending := some c.p })
  settlePorts s t

/-- Audio source channels of a receive flow that a map entry reads (R441). -/
def flowHeard (s : State) (index : Nat) : Bool :=
  match bindOf s 0 index with
  | some b => (List.range b.count).any fun j => mapReads s (0x1000 + b.base + j)
  | none => false

/-- NET.RX_FLOW (R441). -/
def defNetRxFlow : CommandDef where
  opcode := 0x0B04
  flags := flagsForce
  lenOk c := c.len == 48
  check := rxNack
  admission s c :=
    let k := rxKey c.p
    let x := getFlow s k
    let after := rxTakes s c
    let stop := flowChange (flowCommitted x) c.p == .stop
    let read := if fcKind c.p = 0 then isRead s (0x80 + fcIndex c.p) else fcKind c.p == 1 && flowHeard s (fcIndex c.p)
    firstOf
      [need (!(stop && read) || c.force) (refuse stROUTED (flowObject c.p)),
       if fcEnable c.p then firstOf [quotaNack s after, bandwidthNack s after (flowObject c.p), currentNack s after (flowObject c.p)]
       else none,
       need (x.pending.isNone && x.moving.isNone && !(fcKind c.p == 0 && boundaryPending s (0x80 + fcIndex c.p)))
         (refuse stBUSY_DRAIN (flowObject c.p)),
       if flowChange (flowCommitted x) c.p = .move then queueNack s [flowUnit k] else none]
  run s c :=
    let k := rxKey c.p
    let o := flowObject c.p
    if flowChange (flowCommitted (getFlow s k)) c.p = .move then
      let t := rxTakes (commitLater s c o) c
      queuedDone t c { late := false, armed := true, time := s.now }
        (some (if fcKind c.p = 0 then moveFrameNumber s (fcIndex c.p) else s.now + 40 * ms))
    else
      let t := rxTakes (commitLater s c o) c
      if (getFlow t k).pending.isSome then { state := t, wait := some (.flow k) }
      else { state := journalRest t t.fm.gen s.now, effect := some s.now }

def execNetRxFlow (ch : Fin 32) (s : State) : Result := .next (runCommand defNetRxFlow ch s)

/-- Whether a change of a send flow takes effect at once: its output is OFF, so no frame is to come. -/
def txAtRest (s : State) (c : Bytes) : Bool :=
  fcKind c != 1 && (getOutput s (0x80 + (if fcKind c = 2 then fcAssoc c else fcIndex c))).state == .off

/-- NET.TX_FLOW's effect on a state whose generation has advanced. -/
def txTakes (s : State) (c : Cmd) : State :=
  let k := txKey c.p
  let x := getFlow s k
  let keep := fun (ports : List Nat) => x.legs.filter fun l => ports.contains l.1
  let t := match flowChange (flowCommitted x) c.p with
    | .start => setFlow s k { x with config := c.p, frameTime := none }
    | .idle => setFlow s k { x with config := c.p }
    | .stop => endFlow s k c.p
    | .move =>
      if txAtRest s c.p then
        setFlow s k { x with config := c.p, placement := (x.placement + 1) % 256, legs := keep (legPorts c.p) }
      else queueMove s c k (s.now + ms)
    | .rule => setFlow s k (if txAtRest s c.p then { x with config := c.p } else { x with pending := some c.p, pendingAt := s.now + ms })
  settlePorts s t

/-- Whether a channel bound to an audio send flow is served (R442). -/
def flowServed (s : State) (index : Nat) : Bool :=
  match bindOf s 1 index with
  | some b => (List.range b.count).any fun j => channelServed s (0x1000 + b.base + j)
  | none => false

/-- NET.TX_FLOW (R442). -/
def defNetTxFlow : CommandDef where
  opcode := 0x0B05
  flags := flagsForce
  lenOk c := c.len == 48
  check := txNack
  admission s c :=
    let k := txKey c.p
    let x := getFlow s k
    let after := txTakes s c
    let stop := flowChange (flowCommitted x) c.p == .stop
    firstOf
      [need (!(stop && fcKind c.p == 0 && outputOn s (0x80 + fcIndex c.p))) (refuse stROUTED (flowObject c.p)),
       need (!(stop && fcKind c.p == 1 && flowServed s (fcIndex c.p)) || c.force) (refuse stROUTED 0xFFFF),
       if fcEnable c.p then firstOf [sendNack s after, currentNack s after (flowObject c.p)] else none,
       need (x.pending.isNone && x.moving.isNone) (refuse stBUSY_DRAIN (flowObject c.p)),
       if flowChange (flowCommitted x) c.p = .move then queueNack s [flowUnit k] else none]
  run s c :=
    let k := txKey c.p
    let o := flowObject c.p
    let d := 0x80 + fcIndex c.p
    let t := txTakes (commitLater s c o) c
    if (getFlow t k).moving.isSome then
      queuedDone t c { late := false, armed := true, time := s.now } (some (if fcKind c.p = 0 then firstFrame s d (s.now + ms) else s.now + ms))
    else if (getFlow t k).pending.isSome then { state := t, wait := some (.flow k) }
    else { state := journalRest t t.fm.gen s.now, effect := some s.now }

def execNetTxFlow (ch : Fin 32) (s : State) : Result := .next (runCommand defNetTxFlow ch s)

/-! ### NET.FLOW_GET, NET.FLOW_STATUS -/

/-- KIND, DIR, INDEX and a reserved byte. -/
def flowNamed (s : State) (c : Cmd) : Option Nack :=
  firstOf [need (decide (u8 c.p 0 ≤ 2)) (badArg 0), need (decide (u8 c.p 1 ≤ 1)) (badArg 1),
           need (decide (u8 c.p 2 < flowCount s (u8 c.p 0))) (badArg 2), need (zeroAt c.p 3 1) (badArg 3)]

/-- The flow a command names. -/
def namedFlow (c : Cmd) : Nat := flowKey (u8 c.p 1) (u8 c.p 0) (u8 c.p 2)

/-- NET.FLOW_GET: as last committed. -/
def defNetFlowGet : CommandDef where
  opcode := 0x0B06
  lenOk c := c.len == 4
  check := flowNamed
  run s c := readDone s (le 1 (u8 c.p 0) ++ le 1 (u8 c.p 2) ++ sub (flowCommitted (getFlow s (namedFlow c))) 2 46)

def execNetFlowGet (ch : Fin 32) (s : State) : Result := .next (runCommand defNetFlowGet ch s)

/-- Whether a leg of a flow is live: of a send flow, whether it sends on it. -/
def legLive (s : State) (k leg : Nat) : Bool :=
  let x := getFlow s k
  match (legsOf x.config).find? fun l => l.1 == leg with
  | none => false
  | some l =>
    if keyDir k = 0 then fcEnable x.config && (Tab.get x.legs l.2 {}).live
    else sendsNow s k && (getNet s l.2).link == .up && resolved s l.2 (fcDst x.config leg)

/-- Packets of a leg. -/
def legPackets (x : Flow) (leg : Nat) : Nat :=
  match (legsOf x.config).find? fun l => l.1 == leg with
  | some l => (Tab.get x.legs l.2 {}).packets
  | none => 0

/-- NET.FLOW_STATUS (R442). -/
def defNetFlowStatus : CommandDef where
  opcode := 0x0B07
  lenOk c := c.len == 4
  check := flowNamed
  run s c :=
    let k := namedFlow c
    let x := getFlow s k
    let live := legLive s k 0 || legLive s k 1
    readDone s (sub c.p 0 3 ++ le 1 (if !fcEnable x.config then 0 else if live then 2 else 1) ++
      le 1 (flag (legLive s k 0) + 2 * flag (legLive s k 1)) ++ le 1 x.placement ++ zeros 2 ++ le 8 x.packets ++
      le 8 (legPackets x 0) ++ le 8 (legPackets x 1) ++ le 4 x.duplicates ++ le 4 x.policed ++ le 4 x.quotaDrops ++
      le 4 x.reorderDrops ++ le 4 x.late ++ le 4 x.missing ++ le 4 x.malformed ++ le 4 x.jumps ++ le 4 x.stale ++
      le 4 x.moveGaps ++ le 4 x.sendFaults ++ le 4 x.resyncs ++ le 8 x.lastTime ++ le 8 s.now)

def execNetFlowStatus (ch : Fin 32) (s : State) : Result := .next (runCommand defNetFlowStatus ch s)

/-! ### NET.MODULE_IO -/

/-- NET.MODULE_IO (R442): `acked` says that the module acknowledged its address, and `data` is what a read returned. -/
def defNetModuleIo (acked : Bool) (data : Bytes) : CommandDef where
  opcode := 0x0B08
  lenOk c := decide (8 ≤ c.len) && c.len == (if u8 c.p 1 = 1 then 8 + u8 c.p 5 else 8)
  check s c :=
    firstOf
      [need (decide (u8 c.p 0 < portCount s)) (badArg 0), need (decide (u8 c.p 1 ≤ 1)) (badArg 1),
       need (decide (u8 c.p 2 < 128)) (badArg 2),
       need (decide (1 ≤ u8 c.p 5) && decide (u8 c.p 5 ≤ 128) && decide (u8 c.p 4 + u8 c.p 5 ≤ 256)) (badArg 5),
       need (zeroAt c.p 6 2) (badArg 6)]
  admission s c := need ((getNet s (u8 c.p 0)).present && acked) (refuse stINTERNAL_FAULT (0x48 + u8 c.p 0))
  run s c := readDone s (if u8 c.p 1 = 0 then sub c.p 0 8 ++ (data ++ zeros (u8 c.p 5)).take (u8 c.p 5) else [])

def execNetModuleIo (ch : Fin 32) (acked : Bool) (data : Bytes) (s : State) : Result :=
  .next (runCommand (defNetModuleIo acked data) ch s)

end Sys2Proof.Machine
end

