-- ==== Sys2Proof/Machine/Power.lean ====
section
/-! DEFINITION. Measured current and shedding (R470-R475), the POWER commands (R484, R485), and the passage of a domain
through power-down and wake (R476-R482). -/

namespace Sys2Proof.Machine

/-! ### Rail samples (R470-R475) -/

/-- Who decides a shed: the Foreman, or the resident loader during an update (R35, R510). -/
def shedOrigin (s : State) : Nat := if s.updating then originLoader else originForeman

/-- Whether class-C shedding may take a route: it is in force, class C, and not shed already. -/
def sheddable (s : State) (d : Nat) : Bool :=
  let r := getRoute s d
  !reRemoves r.entry && r.state != .shed && reEnergy r.entry == 2 &&
    !(s.fm.shadow.any fun x => x.unit == d && (match x.body with
      | .shed => true
      | _ => false))

/-- A state with the route of `d` shed (R472). -/
def afterShed (s : State) (d : Nat) : State :=
  releaseContext (setRoute s d { getRoute s d with state := .shed }) d

/-- Order of shedding: ascending PRIORITY, then descending destination (R471). -/
def shedBefore (s : State) (a b : Nat) : Bool :=
  let p := rePriority (getRoute s a).entry
  let q := rePriority (getRoute s b).entry
  decide (p < q) || (p == q && decide (b < a))

def insertShed (s : State) (d : Nat) : List Nat → List Nat
  | [] => [d]
  | x :: l => if shedBefore s d x then d :: x :: l else x :: insertShed s d l

/-- Routes a rail may shed, in order. -/
def shedOrder (s : State) : List Nat := ((Tab.keys s.routes).filter (sheddable s)).foldr (insertShed s) []

/-- Choose routes until the typical charges they release on rail `r` reach `need` nA: each with what it releases, in nA. -/
def chooseSheds (s : State) (r need : Nat) : List Nat → List (Nat × Nat)
  | [] => []
  | d :: l =>
    if need = 0 then []
    else
      let t := afterShed s d
      let n := typical s r - typical t r
      if n = 0 then chooseSheds s r need l else (d, n) :: chooseSheds t r (need - n) l

/-- Whether any class-C route releases charge on rail `r`. -/
def canShed (s : State) (r : Nat) : Bool := !(chooseSheds s r 1 (shedOrder s)).isEmpty

/-- Mean of a list of samples. -/
def meanOf (l : List Nat) : Nat := sumOf l / l.length

/-- Ceiling of a rail in mA. -/
def ceilingMa (s : State) (r : Nat) : Nat := 100 * ceiling s r

/-- One route of a shed decision: its journal entry, LEDGER_SHED, and the descriptor for the first latch at least 1 ms away
(R471, R472). -/
def decideShed (s : State) (r part last : Nat) (d n : Nat) : State :=
  let frame := firstFrame s d (s.now + ms)
  let s := addEntry s
    { seq := 0, gen := s.fm.gen, time := s.now, opcode := 0, kind := 5, origin := shedOrigin s, channel := 0xFF, reason := r
      object := d, chSeq := 0, target := 0, effect := none, detail := nearMa n, targetKind := 0, last := part == last, part := part }
  let s := raise s 0x151 d (le 1 r ++ le 1 (rePriority (getRoute s d).entry) ++ zeros 2 ++ le 4 (nearMa n) ++ le 8 frame)
  addShadow s { gen := s.fm.gen, unit := d, body := .shed, targetKind := kindFrame, target := frame, written := true }

def decideSheds (s : State) (r part last : Nat) : List (Nat × Nat) → State
  | [] => s
  | p :: l => decideSheds (decideShed s r part last p.1 p.2) r (part + 1) last l

/-- Ten consecutive samples over the ceiling (R471, R474). -/
def railOver (s : State) (r : Nat) (samples : List Nat) : State :=
  let x := getRail s r
  let mean := meanOf samples
  let c := ceilingMa s r
  let s := if x.state = 0 then raise (setRail s r { x with state := 1 }) 0x150 r (le 1 0 ++ zeros 3 ++ le 4 mean ++ le 4 c) else s
  let x := { getRail s r with overRun := [] }
  let picks := chooseSheds s r (mA (sumOf samples) / samples.length - mA c) (shedOrder s)
  if picks.isEmpty then
    let s' := setRail s r { x with state := 3 }
    if x.state = 3 then s' else raise s' 0x152 r (le 4 mean ++ le 4 c)
  else
    let before := s
    let s := enqueue (advance (setRail s r x)) { gen := s.fm.gen + 1, origin := shedOrigin s, anchor := (picks.headD (0, 0)).1, remaining := picks.map (·.1) }
    let s := decideSheds s r 0 (picks.length - 1) picks
    setRail (recordDelta before s) r { getRail s r with state := 2, shedGen := some s.fm.gen }

/-- The over, clear and shed counts take one sample. While a decision is not yet in effect no sample counts toward another;
an exhausted rail goes back to STATE 1 when a route may be shed again. The resident loader decides during an update
(R35). -/
def countSample (s : State) (r sample : Nat) : State :=
  let x := getRail s r
  let above := decide (ceilingMa s r < sample)
  let x := if x.state = 2 ∧ railState s x = 1 then { x with state := 1, shedGen := none, overRun := [] } else x
  let x := if x.state = 3 ∧ canShed s r then { x with state := 1, overRun := [] } else x
  let x := { x with
    clearRun := if above then 0 else x.clearRun + 1
    overRun := if !above || x.state == 2 then [] else (sample :: x.overRun).take 10 }
  let s := setRail s r x
  if x.overRun.length = 10 then railOver s r x.overRun
  else if x.state ≠ 0 ∧ 100 ≤ x.clearRun then
    let mean := meanOf (x.window.take 100)
    raise (setRail s r { x with state := 0, shedGen := none, overRun := [] }) 0x150 r
      (le 1 1 ++ zeros 3 ++ le 4 mean ++ le 4 (ceilingMa s r))
  else s

/-- The drift test (R475): the mean of the last 1,000 samples against W. -/
def countDrift (s : State) (r : Nat) : State :=
  let x := getRail s r
  if x.window.length < 1000 then s
  else
    let above := decide (worst100 s r * 10 < sumOf x.window * 1000000)
    let mean := meanOf x.window
    if above then
      let s' := setRail s r { x with drift := true, belowRun := 0 }
      if x.drift then s' else raise s' 0x153 r (le 4 mean ++ le 4 (ceilDiv (worst100 s r) 100000000))
    else if x.drift then
      setRail s r (if 1000 ≤ x.belowRun + 1 then { x with drift := false, belowRun := 0 } else { x with belowRun := x.belowRun + 1 })
    else s

/-- RAIL_SAMPLE: the monitor of rail `r` reads `sample` mA (R470). -/
def execRailSample (r : Fin 10) (sample : Nat) (s : State) : Result :=
  let x := getRail s r.val
  let s := setRail s r.val { x with
    measured := sample, peakA := max x.peakA sample, peakB := max x.peakB sample, window := (sample :: x.window).take 1000 }
  .next (countDrift (countSample s r.val sample) r.val)

/-! ### POWER.STATUS and POWER.LIST (R485) -/

/-- FLAGS of POWER.STATUS. -/
def domainFlags (s : State) (d : Nat) : Nat := flag (domainNeeded s d) + 2 * flag (getDomain s d).idle

/-- STATE as reported: OFF from CUT on. -/
def domainState (s : State) (d : Nat) : Nat := if (getDomain s d).cut then 0 else domainNum (getDomain s d).state

/-- POWER.STATUS. -/
def defPowerStatus : CommandDef where
  opcode := 0x0D10
  lenOk c := c.len == 4
  check s c :=
    firstOf [need (decide (u8 c.p 0 ≤ 1) || validDomain s.product (u8 c.p 0)) (badArg 0), need (zeroAt c.p 1 3) (badArg 1)]
  run s c :=
    let d := u8 c.p 0
    let x := getDomain s d
    if d ≤ 1 then readDone s (le 1 d ++ le 1 3 ++ le 1 1 ++ le 1 1 ++ zeros 28 ++ le 8 s.readyAt ++ le 8 s.now)
    else readDone s (le 1 d ++ le 1 (domainState s d) ++ le 1 x.mode ++ le 1 (domainFlags s d) ++ le 4 x.epoch ++ le 8 x.spoil ++
      le 8 x.stale ++ le 4 x.powerUps ++ zeros 4 ++ le 8 x.since ++ le 8 s.now)

def execPowerStatus (ch : Fin 32) (s : State) : Result := .next (runCommand defPowerStatus ch s)

/-- Gateable domains the product has (R30). -/
def gateable (s : State) : List Nat := ((List.range 63).map (· + 0x10)).filter (validDomain s.product)

/-- POWER.LIST. -/
def defPowerList : CommandDef where
  opcode := 0x0D12
  lenOk c := c.len == 0
  run s _ :=
    readDone s (le 1 (gateable s).length ++ zeros 7 ++ (gateable s).flatMap fun d =>
      le 1 d ++ le 1 (domainState s d) ++ le 1 (getDomain s d).mode ++ le 1 (domainFlags s d) ++ le 4 (getDomain s d).epoch)

def execPowerList (ch : Fin 32) (s : State) : Result := .next (runCommand defPowerList ch s)

/-! ### POWER.DOMAIN (R480) -/

/-- Whether a domain carries work that FORCED_OFF must not cut (R480). -/
def carriesWork (s : State) (d : Nat) : Bool :=
  if d < 0x20 then (List.range 8).any fun i => isRead s (8 * (d - 0x10) + i) || hasRoute s (8 * (d - 0x10) + i)
  else if d < 0x40 then !(contextsOn s (d - 0x20)).isEmpty
  else if d < 0x48 then ashlarOn s (d - 0x40) && (hasRoute s (ashlarObj (d - 0x40)) || writebackRead s (d - 0x40))
  else if d < 0x4C then portHasFlow s (d - 0x48) || portCandidate s (d - 0x48)
  else if d < 0x4E then servedIn s (d - 0x4C) != 0
  else tieAllocated s

/-- An input of a group that is cut: its frame ends, its readers go to black, and it has no signal (R164, R480). -/
def cutInput (s : State) (i : Nat) : State :=
  let x := getSource s i
  if !x.enabled then s
  else
    let s := closeFrame s i false false
    let s := setSource s i { getSource s i with blackNow := isRead s i, lossHoldRunning := false }
    if (getSource s i).state = .absent then s else moveSource s i .absent

/-- A converted route whose engine is cut is HELD with cause NO_ENGINE (R213, R480). -/
def holdNoEngine (s : State) (d : Nat) : State :=
  let r := getRoute s d
  let s := releaseContext (withdrawMigration s d) d
  if reRemoves r.entry then s
  else
    let frame := (timer s d).frame
    let s := autoEntry s 3 6 d (r.cls + 256 * r.cls + 65536) (some frame)
    let s := setRoute s d { getRoute s d with reason := 6, gen := s.fm.gen, counts := countChange r.counts 6 }
    raiseHeld (classEvent s d r.cls r.cls 6 frame) d 1

/-- What FORCE does to the work of a domain before CLOSE (R480). -/
def forceOut (s : State) (d : Nat) : State :=
  if d < 0x20 then
    let g := d - 0x10
    let ds := (List.range 8).map (· + 8 * g)
    let s := (ds.filter fun n => hasRoute s n).foldl (fun s n => addShadow s
      { gen := s.fm.gen, unit := n, body := .shed, targetKind := kindFrame, target := firstFrame s n (s.now + ms), written := true }) s
    ds.foldl cutInput s
  else if d < 0x40 then ((contextsOn s (d - 0x20)).map (·.1)).foldl holdNoEngine s
  else if d < 0x48 then
    let u := ashlarObj (d - 0x40)
    let s := setSource s u { getSource s u with blackNow := true }
    if hasRoute s u then setRoute s u { getRoute s u with committed := [], entry := [], state := .none, gen := s.fm.gen } else s
  else if d < 0x4C then
    let t := leavePort s (d - 0x48)
    settlePorts s t
  else if d < 0x4E then s
  else
    let s := (sendTies s).foldl (fun s t => moveTie s 0 t 3 0) s
    let s := (recvTies s).foldl (fun s t => moveTie s 1 t 3 cLOSS_DARK) s
    moveLink (onAdit s fun a => { a with inService := 0, announced := [], slotsRx := 0 }) .down 0xFF

/-- The state a POWER.DOMAIN gives, its journal apart. -/
def domainTakes (s : State) (d action : Nat) : State :=
  let x := getDomain s d
  match action with
  | 0 => settleDomain (setDomain s d { x with mode := 0 }) d
  | 1 =>
    let s := setDomain s d { x with mode := 1, idle := false }
    if x.state != .off then s
    else if 0x20 ≤ d ∧ d < 0x40 then crusherEvent (powerUp s d) (d - 0x20) 1 0 0xFFFF
    else powerUp s d
  | _ =>
    let s := if carriesWork s d then forceOut s d else s
    closeDomain (setDomain s d { getDomain s d with mode := 2, idle := false }) d

/-- POWER.DOMAIN. -/
def defPowerDomain : CommandDef where
  opcode := 0x0D11
  flags := flagsForce
  lenOk c := c.len == 4
  check s c :=
    firstOf [need (decide (0x10 ≤ u8 c.p 0) && validDomain s.product (u8 c.p 0)) (badArg 0), need (decide (u8 c.p 1 ≤ 2)) (badArg 1),
             need (zeroAt c.p 2 2) (badArg 2)]
  admission s c :=
    let d := u8 c.p 0
    let x := getDomain s d
    let stranded := decide (0x48 ≤ d) && decide (d < 0x4C) && strandsOutput s (d - 0x48)
    firstOf
      [need (u8 c.p 1 != 2 || !carriesWork s d || (c.force && !stranded)) (refuse stROUTED d),
       if u8 c.p 1 = 2 then none else currentNack s (domainTakes s d (u8 c.p 1)) d,
       need (!(x.state == .close || x.state == .drain)) (refuse stBUSY_DRAIN d)]
  run s c :=
    let d := u8 c.p 0
    let t := domainTakes (commitLater s c d) d (u8 c.p 1)
    match u8 c.p 1, (getDomain t d).state with
    | 1, .on => { state := journalRest t t.fm.gen t.now, effect := some t.now }
    | 1, _ => { state := t, wait := some (.domainOn d) }
    | 2, .off => { state := journalRest t t.fm.gen t.now, effect := some t.now }
    | 2, _ => { state := t, wait := some (.domainOff d) }
    | _, _ => { state := journalRest t t.fm.gen t.now, effect := some t.now }

def execPowerDomain (ch : Fin 32) (s : State) : Result := .next (runCommand defPowerDomain ch s)

/-! ### CUT, DOMAIN_OFF, DOMAIN_WAKE, QUIET_CLEARED (R478-R482) -/

/-- Receive lanes of a domain. -/
def domainLanes (s : State) (d : Nat) : List Nat :=
  (Tab.keys s.lanes).filter fun id => isRxLane id && laneDomain id == d

/-- The ends of conversion and sound in an audio half that is cut: its channels have no path (R365). -/
def cutHalf (s : State) (h : Nat) : State :=
  let down := fun (c : Nat) (x : AudioDest) =>
    if halfOf c = h then { x with source := none, asrc := none, fading := false, wanted := false } else x
  { s with audio := { s.audio with dests := Tab.mapAll s.audio.dests down } }

/-- Power is removed from a domain: what its units held of their running state is gone. -/
def dropUnits (s : State) (d : Nat) : State :=
  let s := (domainLanes s d).foldl (fun s id => setLane s id (laneTo (getLane s id) .off)) s
  if d < 0x20 then s
  else if d < 0x40 then s
  else if d < 0x48 then
    let s := match (getBench s (wbKey (d - 0x40))).bind landingSlot with
      | some j => closeSlot s (wbKey (d - 0x40)) j false
      | none => s
    (Tab.keys (getAshlar s (d - 0x40)).run).foldl (fun s i => dropLayer s (d - 0x40) i) s
  else if d < 0x4C then moveNet s (d - 0x48) .down
  else if d < 0x4E then cutHalf s (d - 0x4C)
  else if s.adit.enable then moveLink (onAdit s fun a => { a with inService := 0 }) .training 0xFF else s

/-- CUT (R478): drained, or its bound passed, a domain loses power; POWER_DOMAIN shows it OFF. -/
def execCut (d : BitVec 8) (s : State) : Result :=
  let x := getDomain s d.toNat
  if x.state != .drain || x.cut then .next s
  else
    let s := dropUnits s d.toNat
    let s := setDomain s d.toNat { getDomain s d.toNat with cut := true, since := s.now, idle := false }
    .next (settleStandby (raise s 0x154 d.toNat (le 1 5 ++ le 1 0 ++ zeros 2 ++ le 4 x.epoch ++ le 8 x.spoil)))

/-- DOMAIN_OFF (R478): 100 µs after CUT the command that waited completes; a domain needed by now is powered again
(R479). -/
def execDomainOff (d : BitVec 8) (s : State) : Result :=
  let n := d.toNat
  let x := getDomain s n
  if !x.cut then .next s
  else
    let s := setDomain s n { x with state := .off, cut := false }
    let s := if 0x20 ≤ n ∧ n < 0x40 then crusherEvent s (n - 0x20) 2 0 0xFFFF else s
    let s := wake s (.domainOff n) (some s.now)
    .next (if x.mode = 1 ∨ (x.mode = 0 ∧ domainNeeded s n) then powerUp s n else s)

/-- Units of a domain come up from their committed configuration, QUIET, never from before the cut (R301, R312, R482). -/
def wakeUnits (s : State) (d : Nat) : State :=
  let s := (domainLanes s d).foldl refreshLane s
  if d < 0x20 then
    ((List.range 8).map (· + 8 * (d - 0x10))).foldl (fun s n =>
      let o := getOutput s n
      if o.state = .off then s
      else
        let idle : Sending := if ocLaneOff o.config then .nothing else .black
        moveOutput (setOutput s n { o with quiet := true, next := idle, nextSource := 0xFFFF, nextSourceFrame := none }) n .idle) s
  else if d < 0x40 then s
  else if d < 0x48 then
    let a := getAshlar s (d - 0x40)
    if ashlarCharged s (d - 0x40) then setAshlar s (d - 0x40) { a with quiet := true, run := [] } else s
  else if d < 0x4C then
    let n := getNet s (d - 0x48)
    if ncEnable n.config && n.present then moveNet s (d - 0x48) .noSignal else s
  else if d < 0x4E then s
  else if s.adit.enable ∧ s.adit.link = .down then moveLink s .training 0xFF
  else s

/-- DOMAIN_WAKE (R481): a WAKING domain has its new epoch and enters QUIET. -/
def execDomainWake (d : BitVec 8) (s : State) : Result :=
  if (getDomain s d.toNat).state != .waking then .next s
  else .next (wakeUnits (moveDomain s d.toNat .quiet) d.toNat)

/-- The committed map entries of an audio half come back as one change (R365). -/
def wakeHalf (s : State) (h : Nat) : State :=
  let cs := (Tab.keys s.audio.dests).filter fun c => halfOf c == h
  let s := cs.foldl (fun s c => setAdest s c { getAdest s c with entry := (getAdest s c).committed, source := none }) s
  let s := cs.foldl refreshDest s
  cs.foldl (fun s c => if (getAdest s c).source.isSome then setAdest s c { getAdest s c with fading := true } else s) s

/-- QUIET_CLEARED (R482): the committed configuration is in force again and the domain is ON; what waited for it
completes. -/
def execQuietCleared (d : BitVec 8) (s : State) : Result :=
  let n := d.toNat
  if (getDomain s n).state != .quiet then .next s
  else
    let s := moveDomain s n .on
    let s := if n = 0x4C ∨ n = 0x4D then wakeHalf s (n - 0x4C) else s
    let u := ashlarObj (n - 0x40)
    let s := if 0x40 ≤ n ∧ n < 0x48 then setSource s u { getSource s u with blackNow := false } else s
    let s := wake s (.domainOn n) (some s.now)
    .next (if spareCount s ≤ sparesReady s then wake s .spares (some s.now) else s)

end Sys2Proof.Machine
end

