-- ==== Sys2Proof/Machine/Registers.lean ====
section
/-! DEFINITION. What the BAR0 registers read (R42-R58, R493). A read of a low half also captures (CAPTURE_READ, R45); no
other read changes anything. -/

namespace Sys2Proof.Machine

/-! ### Identity (R44) -/

/-- PRODUCT, GRADE and STEPPING. -/
def productWord (s : State) : Nat :=
  (if isSmall s.product then 0x1264 else 0x1288) + 65536 * flag (s.product == .eb) + 16777216 * 0xB0

/-- FW_BUILD, FW_MINOR and FW_MAJOR: the version of the running package, whose layout is the register's (R523). -/
def firmwareWord (s : State) : Nat := u32 s.fw.header 16

/-- SDI_INPUTS, SDI_OUTPUTS, CRUSHERS, ASHLARS. -/
def countsWord0 (s : State) : Nat :=
  sdiCount s.product + 256 * sdiCount s.product + 65536 * unitCount s.product 32 + 16777216 * unitCount s.product 8

/-- NET_PORTS, TX_GROUPS, IP_RX_FLOWS, IP_TX_FLOWS. -/
def countsWord1 (s : State) : Nat :=
  unitCount s.product 4 + 256 * unitCount s.product 16 + 65536 * unitCount s.product 64 + 16777216 * unitCount s.product 64

/-- SERIAL, field 0x008 of the fuse map (R541). -/
def serialNumber (s : State) : Nat := u64 (Memory.readBytes s.fw.fuseMap 0x008 8) 0

/-- READY, UPDATING, PWR_WARN, BOOT_WAIT. -/
def readyWord (s : State) : Nat := flag s.ready + 2 * flag s.updating + 4 * flag s.pwrWarn + 8 * flag s.bootWait

/-- Low and high words of a 64-bit value. -/
def lowWord (n : Nat) : Nat := n % 4294967296
def highWord (n : Nat) : Nat := n / 4294967296 % 4294967296

/-! ### The other regions -/

def ownerNum : Option Port → Nat
  | none => 0
  | some p => p.num + 1

def chanNum : ChanState → Nat
  | .idle => 0
  | .posted => 1
  | .running => 2
  | .done => 3

/-- Identity and port status (R44, R46). -/
def readStatus (s : State) (p : Port) (off : Nat) : Nat :=
  let x := getPort s p
  let peer := getPort s p.peer
  match off with
  | 0x0000 => productWord s
  | 0x0004 => firmwareWord s
  | 0x0008 => countsWord0 s
  | 0x000C => countsWord1 s
  | 0x0010 => lowWord (serialNumber s)
  | 0x0014 => highWord (serialNumber s)
  | 0x0018 => readyWord s
  | 0x0020 => lowWord s.fm.gen
  | 0x0024 => highWord x.genCapture
  | 0x0028 => lowWord s.fm.jseq
  | 0x002C => highWord x.jseqCapture
  | 0x0100 => p.num + 2 * flag peer.present + 4 * flag (peer.link == .l0 || peer.link == .l1)
  | 0x0104 => x.epoch
  | 0x0108 => peer.epoch
  | 0x010C => x.stale
  | 0x0110 => x.speed + 16 * x.width
  | _ => 0

/-- A semaphore cell (R47). -/
def readSem (s : State) (off : Nat) : Nat :=
  let c := getSem s (off / 8)
  if off % 8 = 4 then c.tag.toNat + 65536 * c.acqCount + 1073741824 * ownerNum c.owner else 0

/-- A channel's control block (R52). -/
def readChan (s : State) (off : Nat) : Nat :=
  let i := off / 64
  let c := getChan s i
  match off % 64 with
  | 0x00 => chanNum c.state + 16 * ownerNum (getSem s i).owner + 64 * c.lastReject + 256 * c.rangBy.num
  | 0x04 => flag c.cplIrq + 256 * c.cplVector
  | 0x08 => c.rejects
  | 0x0C => c.lastSeq
  | _ => 0

/-- The event ring (R55). -/
def readRing (s : State) (p : Port) (off : Nat) : Nat :=
  let r := (getPort s p).ring
  match off with
  | 0x00 => r.baseLo.toNat
  | 0x04 => r.baseHi.toNat
  | 0x08 => flag r.enable + 256 * r.vector + 65536 * r.moderation
  | 0x0C => r.producer.toNat
  | 0x10 => r.consumer.toNat
  | 0x14 => flag (ringFull r) + 2 * flag r.consumerErr
  | _ => 0

/-- A DMA engine (R58). -/
def readDma (s : State) (p : Port) (off : Nat) : Nat :=
  let x := getEngine s p (off / 64)
  match off % 64 with
  | 0x00 => x.baseLo.toNat
  | 0x04 => x.baseHi.toNat
  | 0x08 => x.log2Size
  | 0x0C => flag x.enable + 256 * x.vector
  | 0x10 => x.tail.toNat
  | 0x14 => x.head.toNat
  | 0x18 => flag x.job.isSome + 2 * flag x.halted + 65536 * x.lastError
  | 0x20 => lowWord x.done
  | 0x24 => highWord (Tab.get (getPort s p).doneCapture (off / 64) 0)
  | _ => 0

/-- A window's control entry (R493). -/
def readWindow (s : State) (p : Port) (off : Nat) : Nat :=
  let w := getWindow s p (off / 32)
  match off % 32 with
  | 0x00 => w.ctl.toNat
  | 0x04 => w.offset.toNat
  | 0x08 => w.pages.toNat
  | 0x10 => flag w.inForce.enable + 2 * flag w.snapshot.isSome + 4 * flag w.orphaned + 8 * flag w.applyIgnored + 65536 * w.result
  | 0x14 => lowWord w.applyCount
  | 0x18 => w.readsVoid
  | 0x1C => w.writesVoid
  | _ => 0

/-- The MSI-X table and its pending bits (R57). -/
def readMsix (s : State) (p : Port) (off : Nat) : Nat :=
  let e := getMsix s p (off / 16)
  match off % 16 with
  | 0 => e.addrLo.toNat
  | 4 => e.addrHi.toNat
  | 8 => e.data.toNat
  | _ => flag e.masked

/-- `n` bytes of the mailbox buffers from offset `x` of their region (R42, R51). -/
def readBuffers (s : State) (x : Nat) : Nat → Bytes
  | 0 => []
  | n + 1 => Memory.read (getChan s (x / 4096)).buffer (x % 4096) :: readBuffers s (x + 1) n

/-- What an aligned 32-bit read of BAR0 returns (R33, R42, R43): 0 at a reserved offset. -/
def readBar0 (s : State) (p : Port) (off : Nat) : BitVec 32 :=
  let v :=
    if 0x20000 ≤ off ∧ off < 0x40000 then u32 (readBuffers s (off - 0x20000) 4) 0
    else if off % 4 ≠ 0 then 0
    else if off < 0x200 then readStatus s p off
    else if 0x1000 ≤ off ∧ off < 0x1200 then readSem s (off - 0x1000)
    else if 0x2000 ≤ off ∧ off < 0x2800 then readChan s (off - 0x2000)
    else if 0x4000 ≤ off ∧ off < 0x4020 then readRing s p (off - 0x4000)
    else if 0x5000 ≤ off ∧ off < 0x5200 then readDma s p (off - 0x5000)
    else if 0x6000 ≤ off ∧ off < 0x6200 then readWindow s p (off - 0x6000)
    else if 0x8000 ≤ off ∧ off < 0x8200 then readMsix s p (off - 0x8000)
    else if off = 0x9000 then (List.range 32).foldl (fun n v => n + flag (getMsix s p v).pending * 2 ^ v) 0
    else 0
  BitVec.ofNat 32 v

/-- What a read of `n` bytes at a BAR0 offset returns, `whole` saying that all byte enables are set (R43): the mailbox
buffers answer any size and alignment, everything else an aligned 32-bit word alone. -/
def readBar0Bytes (s : State) (p : Port) (off n : Nat) (whole : Bool) : Bytes :=
  if 0x20000 ≤ off ∧ off + n ≤ 0x40000 then readBuffers s (off - 0x20000) n
  else if n = 4 ∧ off % 4 = 0 ∧ whole then le 4 (readBar0 s p off).toNat
  else zeros n

end Sys2Proof.Machine
end

