-- ==== Sys2Proof/Machine/Sys.lean ====
section
/-! DEFINITION. The SYS and CHANNEL commands (R97-R101), and the withdrawal of a queued change. -/

namespace Sys2Proof.Machine

/-! ### SYS (R97, R98) -/

/-- SYS.IDENTIFY: the part, stepping B0 and firmware release 3.1 among the rest (R5). -/
def defSysIdentify : CommandDef where
  opcode := 0x0101
  exempt := true
  fuseMode := true
  lenOk c := c.len == 0
  run s _ :=
    readDone s (le 4 (productWord s) ++ le 4 (firmwareWord s) ++ le 8 (serialNumber s) ++ le 4 (countsWord0 s) ++ le 4 (countsWord1 s) ++
      ([0, 1, 2, 3] : List Nat).flatMap (fun k => le 4 (s.fw.versions.getD k 0)) ++ le 2 0x0300 ++ le 2 3968 ++ zeros 4)

def execSysIdentify (ch : Fin 32) (s : State) : Result := .next (runCommand defSysIdentify ch s)

/-- Routes in force. -/
def routesInForce (s : State) : Nat := (s.routes.filter fun p => !reRemoves p.2.entry).length

/-- UPDATE of SYS.STATUS. -/
def updateNum (s : State) : Nat :=
  if s.updating then 1
  else match s.fw.state with
    | .awaitConfirm => 2
    | _ => 0

def defSysStatus : CommandDef where
  opcode := 0x0102
  exempt := true
  lenOk c := c.len == 0
  run s _ :=
    readDone s (le 8 s.fm.gen ++ le 8 (journalNewest s) ++ le 8 s.now ++ le 1 (timeSourceNum s) ++
      le 1 (flag s.pwrWarn + 2 * flag s.fm.lowBattery) ++ le 1 (updateNum s) ++ zeros 1 ++ le 2 (routesInForce s) ++
      le 2 (liveSalvos s).length ++ le 4 s.fm.changes.length ++ le 4 (s.uptime / 1000000000) ++ zeros 24)

def execSysStatus (ch : Fin 32) (s : State) : Result := .next (runCommand defSysStatus ch s)

def defSysNop : CommandDef where
  opcode := 0x0104
  exempt := true
  lenOk _ := true
  run s c := readDone s c.p

def execSysNop (ch : Fin 32) (s : State) : Result := .next (runCommand defSysNop ch s)

def defSysSupply : CommandDef where
  opcode := 0x0105
  flags := flagsChange
  lenOk c := c.len == 4
  check _ c := firstOf [need (decide (u8 c.p 0 ≤ 1)) (badArg 0), need (zeroAt c.p 1 3) (badArg 1)]
  run s c :=
    let t := onFm (commit s c 0xFFFF) fun f => { f with lowBattery := u8 c.p 0 == 1 }
    { state := raise t 0x106 0 (le 1 (u8 c.p 0) ++ le 1 c.port.num), effect := some s.now }

def execSysSupply (ch : Fin 32) (s : State) : Result := .next (runCommand defSysSupply ch s)

/-! ### CHANNEL.PENDING (R99) -/

def pendingChange (x : Change) : Bytes :=
  le 8 x.gen ++ le 8 x.target ++ le 2 x.opcode ++ le 1 x.channel ++ le 1 x.origin ++ le 1 x.targetKind ++ zeros 3 ++ le 4 x.seq ++ zeros 4

def defChannelPending : CommandDef where
  opcode := 0x0201
  lenOk c := c.len == 8
  check s c := firstOf [need (decide (u32 c.p 0 ≤ s.fm.changes.length)) (badArg 0), need (zeroAt c.p 4 4) (badArg 4)]
  run s c :=
    let es := (s.fm.changes.drop (u32 c.p 0)).take 123
    readDone s (le 4 s.fm.changes.length ++ le 4 es.length ++ es.flatMap pendingChange)

def execChannelPending (ch : Fin 32) (s : State) : Result := .next (runCommand defChannelPending ch s)

/-! ### Withdrawal (R101) -/

/-- The newest change of one kind still queued on a unit: what `f` takes from the bodies of its shadow entries. -/
def newestBody {α : Type} (s : State) (u : Nat) (f : ShadowBody → Option α) : Option α :=
  ((s.fm.shadow.filter fun x => x.unit == u).filterMap fun x => f x.body).getLast?

/-- A withdrawn route entry: the committed route is the newest one left, and what its admission reserved goes back. -/
def restoreRoute (s : State) (d : Nat) (e : Bytes) : State :=
  let r := getRoute s d
  let left := newestBody s d fun b => match b with
    | .route e c => some (e, c)
    | _ => none
  let coming := match left with
    | some p => some p
    | none => (r.next.getLast?).map fun (n : NextRoute) => (n.entry, n.cls)
  let back := match coming with
    | some p => if reRemoves p.1 then [] else p.1
    | none => if reRemoves r.entry then [] else r.entry
  let queued := (s.fm.shadow.filter fun x => x.unit == d && (match x.body with
    | .route _ _ => true
    | _ => false)).map (·.gen)
  let s := setRoute s d { r with committed := back, gen := maxOf (r.effectGen :: (queued ++ r.next.map (·.gen))) }
  let conv := match coming with
    | some p => if p.2 = 3 then some p.1 else none
    | none => none
  let s := match getContext s d with
    | none => s
    | some x =>
      if r.cls = 3 ∧ !reRemoves r.entry then setContext s d { x with pendingEntries := queuedEntries s d }
      else
        match conv with
        | some e => setContext s d { x with entry := e, source := reSource e, pendingEntries := queuedEntries s d }
        | none => releaseContext s d
  let s := if reRemoves e then s else dropPattern s (reSource e)
  if isSdi d then settleDomain s (0x10 + d / 8) else s

/-- A withdrawn output configuration. -/
def restoreOutput (s : State) (d : Nat) : State :=
  let o := getOutput s d
  let c := (newestBody s d fun b => match b with
    | .output c => some c
    | _ => none).getD o.config
  let s := setOutput s d { o with committed := c }
  let s := (newLayouts s d (ocFormat c)).foldl (fun s p => returnBlocks s p.1) s
  let s := match ashlarDriving s d with
    | some k => dropUnused s (ashlarObj k)
    | none => s
  settleDomains s ((if isSdi d then [0x10 + d / 8] else []) ++ [0x4C, 0x4D])

/-- A withdrawn Ashlar configuration: the blocks granted to its writeback bench go back, and patterns it alone was to read. -/
def restoreAshlar (s : State) (k : Nat) : State :=
  let a := getAshlar s k
  let c := (newestBody s (ashlarObj k) fun b => match b with
    | .ashlar c => some c
    | _ => none).getD a.config
  let s := setAshlar s k { a with committed := c }
  let s := returnBlocks s (wbKey k)
  let s := if acEnable c then grantWriteback s k c else (a.pendingLayers.map fun p => leSource p.2).foldl dropPattern s
  settleDomain s (0x40 + k)

/-- A withdrawn layer change: the committed table is the one in force with the changes still queued. -/
def restoreLayers (s : State) (k : Nat) (es : List (Nat × Bytes)) : State :=
  let a := getAshlar s k
  let t := ((layerTables s k).getLast?).getD []
  es.foldl (fun s p => dropPattern s (leSource p.2)) (setAshlar s k { a with pendingLayers := t })

/-- Withdrawn map entries: each channel's committed entry is the newest one left. -/
def restoreMap (s : State) (es : List (Nat × Bytes)) : State :=
  let later := s.fm.shadow.flatMap fun x => match x.body with
    | .audioMap l => l
    | _ => []
  let s := es.foldl (fun s p =>
    let x := getAdest s p.1
    setAdest s p.1 { x with committed := (((later.filter fun q => q.1 == p.1).getLast?).map (·.2)).getD x.entry }) s
  settleDomains s [0x4C, 0x4D]

/-- A withdrawn embed mode. -/
def restoreEmbed (s : State) (d : Nat) : State :=
  let m := (newestBody s d fun b => match b with
    | .embed mode n => some (if mode = 0 then 0 else n)
    | _ => none).getD (embedInForce s d)
  settleDomains { s with audio := { s.audio with embed := Tab.set s.audio.embed d m } } [0x4C, 0x4D]

/-- Undo one shadow entry that has gone. -/
def restoreBody (s : State) (x : Shadow) : State :=
  match x.body with
  | .route e _ => restoreRoute s x.unit e
  | .output _ => restoreOutput s x.unit
  | .classChange cls _ => if cls = 3 ∧ (getRoute s x.unit).cls ≠ 3 then releaseContext s x.unit else s
  | .shed => s
  | .hold _ => s
  | .layers k es => restoreLayers s k es
  | .audioMap es => restoreMap s es
  | .embed _ _ => restoreEmbed s x.unit
  | .ashlar _ => restoreAshlar s (x.unit - 0xC0)

/-- Whether a queued change has begun to take effect: on some unit, or taken by a latch cycle for its switch instant. -/
def hasBegun (s : State) (c : Change) : Bool :=
  c.begun || (s.fm.shadow.any fun x => x.gen == c.gen && x.taken) || s.routes.any fun p => p.2.next.any fun n => n.gen == c.gen

/-- A withdrawn salvo is WITHDRAWN, its entries with it (R231), and it counts among those that ended (R220). -/
def withdrawSalvo (s : State) (i : Nat) : State :=
  let v := getSalvo s i
  retireSalvos (setSalvo s i { v with state := .withdrawn, entries := v.entries.map fun e => { e with result := 4 } })

/-- Withdraw a queued change whole: its shadow entries go, every unit goes back to what is still committed, and a command
that awaits it completes CANCELLED. -/
def withdraw (s : State) (c : Change) : State :=
  let mine := s.fm.shadow.filter fun x => x.gen == c.gen
  let s := onFm s fun f => { f with
    shadow := f.shadow.filter (fun x => x.gen != c.gen), changes := f.changes.filter (fun x => x.gen != c.gen)
    withdrawn := c.gen :: f.withdrawn }
  let s := mine.foldl restoreBody s
  let s := (s.flows.filter fun p => (p.2.moving.map (·.gen)) == some c.gen).foldl (fun s p =>
    settlePorts s (setFlow s p.1 { getFlow s p.1 with moving := none })) s
  let s := (s.contexts.filter fun p => (p.2.migration.map (·.gen)) == some c.gen).foldl (fun s p => withdrawMigration s p.1) s
  let s := match c.salvo with
    | some i => withdrawSalvo s i
    | none => s
  journalWithdrawn (wakeWith s (.change c.gen) stCANCELLED) c.gen

/-- CHANNEL.CANCEL (R100, R101). -/
def defChannelCancel : CommandDef where
  opcode := 0x0202
  flags := flagsChange
  lenOk c := c.len == 8
  check s c :=
    let g := u64 c.p 0
    need ((findChange s g).isSome || s.fm.withdrawn.contains g || s.fm.done.contains g) (badArg 0)
  run s c :=
    let g := u64 c.p 0
    match findChange s g with
    | some x =>
      if hasBegun s x then { state := s, status := stLATE }
      else
        let t := commit (withdraw s x) c 0xFFFF
        { state := raise t 0x105 (changeInstance x) (le 8 g ++ le 8 t.fm.gen) x.seq, effect := some s.now }
    | none => { state := s, status := if s.fm.done.contains g then stLATE else stOK }

def execChannelCancel (ch : Fin 32) (s : State) : Result := .next (runCommand defChannelCancel ch s)

end Sys2Proof.Machine
end

