-- ==== Sys2Proof/Machine/Packages.lean ====
section
/-! DEFINITION. Gnolenan packages (R523-R525): the fields of a header, the checks that accept a package, and whether an
activation is hitless. -/

namespace Sys2Proof.Machine

/-! ### Fields (R523) -/

def pkLength (p : Bytes) : Nat := u32 p 8
def pkSecurity (p : Bytes) : Nat := u32 p 12
def pkVersion (p : Bytes) : Nat := u32 p 16
def pkProducts (p : Bytes) : Nat := u16 p 20
def pkStepping (p : Bytes) : Nat := u8 p 22
def pkSettings (p : Bytes) : Nat := u16 p 24
def pkState (p : Bytes) : Nat := u16 p 26
def pkAdoptMin (p : Bytes) : Nat := u16 p 28
def pkAdoptMax (p : Bytes) : Nat := u16 p 30
def pkKey (p : Bytes) : Bytes := sub p 32 32

/-- Offset of component entry `i`. -/
def entryAt (i : Nat) : Nat := 64 + 48 * i

/-- The kinds of component: reference servo, lane sequencer, network offload, Foreman. -/
def kinds : List Nat := [1, 2, 3, 4]

/-- The entry of a kind of component. -/
def entryOf (p : Bytes) (kind : Nat) : Option Nat := (List.range 4).find? fun i => u8 p (entryAt i) == kind

/-- VERSION of a kind of component. -/
def kindVersion (p : Bytes) (kind : Nat) : Nat := ((entryOf p kind).map fun i => u32 p (entryAt i + 4)).getD 0

def packageVersions (p : Bytes) : List Nat := kinds.map (kindVersion p)

/-- Offset and end of the bytes of entry `i`. -/
def compStart (p : Bytes) (i : Nat) : Nat := u32 p (entryAt i + 8)
def compEnd (p : Bytes) (i : Nat) : Nat := compStart p i + u32 p (entryAt i + 12)

/-! ### The checks (R524) -/

/-- Components `i` and `j` share no byte. -/
def compApart (p : Bytes) (i j : Nat) : Bool :=
  decide (compEnd p i ≤ compStart p j) || decide (compEnd p j ≤ compStart p i)

/-- Components within the package, between header and signature, none overlapping another. -/
def tableOk (p : Bytes) : Bool :=
  kinds.all (fun k => (entryOf p k).isSome) &&
  (List.range 4).all fun i =>
    compStart p i % 256 == 0 && decide (256 ≤ compStart p i) && decide (compEnd p i + 64 ≤ pkLength p) &&
    (List.range i).all fun j => compApart p i j

/-- MAGIC, HEADER_VERSION, COMPONENTS, PACKAGE_LENGTH and reserved bytes, then the component table. -/
def packageFormOk (p : Bytes) : Bool :=
  u32 p 0 == 0x4C4F4E47 && u16 p 4 == 1 && u16 p 6 == 4 && pkLength p == p.length && pkLength p % 4 == 0 &&
  decide (320 ≤ pkLength p) && decide (pkLength p ≤ 33554432) && zeroAt p 23 1 &&
  (List.range 4).all (fun i => zeroAt p (entryAt i + 1) 3) && tableOk p

/-- PRODUCTS and MIN_STEPPING. -/
def productOk (s : State) (p : Bytes) : Bool := bit (pkProducts p) (flag (isSmall s.product)) && decide (pkStepping p ≤ 0xB0)

/-- The key hash a package's KEY must have: KEY_HASH, or the release key of the boot ROM while it is not programmed
(R541). -/
def keyHash (s : State) : Bytes :=
  if fieldDone s 13 then Memory.readBytes s.fw.fuseMap 0x120 32 else (List.range 32).map Config.releaseKeyHash

/-- Bits burned of ANTI_ROLLBACK: the floor (R534), which the Foreman raises while it runs. -/
def securityFloor (s : State) : Nat := ((List.range 64).filter fun i => bit (burnedByte s (0x140 + i / 8)) (i % 8)).length

/-- In a set of components, where `pk k` is the package the component of kind `k` comes from, every VERSION lies within
every other component's REQUIRES range for its kind. -/
def consistent (pk : Nat → Bytes) : Bool :=
  kinds.all fun a => kinds.all fun b =>
    a == b ||
      (match entryOf (pk a) a with
        | none => false
        | some i =>
          let at_ := entryAt i + 16 + 8 * (b - 1)
          decide (u32 (pk a) at_ ≤ kindVersion (pk b) b) && decide (kindVersion (pk b) b ≤ u32 (pk a) (at_ + 4)))

/-- The signature, over all but the last 64 bytes (R523). -/
def signatureOk (p : Bytes) : Bool := Config.signatureVerifies (pkKey p) (p.take (p.length - 64)) (p.drop (p.length - 64))

/-- Result code of the checks of R524 but the signature and the bound of 64 on SECURITY_VERSION: 1 where they hold. -/
def headerResult (s : State) (p : Bytes) : Nat :=
  if !packageFormOk p then 13
  else if !productOk s p then 4
  else if sha256 (pkKey p) != keyHash s then 3
  else if pkSecurity p < securityFloor s then 5
  else if !consistent (fun _ => p) then 6
  else 1

/-- What of R524 does not rest on keys: the form, the product, SECURITY_VERSION and the components. -/
def packagePlain (s : State) (p : Bytes) : Bool :=
  packageFormOk p && productOk s p && decide (securityFloor s ≤ pkSecurity p) && decide (pkSecurity p ≤ 64) &&
  consistent fun _ => p

/-- Whether all of R524 holds. -/
def packageOk (s : State) (p : Bytes) : Bool := headerResult s p == 1 && decide (pkSecurity p ≤ 64) && signatureOk p

/-! ### Slots -/

def getFwSlot (s : State) (k : Nat) : FwSlot := if k = 0 then s.flash.slot0 else s.flash.slot1

def setFwSlot (s : State) (k : Nat) (v : FwSlot) : State :=
  onFlash s fun f => if k = 0 then { f with slot0 := v } else { f with slot1 := v }

/-- Whether a slot may run: its package is valid and the slot is not retired (R522). -/
def slotRuns (s : State) (k : Nat) : Bool := (getFwSlot s k).valid && !(getFwSlot s k).retired

/-- The slot installs and activations name: the one that is not running; of a boot from a port, the one that is not
confirmed (log entry 47). -/
def otherSlot (s : State) : Nat :=
  match s.fw.running with
  | some k => 1 - k
  | none => 1 - s.flash.confirmed.getD 1

/-! ### The flash and its boot record (R520, R521) -/

/-- The regions of the flash. -/
inductive FlashRegion where
  | bootRecord
  | loader
  | slot (k : Fin 2)
  | settings (k : Fin 2)
  deriving DecidableEq, Repr

/-- First offset and size of a region. -/
def flashPlace : FlashRegion → Nat × Nat
  | .bootRecord => (0, 0x20000)
  | .loader => (0x20000, 0x100000)
  | .slot k => (0x200000 + 0x2000000 * k.val, 0x2000000)
  | .settings k => (0x4200000 + 0x1000000 * k.val, 0x1000000)

/-- The region an offset of the flash lies in; the rest is reserved. -/
def flashRegionOf (a : Nat) : Option FlashRegion :=
  ([.bootRecord, .loader, .slot 0, .slot 1, .settings 0, .settings 1] : List FlashRegion).find? fun r =>
    decide ((flashPlace r).1 ≤ a) && decide (a < (flashPlace r).1 + (flashPlace r).2)

/-- The entry of the boot record in force. -/
def bootRecord (f : Flash) : Bytes :=
  let b := le 4 0xB0C5 ++ le 4 f.record ++ recordBody f ++ zeros 174
  b ++ le 4 (crc32 b).toNat

/-- Where entry `n` of the boot record lies: 256 entries fill one block, and the next goes to the other (R521). -/
def recordOffset (n : Nat) : Nat := 256 * (n % 512)

/-! ### Hitless activation (R525) -/

/-- Whether the package `new` may be activated hitlessly over the one that runs. -/
def hitlessOk (s : State) (new : Bytes) : Bool :=
  let old := s.fw.header
  decide (pkAdoptMin new ≤ pkState old) && decide (pkState old ≤ pkAdoptMax new) &&
  ([1, 2, 3] : List Nat).all fun n => consistent fun k => if k ≤ n then new else old

end Sys2Proof.Machine
end

