-- ==== Sys2Proof/Machine/Settings.lean ====
section
/-! DEFINITION. Persistent settings (R518, R535-R537): what a snapshot takes of the committed configuration, how start-up
applies it, and where a snapshot is written. -/

namespace Sys2Proof.Machine

/-! ### Taking a snapshot (R535) -/

/-- An item that a command sets. -/
def item (opcode : Nat) (payload : Bytes) : SavedItem := .command opcode payload

/-- Items of the units of a table for which `f` has one. -/
def itemsOf {α : Type} (t : Tab α) (f : Nat → α → List SavedItem) : List SavedItem := t.flatMap fun p => f p.1 p.2

/-- An item whose payload is a configuration the unit keeps, if it has ever been set. -/
def kept (opcode : Nat) (config : Bytes) : List SavedItem := if config.isEmpty then [] else [item opcode config]

/-- 1, 2: soft ceilings and domain modes. -/
def powerItems (s : State) : List SavedItem :=
  itemsOf s.rails (fun r x => if x.soft = 0 then [] else [.soft r x.soft]) ++
  itemsOf s.domains fun d x => if x.mode = 0 then [] else [item 0x0D11 (le 1 d ++ le 1 x.mode ++ zeros 2)]

/-- 3: reference inputs, engines, time source and clock outputs. -/
def timingItems (s : State) : List SavedItem :=
  itemsOf s.refs.inputs (fun _ x => kept 0x0A04 x.config) ++
  itemsOf s.refs.engines (fun _ x => kept 0x0A01 (x.pending.getD x.config)) ++
  (match s.refs.pendingSource.getD s.refs.timeSource with
    | some e => [item 0x0A06 (le 1 e ++ zeros 3)]
    | none => []) ++
  itemsOf s.refs.clkouts fun k x =>
    if x.freq = 0 then [] else [item 0x0A07 (le 1 k ++ le 1 (flag x.enable) ++ le 1 x.engine ++ le 1 x.freq)]

/-- 4: lanes and group families. -/
def laneItems (s : State) : List SavedItem :=
  itemsOf s.lanes (fun id l =>
    if isRxLane id then
      [item 0x1002 (le 2 id ++ le 1 l.cfgRate ++ le 1 l.cfgMode ++ le 1 l.cfgCode ++ le 1 (flag l.invert) ++ le 1 l.sigTol ++ zeros 9)]
    else
      match l.swing, l.deemph with
      | some w, some e => [item 0x1003 (le 2 id ++ le 1 w ++ le 1 e ++ le 1 (flag l.invert) ++ zeros 3)]
      | _, _ => []) ++
  itemsOf s.groups fun g x => [item 0x1004 (le 1 g ++ le 1 x.family ++ zeros 2)]

/-- 5: contracts and source enables. A tie line's contract comes with the tie, and flows enable their own sources. -/
def sourceItems (s : State) : List SavedItem :=
  itemsOf s.sources (fun i x =>
    if isTie i then []
    else
      match x.pendingContract, x.contract with
      | some c, _ => [item 0x0301 c]
      | none, some c => [item 0x0301 c]
      | none, none => []) ++
  itemsOf s.sources fun i x =>
    if x.enabled && !x.pendingDisable && !isTie i && !isIp i then [item 0x0302 (le 2 i ++ le 1 1 ++ zeros 1)] else []

/-- 6, 7: outputs; network ports and flows, the Adit link and the best-effort cap with them (log entry 48). -/
def ioItems (s : State) : List SavedItem :=
  itemsOf s.outputs (fun _ o => kept 0x0401 o.committed) ++
  itemsOf s.netPorts (fun _ n => kept 0x0B01 n.config) ++
  itemsOf s.flows (fun k f =>
    let c := match f.moving with
      | some m => m.config
      | none => f.pending.getD f.config
    kept (if k < 1024 then 0x0B04 else 0x0B05) c) ++
  (if s.adit.enable || s.adit.autoAlign || s.adit.mask != 0xFF then
    [item 0x0C01 (le 1 (flag s.adit.enable) ++ le 1 (flag s.adit.autoAlign) ++ le 1 s.adit.mask ++ zeros 1)] else []) ++
  itemsOf s.adit.ties (fun _ t => kept 0x0C03 (t.pending.getD t.config)) ++
  (if s.store.beCap = 64 then [] else [item 0x1108 (le 2 s.store.beCap ++ zeros 2)])

/-- 8: Crusher policy, service state, tables and profiles. -/
def crusherItems (s : State) : List SavedItem :=
  [item 0x0604 (le 1 s.spares ++ zeros 3)] ++
  itemsOf s.crushers (fun k x => if x.withdrawn then [item 0x0606 (le 1 k ++ zeros 3)] else []) ++
  itemsOf s.tables (fun k t => [.table k t.taps t.data]) ++
  itemsOf s.profiles (fun _ p => kept 0x0612 p)

/-- 9: Ashlars. -/
def ashlarItems (s : State) : List SavedItem :=
  itemsOf s.ashlars fun k a =>
    kept 0x0701 a.committed ++
    (if a.pendingLayers.isEmpty then []
     else [item 0x0703 (le 1 k ++ le 1 a.pendingLayers.length ++ zeros 22 ++ a.pendingLayers.flatMap fun p => sub p.2 0 48)])

/-- 10, 11: audio, and audio ports. -/
def audioItems (s : State) : List SavedItem :=
  itemsOf s.audio.dests (fun c x =>
    if x.committed.isEmpty then [] else [item 0x0801 (le 2 1 ++ le 2 0xFFFF ++ zeros 4 ++ le 2 c ++ sub x.committed 2 14)]) ++
  itemsOf s.audio.embed (fun d n => if n = 0 then [] else [item 0x0804 (le 2 d ++ le 1 1 ++ le 1 n ++ zeros 4)]) ++
  itemsOf s.audio.companions (fun i b => [item 0x0805 (le 2 i ++ le 1 b.count ++ zeros 1 ++ le 2 b.base ++ zeros 2)]) ++
  itemsOf s.audio.binds (fun k b => [item 0x0806 (le 1 (k / 256) ++ le 1 (k % 256) ++ le 2 b.base ++ le 1 b.count ++ zeros 3)]) ++
  itemsOf s.audio.tones (fun _ t => kept 0x0807 t) ++
  itemsOf s.aports (fun _ x => kept 0x0901 x.committed) ++
  [item 0x0904 (le 1 s.refs.shareMode ++ le 1 s.refs.shareEngine ++ zeros 2)] ++
  itemsOf s.captures fun _ x => kept 0x0905 x.config

/-- 12: tally maps. -/
def tallyItems (s : State) : List SavedItem :=
  itemsOf s.tally fun g t => [item 0x0505 (le 1 g ++ le 1 t.level ++ le 2 t.source ++ zeros 4)]

/-- The committed configuration, in the order of R518. -/
def committedItems (s : State) : List SavedItem :=
  powerItems s ++ timingItems s ++ laneItems s ++ sourceItems s ++ ioItems s ++ crusherItems s ++ ashlarItems s ++ audioItems s ++
  tallyItems s

/-- 13: the routes in force. -/
def routesNow (s : State) : List Bytes := (s.routes.filter fun p => !reRemoves p.2.entry).map (·.2.entry)

/-- The power-up routes of a snapshot. -/
def routesOf (x : Snapshot) : List Bytes :=
  x.items.flatMap fun i => match i with
    | .routes es => es
    | _ => []

/-- The snapshot before the one to be taken: one that waits, else the last written or read (log entry 49). -/
def previousSnapshot (s : State) : Snapshot := (s.fw.waitingSave.orElse fun _ => s.fw.snapshot).getD {}

/-- Sequence number of the next snapshot: above every one held. -/
def nextSnapSeq (s : State) : Nat := 1 + max (s.flash.area0.getD {}).seq (s.flash.area1.getD {}).seq

/-- The snapshot FW.SAVE takes (R535): ROUTES, HOST_DATA and DEFAULTS as its FLAGS say. -/
def takeSnapshot (s : State) (flags : Nat) (host : Bytes) : Snapshot :=
  if bit flags 2 then { format := pkSettings s.fw.header }
  else
    let old := previousSnapshot s
    let routes := if bit flags 0 then routesNow s else routesOf old
    { format := pkSettings s.fw.header, items := committedItems s ++ (if routes.isEmpty then [] else [.routes routes])
      host := if bit flags 1 then host else old.host }

/-! ### Writing it (R522, R536, R537) -/

def getArea (s : State) (k : Nat) : Option Snapshot := if k = 0 then s.flash.area0 else s.flash.area1
def areaErases (s : State) (k : Nat) : Nat := if k = 0 then s.flash.erase0 else s.flash.erase1
def areaRetired (s : State) (k : Nat) : Bool := if k = 0 then s.flash.retired0 else s.flash.retired1

/-- The area that holds the newest snapshot satisfying `f`. -/
def newestArea (s : State) (f : Snapshot → Bool) : Option Nat :=
  match s.flash.area0.filter f, s.flash.area1.filter f with
  | some a, some b => if a.seq < b.seq then some 1 else some 0
  | some _, none => some 0
  | none, some _ => some 1
  | none, none => none

/-- The area a save goes to: the one that does not hold the newest snapshot; during a trial, the one that does not hold
the newest of the confirmed image's format (R537); never a retired one. -/
def saveArea (s : State) : Nat :=
  let old := match s.flash.trial, s.flash.confirmed with
    | some _, some c => newestArea s fun x => x.format == pkSettings (getFwSlot s c).package
    | _, _ => newestArea s fun _ => true
  let k := 1 - old.getD 1
  if areaRetired s k then 1 - k else k

/-- One more erase of a settings area, which retires it at 90,000 while the other is in service (R522). -/
def eraseArea (s : State) (k : Nat) : State :=
  let n := areaErases s k + 1
  let s := onFlash s fun f => if k = 0 then { f with erase0 := n } else { f with erase1 := n }
  if 90000 ≤ n ∧ !areaRetired s (1 - k) ∧ !areaRetired s k then
    let s := onFlash s fun f => if k = 0 then { f with retired0 := true } else { f with retired1 := true }
    autoEntry s 7 7 0xFFFF (2 + k)
  else s

/-- Write a snapshot: its area is erased once, and it becomes the running one; SETTINGS_DEFAULTED ends (log entry 49). -/
def writeSnapshot (s : State) (x : Snapshot) : State :=
  let k := saveArea s
  let x := { x with seq := nextSnapSeq s }
  let s := onFlash s fun f => if k = 0 then { f with area0 := some x } else { f with area1 := some x }
  eraseArea { s with fw := { s.fw with snapshot := some x, lastSave := s.now, defaulted := false } } k

/-! ### Applying it at start-up (R518) -/

/-- The commands that set the items of a snapshot. -/
def itemDefs : List CommandDef :=
  [defPowerDomain, defReferenceInput, defReferenceConfig, defReferenceTimeSource, defReferenceClkout, defLaneRxConfig,
   defLaneTxConfig, defLaneGroupFamily, defInputContract, defInputEnable, defOutputConfig, defNetPortConfig, defNetRxFlow,
   defNetTxFlow, defAditConfig, defAditTie, defBenchStoreConfig, defCrusherPolicy, defCrusherService, defCrusherProfileSet,
   defAshlarConfig, defAshlarLayers, defAudioMap, defAudioEmbed, defAudioCompanion, defAudioFlowMap, defAudioTone,
   defAudioportConfig, defAudioportShare, defAudioportCapture, defRouteTallyGpio]

/-- A command with no flags, as the Foreman gives it to itself: an item stands for it (R518). -/
def itemCmd (opcode : Nat) (p : Bytes) : Cmd :=
  { ch := 0xFF, port := .a, opcode := opcode, flags := 0, seq := 0, expected := 0, target := 0, len := p.length, reserved := 0, p := p }

/-- An item that would be refused is skipped, and counted. -/
def skipItem (s : State) : State := { s with fw := { s.fw with skipped := satInc 16 s.fw.skipped } }

/-- Admit one item as its command would be (R518). -/
def applyItem (s : State) : SavedItem → State
  | .soft r v =>
    let c := itemCmd 0x0D02 (zeros (2 * r) ++ le 2 v ++ zeros (22 - 2 * r))
    let fits := (firstOf [defLedgerCeiling.check s c, softNack s c]).isNone
    let s' := setRail s r { getRail s r with soft := v, softIgnored := !fits }
    if fits then s' else skipItem s'
  | .command op p =>
    let c := itemCmd op p
    match itemDefs.find? fun d => d.opcode == op with
    | none => skipItem s
    | some d => if (firstOf [d.check s c, d.admission s c]).isSome then skipItem s else (d.run s c).state
  | .table key taps data =>
    if (tableBusy s key false).isSome then skipItem s
    else (changeTable s (itemCmd 0x0610 []) key false (some data) taps (tableContexts s key)).state
  | .routes es =>
    let c := itemCmd 0x0513 []
    let anchor := reDest (es.headD [])
    let bad := firstOf
      [firstOf ((List.zip (List.range es.length) es).map fun p => entryNack s p.1 0 p.2), commitNack s c anchor es]
    if bad.isSome then skipItem s else (commitRoutes s c anchor es).1

/-- Whether an item is one of the routes, which come after the spares are powered. -/
def isRoutes : SavedItem → Bool
  | .routes _ => true
  | _ => false

/-- Apply a snapshot. No item advances the generation or makes an entry: of the Foreman's own state only the descriptors
on their way stay, under generations below any of this boot (R81, R518). -/
def applySettings (s : State) (x : Snapshot) : State :=
  let t := (x.items.filter fun i => !isRoutes i).foldl applyItem s
  let t := (x.items.filter isRoutes).foldl applyItem (fillSpares t 8)
  { t with fm := { s.fm with shadow := t.fm.shadow, tags := t.fm.tags } }

end Sys2Proof.Machine
end

