-- ==== Sys2Proof/Machine/Tap.lean ====
section
/-! DEFINITION. The boundary-scan TAP (R547, R564, R572): the controller of IEEE 1149.1, which TCK clocks under TMS, what its
registers do, and its reset. No row clocks TCK; TAP_RESET is the one row that acts on it (log entry 51). -/

namespace Sys2Proof.Machine

/-- The controller's next state at a rising TCK. -/
def tapNext (t : TapState) (tms : Bool) : TapState :=
  match t, tms with
  | .testLogicReset, true => .testLogicReset
  | .testLogicReset, false => .runTestIdle
  | .runTestIdle, true => .selectDr
  | .runTestIdle, false => .runTestIdle
  | .selectDr, true => .selectIr
  | .selectDr, false => .captureDr
  | .captureDr, true => .exit1Dr
  | .captureDr, false => .shiftDr
  | .shiftDr, true => .exit1Dr
  | .shiftDr, false => .shiftDr
  | .exit1Dr, true => .updateDr
  | .exit1Dr, false => .pauseDr
  | .pauseDr, true => .exit2Dr
  | .pauseDr, false => .pauseDr
  | .exit2Dr, true => .updateDr
  | .exit2Dr, false => .shiftDr
  | .updateDr, true => .selectDr
  | .updateDr, false => .runTestIdle
  | .selectIr, true => .testLogicReset
  | .selectIr, false => .captureIr
  | .captureIr, true => .exit1Ir
  | .captureIr, false => .shiftIr
  | .shiftIr, true => .exit1Ir
  | .shiftIr, false => .shiftIr
  | .exit1Ir, true => .updateIr
  | .exit1Ir, false => .pauseIr
  | .pauseIr, true => .exit2Ir
  | .pauseIr, false => .pauseIr
  | .exit2Ir, true => .updateIr
  | .exit2Ir, false => .shiftIr
  | .updateIr, true => .selectDr
  | .updateIr, false => .runTestIdle

/-- The TAP after its reset (R547): Test-Logic-Reset, in which no test instruction is in force. -/
def tapReset (t : Tap) : Tap := { t with state := .testLogicReset, instruction := .bypass }

/-- Shift a register by one place: TDI enters at the far end, and the bit nearest TDO leaves. -/
def shiftIn (r : List Bool) (tdi : Bool) : List Bool := r.drop 1 ++ [tdi]

/-- One TCK (IEEE 1149.1): what the state did to the registers, and the next state. Test-Logic-Reset takes any test
instruction out of force; Capture-DR under BYPASS loads 0. -/
def tapClock (t : Tap) (tms tdi : Bool) : Tap :=
  let t := match t.state with
    | .captureDr => if t.instruction = .bypass then { t with bypass := false } else t
    | .shiftDr => if t.instruction = .bypass then { t with bypass := tdi } else { t with boundary := shiftIn t.boundary tdi }
    | .shiftIr => { t with ir := shiftIn t.ir tdi }
    | _ => t
  let n := tapNext t.state tms
  if n = .testLogicReset then tapReset t else { t with state := n }

/-- What TDO carries: it is driven in Shift-DR and Shift-IR only (R564). -/
def tdoLevel (t : Tap) : Option Bool :=
  match t.state with
  | .shiftDr => if t.instruction = .bypass then some t.bypass else t.boundary.head?
  | .shiftIr => t.ir.head?
  | _ => none

end Sys2Proof.Machine
end

