-- ==== Sys2Proof/Machine/Boot.lean ====
section
/-! DEFINITION. Reset and start-up (R515-R519, R542-R549, R580): what a device reset leaves, the straps, the choice of a
slot, booting through a port, and READY. -/

namespace Sys2Proof.Machine

/-! ### Device reset (R546) -/

/-- A port after device reset: its pins' levels and what it has already sent stay. -/
def portAfterReset (x : PortState) : PortState := { present := x.present, perstLow := x.perstLow, toHost := x.toHost }

/-- A network port after device reset: its module's pins stay. -/
def netAfterReset (t : Tab NetPort) : Tab NetPort :=
  t.map fun p => (p.1, ({ present := p.2.present, intAsserted := p.2.intAsserted } : NetPort))

/-- What a device reset makes of an install in progress (R521, R522, R526): its slot stands, or has been erased already, as the
instant of the reset has it, which is a free value (log entry 129). -/
def cutInstall (s : State) : State :=
  match s.fw.install with
  | none => s
  | some (k, _, p) =>
    if signatureOk p && bit (takeByte s).1.toNat 0 then
      let x := getFwSlot s k
      setFwSlot (takeByte s).2 k
        { x with erases := x.erases + 1, valid := false, written := true, package := [], retired := x.retired || decide (90000 ≤ x.erases + 1) }
    else (takeByte s).2

/-- The machine after a device reset: fuses, flash and island stay; so do the levels of input pins, the straps as last
sampled, the TAP, and the model's own queue and counter of free values. -/
def deviceReset (s : State) : State :=
  let s := cutInstall s
  { pending := s.pending, free := s.free, product := s.product, pwrWarn := s.pwrWarn, gpioIn := s.gpioIn
    portA := portAfterReset s.portA, portB := portAfterReset s.portB, netPorts := netAfterReset s.netPorts
    island := s.island, fuses := s.fuses, flash := s.flash, tap := s.tap
    fw := { straps := s.fw.straps, mainRails := s.fw.mainRails, fuseMap := s.fw.fuseMap } }

/-- NRESET_FALL (R547). -/
def execNresetFall (s : State) : Result := .next (deviceReset s)

/-- MAIN_RAIL_LOSS (R580): as at a device reset; the TAP, which the main rails feed, loses its state too. -/
def execMainRailLoss (s : State) : Result :=
  let s := deviceReset s
  .next { s with fw := { s.fw with mainRails := false }, tap := {} }

/-! ### Straps (R37, R515, R542) -/

/-- A strap, or the fused value where its override is enabled. -/
def overridden (s : State) (en : Nat) (strap fused : Bool) : Bool := if bit (fuseField s 18 0x14D 1) en then fused else strap

/-- STRAP_OVR_VAL of a programmed field. -/
def strapValues (s : State) : Nat := if fieldDone s 18 then fuseByte s 0x14E else 0

/-- The straps with the fuses' overrides. -/
def strapsInForce (s : State) (x : Straps) : Straps :=
  let v := strapValues s
  { bootSrc := if bit (fuseField s 18 0x14D 1) 0 then v % 4 else x.bootSrc
    portA := overridden s 1 x.portA (bit v 2), portB := overridden s 2 x.portB (bit v 3)
    quad := overridden s 3 x.quad (bit v 4), fuseSense := overridden s 4 x.fuseSense (bit v 5) }

/-- PORT_BOOT_DISABLE (R541, R542). -/
def portBootDisabled (s : State) : Bool := bit (fuseField s 17 0x14C 1) 0

/-- The port BOOT_SRC names, if it names one that may be waited on. -/
def bootPort (s : State) : Option Port :=
  let x := s.fw.straps
  if portBootDisabled s then none
  else if x.bootSrc = 1 ∧ x.portA then some .a
  else if x.bootSrc = 2 ∧ x.portB then some .b
  else none

/-- A port its strap enables trains once its PERST# is high. -/
def portTrains (x : PortState) (on : Bool) : PortState :=
  { x with present := on, link := if on && !x.perstLow then .training else .down }

/-! ### The boot ROM (R516, R519, R544) -/

def setPhase (s : State) (p : BootPhase) : State := { s with fw := { s.fw with phase := p } }

/-- The ROM waits on a port (R519). -/
def waitOn (s : State) (p : Port) : State := bootWindow (setPhase { s with bootWait := true } (.portWait p)) p true

/-- No loader or slot verifies: wait on Port A, or on Port B when Port A is disabled; with PORT_BOOT_DISABLE, or with no
port, halt (R515, R517, R542). -/
def waitOnAny (s : State) : State :=
  if portBootDisabled s then setPhase s .halted
  else if s.fw.straps.portA then waitOn s .a
  else if s.fw.straps.portB then waitOn s .b
  else setPhase s .halted

/-- The ROM starts, with the straps already in force. -/
def startRom (s : State) : State :=
  let x := s.fw.straps
  let s := { s with portA := portTrains s.portA x.portA, portB := portTrains s.portB x.portB }
  if x.fuseSense then setPhase { s with fuseSense := true } .fuseSense
  else
    match bootPort s with
    | some p => waitOn s p
    | none => setPhase s .rom

/-- The ROM reads the fuse map (R516, R542). -/
def readFuses (s : State) : State := { s with fw := { s.fw with fuseMap := s.fuses } }

/-- NRESET_RISE (R515, R516): the main rails are up; without VSTBY the device stays in reset (R580). -/
def execNresetRise (bootSrc : Fin 4) (portA portB quad fuseSense : Bool) (s : State) : Result :=
  let straps : Straps := { bootSrc := bootSrc.val, portA := portA, portB := portB, quad := quad, fuseSense := fuseSense }
  let s := deviceReset s
  if !s.island.powered then .next s
  else
    let s := readFuses s
    .next (startRom { s with fw := { s.fw with straps := strapsInForce s straps, mainRails := true } })

/-- A device reset the device makes itself (R530, R532, R548): the straps stay as sampled. -/
def selfReset (s : State) : State := startRom (readFuses (deviceReset s))

/-! ### The resident loader (R517) -/

/-- Start the Foreman of a package held in a slot, or in staging (none). -/
def startForeman (s : State) (slot : Option Nat) (package : Bytes) : State :=
  setPhase { s with fw := { s.fw with running := slot, header := sub package 0 256, versions := packageVersions package } } .foreman

/-- Run slot `k`: it becomes the confirmed slot, except as a cold trial. -/
def runSlot (s : State) (k : Nat) (cold : Bool) : State :=
  let s := if cold then { s with fw := { s.fw with cold := true } }
    else onFlash s fun f => { f with confirmed := some k, trial := none }
  startForeman s (some k) (getFwSlot s k).package

/-- A slot that fails verification is marked invalid. -/
def markInvalid (s : State) (k : Nat) : State := setFwSlot s k { getFwSlot s k with valid := false }

/-- FALLBACK_OCCURRED, with its cause. -/
def fellBack (s : State) (result : Nat) : State := { s with fw := { s.fw with fallback := true, lastResult := result } }

/-- Whether a slot's package passes the checks of R524 at this start-up: `key` says that it reads back and that its key and
signature verify (log entry 50); the other checks are made here. -/
def slotPasses (s : State) (k : Nat) (key : Bool) : Bool := key && slotRuns s k && packagePlain s (getFwSlot s k).package

/-- Run the slot chosen, or the other one, or wait on a port (R517). -/
def runChosen (s : State) (k : Nat) (cold ok0 ok1 : Bool) : State :=
  let ok := fun (j : Nat) => slotPasses s j (if j = 0 then ok0 else ok1)
  if ok k then runSlot s k cold
  else
    let s := if slotRuns s k then markInvalid s k else s
    if ok (1 - k) then runSlot (fellBack s 10) (1 - k) false else waitOnAny s

/-- The loader starts: it sets REMAP and chooses a slot (R488, R517). -/
def chooseSlotToRun (s : State) (ok0 ok1 : Bool) : State :=
  let s := { s with fw := { s.fw with remap := true } }
  match s.flash.trial, s.flash.bootOnce with
  | some t, true => runChosen (onFlash s fun f => { f with bootOnce := false }) t true ok0 ok1
  | some _, false =>
    runChosen (fellBack (onFlash s fun f => { f with trial := none }) 0) (s.flash.confirmed.getD 0) false ok0 ok1
  | none, _ => runChosen s (s.flash.confirmed.getD 0) false ok0 ok1

/-- LOADER_START (R516, R517): whether the loader in flash verifies against the fused key hash, and whether the key and the
signature of each slot's package do (facts of the flash, log entry 50). -/
def execLoaderStart (loaderOk ok0 ok1 : Bool) (s : State) : Result :=
  if s.fw.phase ≠ .rom then .next s
  else if loaderOk then .next (chooseSlotToRun s ok0 ok1)
  else .next (waitOnAny s)

/-! ### Booting through a port (R519) -/

/-- Address of the start block. -/
def startBlockAt (p : Port) : Nat := stagingBase p + 0x3FFFE0

/-- Whether a start block supplies a package: PACKAGE_OFFSET and PACKAGE_LENGTH are 0 for none. -/
def blockPackage (b : Bytes) : Bool := u32 b 8 != 0 && u32 b 12 != 0

/-- RESULT of a start block; 1 where its loader runs. -/
def startResult (s : State) (p : Port) (b : Bytes) (loaderOk : Bool) : Nat :=
  if 524288 < u32 b 4 then 3
  else if !loaderOk then 2
  else if !blockPackage b then 1
  else if u32 b 8 % 4096 = 0 ∧ u32 b 4 ≤ u32 b 8 ∧ u32 b 8 + u32 b 12 ≤ stagingSize ∧
      packageOk s (storeRead s (stagingBase p + u32 b 8) (u32 b 12)) = true then 1
  else 4

/-- The loader of a start block runs: the package supplied, or a slot. -/
def runSupplied (s : State) (p : Port) (b : Bytes) (ok0 ok1 : Bool) : State :=
  let s := bootWindow { s with bootWait := false } p false
  if !blockPackage b then chooseSlotToRun s ok0 ok1
  else startForeman { s with fw := { s.fw with remap := true } } none (storeRead s (stagingBase p + u32 b 8) (u32 b 12))

/-- START_BLOCK_POLL: a valid MARK is cleared and the block taken; `loaderOk` says whether its loader's signature
verifies, `ok0` and `ok1` whether each slot's package does. -/
def execStartBlockPoll (loaderOk ok0 ok1 : Bool) (s : State) : Result :=
  match s.fw.phase with
  | .portWait p =>
    let b := storeRead s (startBlockAt p) 32
    if u32 b 0 ≠ 0x5742 then .next s
    else
      let r := startResult s p b loaderOk
      let s := storeWrite (storeWrite s (startBlockAt p) (zeros 4)) (startBlockAt p + 16) (le 4 r)
      if r = 1 then .next (runSupplied s p b ok0 ok1) else .next s
  | _ => .next s

/-! ### READY (R81, R235, R461, R509, R518, R532, R551) -/

/-- The running image's snapshot: the newest of its format in either area (R536). -/
def bootSnapshot (s : State) : Option Snapshot :=
  (newestArea s fun x => x.format == pkSettings s.fw.header).bind (getArea s)

/-- Read the settings, or start from defaults with SETTINGS_DEFAULTED. -/
def readSettings (s : State) : State :=
  match bootSnapshot s with
  | some x => applySettings { s with fw := { s.fw with snapshot := some x } } x
  | none => applySettings { s with fw := { s.fw with defaulted := true } } {}

/-- Engines that failed the timing-margin check (R235). -/
def markDerated (s : State) (derated : BitVec 32) : State :=
  ((List.range 32).filter fun k => derated.getLsbD k && decide (k < engineCount s)).foldl
    (fun s k => setCrusher s k { getCrusher s k with derated := true }) s

/-- The generation of this boot: the lowest multiple of 2³² above the floor (R81). -/
def bootGeneration (s : State) : Nat := (s.flash.genFloor / 4294967296 + 1) * 4294967296

/-- The BOOT entry (R511). -/
def bootEntry (s : State) : State :=
  let ok := noteValid s
  let last := if ok then some (u64 s.island.note 16) else none
  let s := addEntry s
    { seq := 0, gen := s.fm.gen, time := s.now, opcode := 0, kind := 0, origin := originForeman, channel := 0xFF, reason := 0
      object := 0xFFFF, chSeq := 0, target := orOnes last, effect := none
      detail := if ok then u32 s.island.note 8 else 0xFFFFFFFF, targetKind := 0, settled := true }
  consumeNote (onFm s fun f => { f with previousLast := last })

/-- FW_STATE (R540): the state as it stands, a result and the slot it concerns. -/
def fwStateNum : FwState → Nat
  | .idle => 0
  | .installing => 1
  | .activating => 2
  | .updating => 3
  | .selfCheck => 4
  | .awaitConfirm => 5
  | .reverting => 6

def fwEvent (s : State) (result slot version : Nat) : State :=
  raise s 0x108 0 (le 1 (fwStateNum s.fw.state) ++ le 1 (s.fw.stages.headD 0) ++ le 1 result ++ le 1 slot ++ le 4 version ++ zeros 8)

/-- The slot that runs, as FW.STATUS shows it. -/
def runningNum (s : State) : Nat := s.fw.running.getD 0xFF

/-- FW_STATE about the image that runs. -/
def fwRunning (s : State) (result : Nat) : State := fwEvent s result (runningNum s) (pkVersion s.fw.header)

/-- The health window starts (R532). -/
def startWindow (s : State) : State :=
  { s with fw := { s.fw with state := .awaitConfirm, windowEnd := some (s.now + s.flash.healthS * 1000000000) } }

/-- READY: settings, generation, BOOT entry, and READY in BAR0. `derated` are the engines that failed their timing-margin
check. -/
def execReady (derated : BitVec 32) (s : State) : Result :=
  if s.fw.phase ≠ .foreman then .next s
  else
    let s := readSettings (markDerated s derated)
    let g := bootGeneration s
    let s := onFlash s fun f => { f with genFloor := g }
    let s := bootEntry (onFm s fun f => { f with gen := g, bootGen := g })
    let s := setPhase { s with ready := true, readyAt := s.now, uptime := 0 } .running
    let s := if s.fw.cold then startWindow s else s
    let s := ((List.range 32).filter fun k => (getCrusher s k).derated).foldl (fun s k => crusherEvent s k 7 0 0xFFFF) s
    if s.fw.skipped = 0 then .next s
    else .next (fwRunning { s with fw := { s.fw with lastResult := 12 } } 12)

/-! ### Supply and test pins -/

/-- PWR_WARN_CHANGE (R44). -/
def execPwrWarnChange (level : Bool) (s : State) : Result := .next { s with pwrWarn := level }

/-- TAP_RESET (R546, R547): it acts on the boundary-scan TAP alone. -/
def execTapReset (s : State) : Result := .next { s with tap := tapReset s.tap }

end Sys2Proof.Machine
end

