-- ==== Sys2Proof/Machine/Firmware.lean ====
section
/-! DEFINITION. Installing, activating, trial and fallback, the owner lock, and saving settings (R522-R540). -/

namespace Sys2Proof.Machine

/-! ### Journal and states -/

def onFw (s : State) (f : Firmware → Firmware) : State := { s with fw := f s.fw }

/-- A FIRMWARE entry (R540): ORIGIN 4 during stage 4 and during fallbacks, 3 otherwise. -/
def fwEntry (s : State) (reason detail : Nat) (loader : Bool) : State :=
  autoEntry s 7 reason 0xFFFF detail none (if loader then originLoader else originForeman)

/-- Whether stages run as a fallback. -/
def fallingBack (s : State) : Bool :=
  match s.fw.plan with
  | .restore => true
  | .revert _ => true
  | _ => false

/-- FW_STATE about the package whose stages run. -/
def fwTarget (s : State) (result : Nat) : State := fwEvent s result s.fw.target (pkVersion s.fw.targetHeader)

/-! ### Installing (R526, R522) -/

/-- The package FW.INSTALL names, in the ringing port's staging area. -/
def stagedPackage (s : State) (c : Cmd) : Bytes := storeRead s (stagingBase c.port + u32 c.p 0) (u32 c.p 4)

/-- The slot an install writes: the one not running, or the running one when that is retired (R522, R526). -/
def installSlot (s : State) : Nat :=
  if (getFwSlot s (otherSlot s)).retired then 1 - otherSlot s else otherSlot s

/-- Refusals of R528, in its order. -/
def fwRefusal (s : State) (supply live : Bool) : Option Nack :=
  firstOf
    [need (!s.flash.locked) { status := stREFUSED_LOCK },
     need (!(supply && (s.pwrWarn || s.fm.lowBattery))) { status := stREFUSED_SUPPLY },
     need (!(live && anyLive s)) { status := stREFUSED_LIVE }]

/-- The field checks of FW.INSTALL that come before those of the package. -/
def installFields (c : Cmd) : Option Nack :=
  firstOf [need (u32 c.p 0 % 4 == 0) (badArg 0), need (u32 c.p 4 % 4 == 0 && decide (u32 c.p 0 + u32 c.p 4 ≤ stagingSize)) (badArg 4),
           need (zeroAt c.p 8 8) (badArg 8)]

/-- Set LAST_RESULT. -/
def lastResult (s : State) (r : Nat) : State := onFw s fun f => { f with lastResult := r }

/-- FW.INSTALL (R526). With both slots retired none may be written, and it is refused (log entry 128). -/
def defFwInstall : CommandDef where
  opcode := 0x0E02
  flags := flagsChange
  lenOk c := c.len == 16
  check s c :=
    firstOf [installFields c, need (headerResult s (stagedPackage s c) == 1) badWhole,
             need (!(getFwSlot s (installSlot s)).retired) badWhole]
  admission s c :=
    firstOf
      [fwRefusal s true false, need (decide (pkSecurity (stagedPackage s c) ≤ 64)) { status := stFUSES_SPENT },
       need (s.fw.state == .idle) { status := stBUSY_DRAIN }]
  refused s c :=
    if (installFields c).isNone && headerResult s (stagedPackage s c) != 1 then
      lastResult s (headerResult s (stagedPackage s c))
    else s
  run s c :=
    let t := onFw (commitLater s c 0xFFFF) fun f =>
      { f with state := .installing, install := some (installSlot s, s.fm.gen + 1, stagedPackage s c) }
    if c.await then { state := t, wait := some .install } else { state := t, status := stQUEUED }

def execFwInstall (ch : Fin 32) (s : State) : Result := .next (runCommand defFwInstall ch s)

/-- The slot's one erase (R522): at 90,000 the slot is retired. -/
def eraseSlot (s : State) (k : Nat) : State :=
  let x := getFwSlot s k
  let n := x.erases + 1
  let s := setFwSlot s k { x with erases := n, valid := false, written := true, package := [], retired := x.retired || decide (90000 ≤ n) }
  if 90000 ≤ n ∧ !x.retired then fwEntry s 7 k false else s

/-- The end of an install: LAST_RESULT, the FIRMWARE entry, FW_STATE, and the command that waited (R526). -/
def installEnds (s : State) (k gen version r : Nat) : State :=
  let s := if r = 1 then journalRest s gen s.now else s
  let s := onFw (lastResult s r) fun f => { f with state := .idle, install := none }
  let s := if r = 1 then fwEntry s 2 version false else fwEntry s 3 r false
  let s := fwEvent s r k version
  if r = 1 then wake s .install (some s.now) else wakeWith s .install stCANCELLED

/-- INSTALL_DONE: `flashOk` says whether the slot was written and read back without error (R526). -/
def execInstallDone (flashOk : Bool) (s : State) : Result :=
  match s.fw.install with
  | none => .next s
  | some (k, g, p) =>
    if !signatureOk p then .next (installEnds s k g (pkVersion p) 2)
    else
      let s := eraseSlot s k
      if !flashOk then .next (installEnds s k g (pkVersion p) 11)
      else .next (installEnds (setFwSlot s k { getFwSlot s k with valid := true, package := p }) k g (pkVersion p) 1)

/-! ### Stages (R527, R529, R531, R532) -/

/-- A component whose new VERSION is the running one takes no time. -/
def stageSkipped (s : State) (k : Nat) : Bool :=
  match s.fw.plan with
  | .restore => false
  | _ => kindVersion s.fw.targetHeader k == s.fw.versions.getD (k - 1) 0

/-- A stage starts; from stage 4 on the loader holds control. -/
def startStage (s : State) (k : Nat) (rest : List Nat) : State :=
  let s := onFw s fun f => { f with
    stages := k :: rest, stageAt := s.uptime
    state := if f.plan = .activate then (if k = 4 then .updating else .activating) else .reverting }
  fwTarget { s with updating := s.updating || k == 4 } 0

/-- A stage ends: its component runs at its new version, the journal says so, and FW_STATE is raised. -/
def endStage (s : State) (k : Nat) : State :=
  let s := onFw s fun f => { f with versions := f.versions.set (k - 1) (kindVersion f.targetHeader k), replaced := f.replaced ++ [k] }
  fwTarget (fwEntry s 1 (k + 256 * s.fw.target) (k == 4 || fallingBack s)) 0

/-- The package of the target runs, and what the update deferred is decided (R35). With another SETTINGS_FORMAT the running
snapshot is the newest of that format, and SETTINGS_DEFAULTED says that there is none (R537). -/
def adoptTarget (s : State) : State :=
  let new := s.fw.targetHeader
  let format := pkSettings new != pkSettings s.fw.header
  let own := (newestArea s fun x => x.format == pkSettings new).bind (getArea s)
  let s := onFw s fun f => { f with
    running := some f.target, header := new, stages := [], replaced := [], plan := .none, state := .idle
    defaulted := if format then own.isNone else f.defaulted, snapshot := if format then own else f.snapshot }
  deferredAsrc (deferredMigrations { s with updating := false })

/-- What follows the last stage: the self-check of a new image, or the end of a restoration or a fallback. -/
def stagesEnd (s : State) : State :=
  match s.fw.plan with
  | .activate =>
    let t := s.fw.target
    let s := journalRest s s.fw.planGen s.now
    onFlash (onFw (adoptTarget s) fun f => { f with state := .selfCheck }) fun f => { f with trial := some t }
  | .restore =>
    let s := deferredMigrations (onFw { s with updating := false } fun f => { f with stages := [], replaced := [], plan := .none, state := .idle })
    let s := deferredAsrc s
    fwEntry s 5 (7 + 256 * runningNum s) true
  | .revert r =>
    let t := s.fw.target
    let s := journalRest s s.fw.planGen s.now
    let s := onFlash (adoptTarget s) fun f => { f with trial := none }
    fwEntry (onFw s fun f => { f with cold := false }) 5 (r + 256 * t) true
  | .none => s

/-- Go through the stages until one must be waited for. -/
def runStages (s : State) : List Nat → State
  | [] => stagesEnd s
  | k :: rest =>
    let s := startStage s k rest
    if stageSkipped s k then runStages (endStage s k) rest else s

/-- Begin the stages of a plan with the components of a package. -/
def beginPlan (s : State) (plan : FwPlan) (slot : Nat) (header : Bytes) (stages : List Nat) : State :=
  runStages (onFw s fun f => { f with plan := plan, target := slot, targetHeader := header, replaced := [] }) stages

/-- STAGE_DONE (R527, R529). -/
def execStageDone (s : State) : Result :=
  match s.fw.stages with
  | [] => .next s
  | k :: rest => .next (runStages (endStage s k) rest)

/-- STAGE_TIMEOUT (R531): the components already replaced are restored in order, the failed stage last. -/
def execStageTimeout (s : State) : Result :=
  match s.fw.plan, s.fw.stages with
  | .activate, k :: _ =>
    let done := s.fw.replaced
    let s := fwTarget (onFw (lastResult s 7) fun f => { f with state := .reverting }) 7
    .next (beginPlan s .restore (runningNum s) s.fw.header (done ++ [k]))
  | _, _ => .next s

/-- The fallback of a trial (R532): hitless, by the stages of R527; of a cold trial, a device reset, which the caller
makes. -/
def fallBack (s : State) (r : Nat) : State :=
  let k := s.flash.confirmed.getD 0
  let h := sub (getFwSlot s k).package 0 256
  let s := onFw (lastResult s r) fun f => { f with state := .reverting, windowEnd := none, fallback := true }
  if s.fw.cold then onFw (fwRunning s r) fun f => { f with resetDue := true }
  else beginPlan (fwEvent s r k (pkVersion h)) (.revert r) k h kinds

/-- A device reset that is due is made (R530, R532). -/
def settleReset (s : State) : State := if s.fw.resetDue then selfReset s else s

/-- SELF_CHECK_DONE (R532). -/
def execSelfCheckDone (pass : Bool) (s : State) : Result :=
  if s.fw.state ≠ .selfCheck then .next s
  else if !pass then .next (fallBack s 8)
  else
    let s := startWindow (lastResult s 1)
    .next (fwRunning (fwEntry s 4 (pkVersion s.fw.header) false) 1)

/-- HEALTH_WINDOW_EXPIRED (R532). -/
def execHealthWindowExpired (s : State) : Result :=
  if s.fw.state ≠ .awaitConfirm then .next s else .next (settleReset (fallBack s 9))

/-! ### FW.ACTIVATE, FW.CONFIRM, FW.REVERT (R525, R527, R530, R532-R534) -/

/-- Result code that refuses an activation of the other slot: R524 again, and R525 when it is to be hitless. -/
def activateResult (s : State) (mode : Nat) : Nat :=
  let p := (getFwSlot s (otherSlot s)).package
  let r := headerResult s p
  if r ≠ 1 then r
  else if !signatureOk p then 2
  else if mode = 0 ∧ !hitlessOk s p then 6
  else 1

def defFwActivate : CommandDef where
  opcode := 0x0E03
  flags := 0x41
  lenOk c := c.len == 4
  check s c :=
    firstOf [need (decide (u8 c.p 0 ≤ 1)) (badArg 0), need (zeroAt c.p 1 3) (badArg 1), need (slotRuns s (otherSlot s)) badWhole,
             need (activateResult s (u8 c.p 0) == 1) badWhole]
  admission s _ := firstOf [fwRefusal s true true, need (s.fw.state == .idle) { status := stBUSY_DRAIN }]
  refused s c :=
    if decide (u8 c.p 0 ≤ 1) && zeroAt c.p 1 3 && slotRuns s (otherSlot s) &&
        activateResult s (u8 c.p 0) != 1 then
      lastResult s (activateResult s (u8 c.p 0))
    else s
  run s c :=
    let k := otherSlot s
    let t := onFw (commitLater s c 0xFFFF) fun f => { f with planGen := s.fm.gen + 1 }
    let t :=
      if u8 c.p 0 = 1 then onFw (onFlash t fun f => { f with trial := some k, bootOnce := true }) fun f => { f with resetDue := true }
      else beginPlan t .activate k (sub (getFwSlot s k).package 0 256) kinds
    { state := t, status := stQUEUED }

def execFwActivate (ch : Fin 32) (s : State) : Result := .next (settleReset (runCommand defFwActivate ch s))

/-- The first bit of ANTI_ROLLBACK that is not burned. -/
def nextFloorBit (s : State) : Option Nat := (List.range 64).find? fun i => !bit (burnedByte s (0x140 + i / 8)) (i % 8)

/-- Burn bits of ANTI_ROLLBACK in order until the floor is `v` (R534). -/
def burnFloor (s : State) (v : Nat) : Nat → State
  | 0 => s
  | n + 1 =>
    if v ≤ securityFloor s then s
    else
      match nextFloorBit s with
      | none => s
      | some k =>
        let a := 0x140 + k / 8
        burnFloor { s with fuses := Memory.write s.fuses a (BitVec.ofNat 8 (burnedByte s a ||| 2 ^ (k % 8))) } v n

def defFwConfirm : CommandDef where
  opcode := 0x0E04
  flags := 0x41
  lenOk c := c.len == 4
  check s c := firstOf [need (s.fw.state == .awaitConfirm) badWhole, need (u32 c.p 0 == pkVersion s.fw.header) (badArg 0)]
  run s c :=
    let t := onFlash (commit s c 0xFFFF) fun f => { f with confirmed := s.fw.running, trial := none }
    let t := onFw (lastResult t 1) fun f => { f with state := .idle, windowEnd := none, cold := false }
    let floor := securityFloor t
    let sv := pkSecurity (match s.fw.running with
      | some k => (getFwSlot s k).package
      | none => s.fw.header)
    let t := if floor < sv then fwEntry (burnFloor t sv 64) 6 (min sv 64) false else t
    { state := t, effect := some s.now }

def execFwConfirm (ch : Fin 32) (s : State) : Result := .next (runCommand defFwConfirm ch s)

def defFwRevert : CommandDef where
  opcode := 0x0E05
  flags := 0x41
  lenOk c := c.len == 0
  check s _ := need (s.fw.state == .awaitConfirm || s.fw.state == .activating || s.fw.state == .reverting) badWhole
  admission s _ := firstOf [fwRefusal s true true, need (s.fw.state == .awaitConfirm) { status := stBUSY_DRAIN }]
  run s c := { state := fallBack (onFw (commitLater s c 0xFFFF) fun f => { f with planGen := s.fm.gen + 1 }) 0, status := stQUEUED }

def execFwRevert (ch : Fin 32) (s : State) : Result := .next (settleReset (runCommand defFwRevert ch s))

/-! ### Owner lock and policy (R533, R538) -/

/-- LOCK_PERMANENT (R541). -/
def lockPermanent (s : State) : Bool := bit (fuseField s 17 0x14C 1) 1

/-- The code is the owner's. -/
def ownerCode (s : State) (c : Cmd) : Bool := sha256 (sub c.p 0 16) == s.flash.lockDigest

def defFwLock : CommandDef where
  opcode := 0x0E06
  flags := 0x41
  lenOk c := c.len == 16
  admission s c := need (!s.flash.locked || ownerCode s c) { status := stNOT_OWNER }
  run s c :=
    { state := onFlash (commit s c 0xFFFF) fun f => { f with locked := true, lockDigest := sha256 (sub c.p 0 16) }, effect := some s.now }

def execFwLock (ch : Fin 32) (s : State) : Result := .next (runCommand defFwLock ch s)

def defFwUnlock : CommandDef where
  opcode := 0x0E07
  flags := 0x41
  lenOk c := c.len == 16
  check s _ := need s.flash.locked badWhole
  admission s c :=
    firstOf [need (ownerCode s c) { status := stNOT_OWNER }, need (!lockPermanent s) { status := stREFUSED_LOCK }]
  run s c := { state := onFlash (commit s c 0xFFFF) fun f => { f with locked := false, lockDigest := [] }, effect := some s.now }

def execFwUnlock (ch : Fin 32) (s : State) : Result := .next (runCommand defFwUnlock ch s)

def defFwPolicy : CommandDef where
  opcode := 0x0E08
  flags := 0x41
  lenOk c := c.len == 4
  check _ c :=
    let h := u16 c.p 0
    firstOf [need (h == 0 || (decide (30 ≤ h) && decide (h ≤ 3600))) (badArg 0), need (zeroAt c.p 2 2) (badArg 2)]
  admission s _ := fwRefusal s false false
  run s c :=
    { state := onFlash (commit s c 0xFFFF) fun f => { f with healthS := if u16 c.p 0 = 0 then 300 else u16 c.p 0 }, effect := some s.now }

def execFwPolicy (ch : Fin 32) (s : State) : Result := .next (runCommand defFwPolicy ch s)

/-! ### FW.SAVE, SETTINGS_WRITE, FW.HOST_DATA (R535-R537, R539) -/

/-- Host data FW.SAVE copies out of staging. -/
def savedHost (s : State) (c : Cmd) : Bytes := storeRead s (stagingBase c.port + u32 c.p 4) (u32 c.p 8)

def defFwSave : CommandDef where
  opcode := 0x0E09
  flags := flagsChange
  lenOk c := c.len == 16
  check _ c :=
    let f := u8 c.p 0
    firstOf
      [need (decide (f ≤ 2) || f == 3 || f == 4) (badArg 0), need (zeroAt c.p 1 3) (badArg 1),
       need (if bit f 1 then u32 c.p 4 % 4 == 0 && decide (u32 c.p 4 + u32 c.p 8 ≤ stagingSize) else u32 c.p 4 == 0) (badArg 4),
       need (if bit f 1 then decide (u32 c.p 8 ≤ 1048576) else u32 c.p 8 == 0) (badArg 8), need (zeroAt c.p 12 4) (badArg 12)]
  run s c :=
    let x := takeSnapshot s (u8 c.p 0) (savedHost s c)
    if s.fw.saveInterval then
      let t := onFw (commitLater s c 0xFFFF) fun f => { f with waitingSave := some x, saveGens := (s.fm.gen + 1) :: f.saveGens }
      if c.await then { state := t, wait := some .save } else { state := t, status := stQUEUED }
    else
      { state := onFw (writeSnapshot (commit s c 0xFFFF) x) fun f => { f with saveInterval := true }, effect := some s.now }

def execFwSave (ch : Fin 32) (s : State) : Result := .next (runCommand defFwSave ch s)

/-- SETTINGS_WRITE: 60 s after a snapshot was written, the waiting one is written and the next interval starts (R536). -/
def execSettingsWrite (s : State) : Result :=
  if !s.fw.saveInterval then .next s
  else
    match s.fw.waitingSave with
    | none => .next (onFw s fun f => { f with saveInterval := false })
    | some x =>
      let s := s.fw.saveGens.foldl (fun s g => journalRest s g s.now) s
      .next (wake (writeSnapshot (onFw s fun f => { f with waitingSave := none, saveGens := [] }) x) .save (some s.now))

/-- Host data of the running snapshot. -/
def hostData (s : State) : Bytes := (s.fw.snapshot.getD {}).host

def defFwHostData : CommandDef where
  opcode := 0x0E0A
  lenOk c := c.len == 8
  check s c :=
    firstOf [need (decide (u32 c.p 0 + (hostData s).length ≤ stagingSize)) (badArg 0), need (zeroAt c.p 4 4) (badArg 4)]
  run s c :=
    { state := storeWrite s (stagingBase c.port + u32 c.p 0) (hostData s), payload := le 4 (hostData s).length ++ zeros 4 }

def execFwHostData (ch : Fin 32) (s : State) : Result := .next (runCommand defFwHostData ch s)

/-! ### FW.STATUS (R539) -/

def slotNumber : Option Nat → Nat
  | some k => k
  | none => 0xFF

/-- SLOT_STATE. -/
def slotStateNum (x : FwSlot) : Nat := if x.retired then 3 else if x.valid then 1 else if x.written then 2 else 0

def slotBytes (x : FwSlot) : Bytes :=
  le 1 (slotStateNum x) ++ zeros 1 ++ le 2 (pkSettings x.package) ++ le 4 (pkVersion x.package) ++ le 4 (pkSecurity x.package) ++
  le 4 x.erases ++ zeros 8

/-- SETTINGS_WORN: the last area in service has passed its erases (R522). -/
def settingsWorn (s : State) : Bool :=
  (s.flash.retired0 && decide (90000 ≤ s.flash.erase1)) || (s.flash.retired1 && decide (90000 ≤ s.flash.erase0))

def fwFlags (s : State) : Nat :=
  flag s.flash.locked + 2 * flag (lockPermanent s) + 4 * flag (s.flash.slot0.retired || s.flash.slot1.retired) +
  8 * flag s.fw.defaulted + 16 * flag (settingsWorn s) + 32 * flag s.fw.fallback

/-- HEALTH_LEFT in seconds, a part of one counted whole. -/
def healthLeft (s : State) : Nat :=
  match s.fw.windowEnd with
  | none => 0xFFFFFFFF
  | some t => ceilDiv (t - s.now) 1000000000

def defFwStatus : CommandDef where
  opcode := 0x0E01
  lenOk c := c.len == 0
  run s _ :=
    readDone s (le 1 (fwStateNum s.fw.state) ++ le 1 (s.fw.stages.headD 0) ++ le 1 (slotNumber s.fw.running) ++
      le 1 (slotNumber s.flash.confirmed) ++ le 1 (fwFlags s) ++ le 1 s.fw.lastResult ++ le 1 (securityFloor s) ++ zeros 1 ++
      le 4 (healthLeft s) ++ le 4 s.flash.healthS ++ slotBytes s.flash.slot0 ++ slotBytes s.flash.slot1 ++ le 4 s.flash.erase0 ++
      le 4 s.flash.erase1 ++ le 8 s.fw.lastSave ++ le 2 (pkSettings s.fw.header) ++ le 2 (pkState s.fw.header) ++
      le 2 s.fw.skipped ++ zeros 2 ++ le 8 s.now)

def execFwStatus (ch : Fin 32) (s : State) : Result := .next (runCommand defFwStatus ch s)

end Sys2Proof.Machine
end

