-- ==== Sys2Proof/Machine/Fuses.lean ====
section
/-! DEFINITION. The FUSE commands (R543-R545, R553, R554), standby (R550-R552) and the pins of the island. -/

namespace Sys2Proof.Machine

/-! ### Board fields (R541) -/

/-- Offset and size of board field `i`. -/
def fieldPlace (i : Nat) : Nat × Nat :=
  if i = 0 then (0x100, 2)
  else if i = 1 then (0x102, 2)
  else if i = 2 then (0x104, 6)
  else if i < 13 then (0x10C + 2 * (i - 3), 2)
  else if i = 13 then (0x120, 32)
  else if i = 14 then (0x148, 2)
  else if i = 15 then (0x14A, 1)
  else if i = 16 then (0x14B, 1)
  else if i = 17 then (0x14C, 1)
  else if i = 18 then (0x14D, 2)
  else (0x150, 160)

def fieldOff (i : Nat) : Nat := (fieldPlace i).1
def fieldSize (i : Nat) : Nat := (fieldPlace i).2

/-- L: the field's size rounded up to a multiple of 4. -/
def valueSize (i : Nat) : Nat := roundUp (fieldSize i) 4

def boardLock (s : State) : Bool := bit (burnedByte s 0x1FF) 0
def factoryLock (s : State) : Bool := bit (burnedByte s 0x0FF) 0

/-! ### FUSE.READ -/

/-- FUSE.READ (R553): the map as burned. -/
def defFuseRead : CommandDef where
  opcode := 0x1201
  fuseMode := true
  lenOk c := c.len == 0
  run s _ :=
    readDone s (le 1 (flag s.fuseSense) ++ le 1 (flag (factoryLock s) + 2 * flag (boardLock s)) ++ le 1 (securityFloor s) ++
      zeros 13 ++ Memory.readBytes s.fuses 0 512)

def execFuseRead (ch : Fin 32) (s : State) : Result := .next (runCommand defFuseRead ch s)

/-! ### FUSE.PROGRAM (R543, R554) -/

/-- Whether the value lies within the range of field `i` (R541, R554). -/
def fieldRangeOk (i : Nat) (v : Bytes) : Bool :=
  if 3 ≤ i ∧ i < 13 then decide (u16 v 0 ≤ railMax (i - 3))
  else if i = 14 then decide (u16 v 0 ≤ 256)
  else if i = 15 then decide (u8 v 0 ≤ 16)
  else if i = 16 then decide (u8 v 0 ≤ 25)
  else if i = 17 then decide (u8 v 0 < 4)
  else if i = 18 then
    let en := u8 v 0
    let val := u8 v 1
    decide (en < 32) && decide (val < 32) && !(bit en 1 && bit en 2 && !bit val 2 && !bit val 3)
  else true

/-- Every bit already burned in the field is in the value. -/
def coversBurned (s : State) (i : Nat) (v : Bytes) : Bool :=
  (List.range (fieldSize i)).all fun j => burnedByte s (fieldOff i + j) &&& u8 v j == burnedByte s (fieldOff i + j)

/-- MAC_BASE: the two low bits of the last octet, and the group bit of the first, are 0. -/
def macOk (i : Nat) (v : Bytes) : Bool := i != 2 || (u8 v 0 % 4 == 0 && u8 v 5 % 2 == 0)

/-- VALUE of a FUSE.PROGRAM. -/
def fuseValue (c : Cmd) : Bytes := sub c.p 8 (fieldSize (u8 c.p 0))

/-- Bits of the fuse array from byte `off` that a string has set. -/
def bitsOf (off : Nat) (v : Bytes) : List Nat :=
  (List.range (8 * v.length)).filter (fun k => bit (u8 v (k / 8)) (k % 8)) |>.map (8 * off + ·)

/-- Burn bit `k` of the array: it changes from 0 to 1 only. -/
def burnBit (s : State) (k : Nat) : State :=
  { s with fuses := Memory.write s.fuses (k / 8) (BitVec.ofNat 8 (burnedByte s (k / 8) ||| 2 ^ (k % 8))) }

/-- Whether board field `i` has been programmed: its FIELD_DONE bit is burned (R543). -/
def fieldBurned (s : State) (i : Nat) : Bool := bit (burnedByte s (0x1FC + i / 8)) (i % 8)

/-- The bit that marks field `i` programmed. -/
def doneBit (i : Nat) : Nat := 8 * 0x1FC + i

/-- Burn a list of bits; the one in `stuck` still reads 0 after three burns.. -/
def burnAll (s : State) (stuck : Option Nat) : List Nat → State
  | [] => s
  | k :: l => if some k = stuck then burnAll s stuck l else burnAll (burnBit s k) stuck l

/-- FUSE.PROGRAM with at most one bit that does not burn. -/
def defFuseProgram (stuck : Option Nat) : CommandDef where
  opcode := 0x1202
  exempt := true
  fuseMode := true
  lenOk c := decide (u8 c.p 0 ≤ 19) && c.len == 8 + valueSize (u8 c.p 0)
  lenField c := if u8 c.p 0 ≤ 19 then 24 else 32
  check s c :=
    let i := u8 c.p 0
    let v := fuseValue c
    firstOf
      [need (s.fuseSense && !boardLock s) { status := stREFUSED_LOCK }, need (zeroAt c.p 1 7) (badArg 1),
       need (zeroAt c.p (8 + fieldSize i) (valueSize i - fieldSize i)) (badArg (8 + fieldSize i)),
       need (!fieldBurned s i) (badArg 0), need (coversBurned s i v) (badArg 8),
       need (!zeroAt v 0 (fieldSize i) && fieldRangeOk i v) (badArg 8), need (macOk i v) (badArg 8)]
  run s c :=
    let i := u8 c.p 0
    let bits := bitsOf (fieldOff i) (fuseValue c)
    let unburned := bits.filter fun k => !bit (burnedByte s (k / 8)) (k % 8)
    let t := burnAll s stuck bits
    match unburned.find? fun k => some k = stuck with
    | some k => { state := t, status := stINTERNAL_FAULT, payload := nackBytes { status := stINTERNAL_FAULT, item := k } }
    | none =>
      if some (doneBit i) = stuck then
        { state := t, status := stINTERNAL_FAULT, payload := nackBytes { status := stINTERNAL_FAULT, item := doneBit i } }
      else { state := burnBit t (doneBit i), effect := none }

/-- FUSE_PROGRAM: `stuck` names a bit that still reads 0 after three burns, if there is one. -/
def execFuseProgram (ch : Fin 32) (stuck : Option (Fin 4096)) (s : State) : Result :=
  .next (runCommand (defFuseProgram (stuck.map (·.val))) ch s)

/-! ### FUSE.LOCK -/

def defFuseLock : CommandDef where
  opcode := 0x1203
  exempt := true
  fuseMode := true
  lenOk c := c.len == 4
  check s c := firstOf [need (s.fuseSense && !boardLock s) { status := stREFUSED_LOCK }, need (u32 c.p 0 == 0x4B434F4C) (badArg 0)]
  run s _ := { state := burnBit s (8 * 0x1FF) }

def execFuseLock (ch : Fin 32) (s : State) : Result := .next (runCommand defFuseLock ch s)

/-! ### FUSE.STANDBY, FUSE.NOTE (R551-R554) -/

/-- An output outside the gateable domains stops at its next frame start (R552). -/
def haltOutput (s : State) (d : Nat) : State :=
  let o := getOutput s d
  if ocEnable o.config then
    addShadow s { gen := s.fm.gen, unit := d, body := .output (o.config.set 2 0), targetKind := kindFrame
                  target := firstFrame s d s.now, written := true }
  else s

/-- What the entry into standby does at once (R552): no further command is taken, every gateable domain closes and drains,
and the outputs of domain 0x01 stop. -/
def enterStandby (s : State) (reason : Nat) (host : Bytes) : State :=
  let s := onFw { s with ready := false } fun f => { f with standby := some (reason, host, s.fm.gen, s.fm.jseq) }
  let s := (gateable s).foldl closeDomain s
  ((Tab.keys s.outputs).filter isIp).foldl haltOutput s

def defFuseStandby : CommandDef where
  opcode := 0x1210
  flags := 0x41
  lenOk c := c.len == 136
  check _ c := firstOf [need (u32 c.p 0 != 0xFFFFFFFF) (badArg 0), need (zeroAt c.p 4 4) (badArg 4)]
  admission s _ :=
    firstOf [need (!anyLive s) { status := stREFUSED_LIVE },
             need (s.fw.state != .installing && s.fw.stages.isEmpty) { status := stBUSY_DRAIN }]
  run s c :=
    let t := settleStandby (enterStandby (commitLater s c 0xFFFF) (u32 c.p 0) (sub c.p 8 128))
    if t.fw.noteWritten then { state := journalRest t t.fm.gen s.now, effect := some s.now } else { state := t, wait := some .standby }

def execFuseStandby (ch : Fin 32) (s : State) : Result := .next (runCommand defFuseStandby ch s)

def defFuseNote : CommandDef where
  opcode := 0x1211
  lenOk c := c.len == 0
  run s _ := readDone s (sub s.island.note 0 256)

def execFuseNote (ch : Fin 32) (s : State) : Result := .next (runCommand defFuseNote ch s)

/-! ### The island (R546, R551, R552) -/

def onIsland (s : State) (f : Island → Island) : State := { s with island := f s.island }

/-- MAIN_PWR_EN_FALL (R552): 20 ms after the note is written. -/
def execMainPwrEnFall (s : State) : Result :=
  if s.fw.noteWritten then .next (onIsland s fun i => { i with mainPwrEn := false }) else .next s

/-- NWAKE (R552): nWAKE has been low for 100 µs. While MAIN_PWR_EN is high it is ignored; before MAIN_PWR_EN has been low
for 100 ms (`early`) it waits for the 100 ms mark. -/
def execNwake (early : Bool) (s : State) : Result :=
  if !s.island.powered || s.island.mainPwrEn then .next s
  else if early then .next (onIsland s fun i => { i with wakePending := true })
  else .next (onIsland s fun i => { i with mainPwrEn := true, wakePending := false })

/-- STANDBY_100_MS_MARK (R552): `low` says whether nWAKE is still low. -/
def execStandby100MsMark (low : Bool) (s : State) : Result :=
  if !s.island.powered || s.island.mainPwrEn || !s.island.wakePending then .next s
  else .next (onIsland s fun i => { i with mainPwrEn := low, wakePending := false })

/-- VSTBY_APPLIED (R546, R552): the note is cleared, the TAP is reset, and MAIN_PWR_EN is driven high. -/
def execVstbyApplied (s : State) : Result := .next { s with island := {}, tap := tapReset s.tap }

/-- VSTBY_LOSS (R549, R551): the note is cleared, and MAIN_PWR_EN is low. -/
def execVstbyLoss (s : State) : Result := .next { s with island := { powered := false, mainPwrEn := false } }

end Sys2Proof.Machine
end

