-- ==== Sys2Proof/Machine/Dispatch.lean ====
section
/-! DEFINITION. The meaning of each command: one arm per row of the opcode table, each one call of its meaning. -/

namespace Sys2Proof.Machine

def exec (i : Instr) (s : State) : Host.Outcome State Fault Refusal :=
  match i with
  | .semAcquire p cell tag rival => Sys2Proof.Machine.execSemAcquire p cell tag rival s
  | .semRelease p cell => Sys2Proof.Machine.execSemRelease p cell s
  | .mailboxBufferWrite p ch off data => Sys2Proof.Machine.execMailboxBufferWrite p ch off data s
  | .doorbell p ch epoch => Sys2Proof.Machine.execDoorbell p ch epoch s
  | .awaitedCompletion ch => Sys2Proof.Machine.execAwaitedCompletion ch s
  | .erCtlWrite p v => Sys2Proof.Machine.execErCtlWrite p v s
  | .erConsumerWrite p v => Sys2Proof.Machine.execErConsumerWrite p v s
  | .moderationTimer p => Sys2Proof.Machine.execModerationTimer p s
  | .msixUnmask p v => Sys2Proof.Machine.execMsixUnmask p v s
  | .captureRead p reg => Sys2Proof.Machine.execCaptureRead p reg s
  | .registerWrite p off d full => Sys2Proof.Machine.execRegisterWrite p off d full s
  | .dmaEnable p e vector => Sys2Proof.Machine.execDmaEnable p e vector s
  | .abort p e moved => Sys2Proof.Machine.execAbort p e moved s
  | .dmaTailWrite p e tail => Sys2Proof.Machine.execDmaTailWrite p e tail s
  | .dmaJobTake p e descriptor => Sys2Proof.Machine.execDmaJobTake p e descriptor s
  | .descriptorFetchFail p e => Sys2Proof.Machine.execDescriptorFetchFail p e s
  | .dmaJobEnd p e ok x => Sys2Proof.Machine.execDmaJobEnd p e ok x s
  | .portReset p cause moved => Sys2Proof.Machine.execPortReset p cause moved s
  | .perstDeassert p => Sys2Proof.Machine.execPerstDeassert p s
  | .linkTrained p speed width => Sys2Proof.Machine.execLinkTrained p speed width s
  | .windowRead p w x n => Sys2Proof.Machine.execWindowRead p w x n s
  | .windowWrite p w x data epoch => Sys2Proof.Machine.execWindowWrite p w x data epoch s
  | .lockedReadRequest p => Sys2Proof.Machine.execLockedReadRequest p s
  | .apply p w => Sys2Proof.Machine.execApply p w s
  | .applySwitch p w => Sys2Proof.Machine.execApplySwitch p w s
  | .applyComplete p w => Sys2Proof.Machine.execApplyComplete p w s
  | .sysIdentify ch => Sys2Proof.Machine.execSysIdentify ch s
  | .sysStatus ch => Sys2Proof.Machine.execSysStatus ch s
  | .sysNop ch => Sys2Proof.Machine.execSysNop ch s
  | .sysSupply ch => Sys2Proof.Machine.execSysSupply ch s
  | .channelPending ch => Sys2Proof.Machine.execChannelPending ch s
  | .channelCancel ch => Sys2Proof.Machine.execChannelCancel ch s
  | .gpiEdge g level => Sys2Proof.Machine.execGpiEdge g level s
  | .gpiQualified g => Sys2Proof.Machine.execGpiQualified g s
  | .laneStatus ch => Sys2Proof.Machine.execLaneStatus ch s
  | .laneRxConfig ch => Sys2Proof.Machine.execLaneRxConfig ch s
  | .laneTxConfig ch => Sys2Proof.Machine.execLaneTxConfig ch s
  | .laneGroupFamily ch => Sys2Proof.Machine.execLaneGroupFamily ch s
  | .groupPllLocked g => Sys2Proof.Machine.execGroupPllLocked g s
  | .lanePrbs ch => Sys2Proof.Machine.execLanePrbs ch s
  | .lanePrbsRead ch n errors => Sys2Proof.Machine.execLanePrbsRead ch n errors s
  | .laneSlip ch => Sys2Proof.Machine.execLaneSlip ch s
  | .laneAdapt ch => Sys2Proof.Machine.execLaneAdapt ch s
  | .signalDetected id => Sys2Proof.Machine.execSignalDetected id s
  | .signalLost id => Sys2Proof.Machine.execSignalLost id s
  | .rateHuntStep id => Sys2Proof.Machine.execRateHuntStep id s
  | .cdrLock id family ppm => Sys2Proof.Machine.execCdrLock id family ppm s
  | .cdrLockLoss id => Sys2Proof.Machine.execCdrLockLoss id s
  | .signatureMeasured id sig => Sys2Proof.Machine.execSignatureMeasured id sig s
  | .adaptationDone id code margin => Sys2Proof.Machine.execAdaptationDone id code margin s
  | .trackingStep id step margin => Sys2Proof.Machine.execTrackingStep id step margin s
  | .piLimit n limit ppm => Sys2Proof.Machine.execPiLimit n limit ppm s
  | .laneRecentre n level => Sys2Proof.Machine.execLaneRecentre n level s
  | .prbsSync id => Sys2Proof.Machine.execPrbsSync id s
  | .lanePrbsSyncLost id n errors => Sys2Proof.Machine.execLanePrbsSyncLost id n errors s
  | .alignFound idx => Sys2Proof.Machine.execAlignFound idx s
  | .alignLost idx => Sys2Proof.Machine.execAlignLost idx s
  | .inputContract ch => Sys2Proof.Machine.execInputContract ch s
  | .inputEnable ch => Sys2Proof.Machine.execInputEnable ch s
  | .inputStatus ch => Sys2Proof.Machine.execInputStatus ch s
  | .inputCounters ch => Sys2Proof.Machine.execInputCounters ch s
  | .inputGetContract ch => Sys2Proof.Machine.execInputGetContract ch s
  | .trsLock idx => Sys2Proof.Machine.execTrsLock idx s
  | .sourceFrameStart idx m => Sys2Proof.Machine.execSourceFrameStart idx m s
  | .lineReceived idx l => Sys2Proof.Machine.execLineReceived idx l s
  | .ancPacket idx p => Sys2Proof.Machine.execAncPacket idx p s
  | .frameClose owner dest facts => Sys2Proof.Machine.execFrameClose owner dest facts s
  | .trsTimeout idx => Sys2Proof.Machine.execTrsTimeout idx s
  | .flowSilent idx => Sys2Proof.Machine.execFlowSilent idx s
  | .rateUpdate idx ppm => Sys2Proof.Machine.execRateUpdate idx ppm s
  | .lossHoldExpired idx => Sys2Proof.Machine.execLossHoldExpired idx s
  | .hostSourceStall idx => Sys2Proof.Machine.execHostSourceStall idx s
  | .benchStatus ch => Sys2Proof.Machine.execBenchStatus ch s
  | .benchSlots ch => Sys2Proof.Machine.execBenchSlots ch s
  | .hostframeOpen x => Sys2Proof.Machine.execHostframeOpen x s
  | .hostframeClose x => Sys2Proof.Machine.execHostframeClose x s
  | .benchFenceQuery ch => Sys2Proof.Machine.execBenchFenceQuery ch s
  | .benchFenceNotify ch => Sys2Proof.Machine.execBenchFenceNotify ch s
  | .benchStoreStatus ch => Sys2Proof.Machine.execBenchStoreStatus ch s
  | .benchStoreConfig ch => Sys2Proof.Machine.execBenchStoreConfig ch s
  | .memRefreshDoubled stack temp0 temp1 => Sys2Proof.Machine.execMemRefreshDoubled stack temp0 temp1 s
  | .schedulerPeriod facts => Sys2Proof.Machine.execSchedulerPeriod facts s
  | .benchShrinkDone key => Sys2Proof.Machine.execBenchShrinkDone key s
  | .routeSet ch => Sys2Proof.Machine.execRouteSet ch s
  | .routeGet ch => Sys2Proof.Machine.execRouteGet ch s
  | .routeList ch => Sys2Proof.Machine.execRouteList ch s
  | .routeCounters ch => Sys2Proof.Machine.execRouteCounters ch s
  | .routeTallyGpio ch => Sys2Proof.Machine.execRouteTallyGpio ch s
  | .salvoCreate ch => Sys2Proof.Machine.execSalvoCreate ch s
  | .salvoAdd ch => Sys2Proof.Machine.execSalvoAdd ch s
  | .salvoRemove ch => Sys2Proof.Machine.execSalvoRemove ch s
  | .salvoCommit ch => Sys2Proof.Machine.execSalvoCommit ch s
  | .salvoDiscard ch => Sys2Proof.Machine.execSalvoDiscard ch s
  | .salvoStatus ch => Sys2Proof.Machine.execSalvoStatus ch s
  | .salvoResult ch => Sys2Proof.Machine.execSalvoResult ch s
  | .salvoTimeout idx => Sys2Proof.Machine.execSalvoTimeout idx s
  | .shadowWrite gen => Sys2Proof.Machine.execShadowWrite gen s
  | .classChange d => Sys2Proof.Machine.execClassChange d s
  | .restoreTimer d => Sys2Proof.Machine.execRestoreTimer d s
  | .heldRetry => Sys2Proof.Machine.execHeldRetry s
  | .heldLossHoldExpired d => Sys2Proof.Machine.execHeldLossHoldExpired d s
  | .switchInstant x => Sys2Proof.Machine.execSwitchInstant x s
  | .crusherPoolStatus ch => Sys2Proof.Machine.execCrusherPoolStatus ch s
  | .crusherStatus ch => Sys2Proof.Machine.execCrusherStatus ch s
  | .crusherCounters ch => Sys2Proof.Machine.execCrusherCounters ch s
  | .crusherPolicy ch => Sys2Proof.Machine.execCrusherPolicy ch s
  | .crusherMigrate ch => Sys2Proof.Machine.execCrusherMigrate ch s
  | .crusherService ch => Sys2Proof.Machine.execCrusherService ch s
  | .crusherIdleTimeout k => Sys2Proof.Machine.execCrusherIdleTimeout k s
  | .crusherTableLoad ch => Sys2Proof.Machine.execCrusherTableLoad ch s
  | .crusherTableRead ch => Sys2Proof.Machine.execCrusherTableRead ch s
  | .crusherProfileSet ch => Sys2Proof.Machine.execCrusherProfileSet ch s
  | .crusherProfileGet ch => Sys2Proof.Machine.execCrusherProfileGet ch s
  | .crusherProcStatus ch => Sys2Proof.Machine.execCrusherProcStatus ch s
  | .tableSwitch d => Sys2Proof.Machine.execTableSwitch d s
  | .outputConfig ch => Sys2Proof.Machine.execOutputConfig ch s
  | .outputGetConfig ch => Sys2Proof.Machine.execOutputGetConfig ch s
  | .outputStatus ch => Sys2Proof.Machine.execOutputStatus ch s
  | .outputCounters ch => Sys2Proof.Machine.execOutputCounters ch s
  | .latchCycle d => Sys2Proof.Machine.execLatchCycle d s
  | .outputFrameStart x => Sys2Proof.Machine.execOutputFrameStart x s
  | .outputBlank d field2 => Sys2Proof.Machine.execOutputBlank d field2 s
  | .outputLine d => Sys2Proof.Machine.execOutputLine d s
  | .outputUnderrun d line chased layer => Sys2Proof.Machine.execOutputUnderrun d line chased layer s
  | .ashlarConfig ch => Sys2Proof.Machine.execAshlarConfig ch s
  | .ashlarGetConfig ch => Sys2Proof.Machine.execAshlarGetConfig ch s
  | .ashlarLayers ch => Sys2Proof.Machine.execAshlarLayers ch s
  | .ashlarGetLayers ch => Sys2Proof.Machine.execAshlarGetLayers ch s
  | .ashlarStatus ch => Sys2Proof.Machine.execAshlarStatus ch s
  | .audioMap ch => Sys2Proof.Machine.execAudioMap ch s
  | .audioGetMap ch => Sys2Proof.Machine.execAudioGetMap ch s
  | .audioLevel ch => Sys2Proof.Machine.execAudioLevel ch s
  | .audioEmbed ch => Sys2Proof.Machine.execAudioEmbed ch s
  | .audioCompanion ch => Sys2Proof.Machine.execAudioCompanion ch s
  | .audioFlowMap ch => Sys2Proof.Machine.execAudioFlowMap ch s
  | .audioTone ch => Sys2Proof.Machine.execAudioTone ch s
  | .audioMeters ch => Sys2Proof.Machine.execAudioMeters ch s
  | .audioDestStatus ch => Sys2Proof.Machine.execAudioDestStatus ch s
  | .audioSourceStatus ch => Sys2Proof.Machine.execAudioSourceStatus ch s
  | .audioEngineStatus ch => Sys2Proof.Machine.execAudioEngineStatus ch s
  | .meterBlock facts => Sys2Proof.Machine.execMeterBlock facts s
  | .crossfadeEnd c => Sys2Proof.Machine.execCrossfadeEnd c s
  | .sourceLockQualified c clocks ppm => Sys2Proof.Machine.execSourceLockQualified c clocks ppm s
  | .asrcRelease k => Sys2Proof.Machine.execAsrcRelease k s
  | .sampleSlip c => Sys2Proof.Machine.execSampleSlip c s
  | .burstSlip c fast => Sys2Proof.Machine.execBurstSlip c fast s
  | .rateRange c out => Sys2Proof.Machine.execRateRange c out s
  | .preambleFound c burst both => Sys2Proof.Machine.execPreambleFound c burst both s
  | .nonpcmTimeout c => Sys2Proof.Machine.execNonpcmTimeout c s
  | .audioHalfIdleTimeout h => Sys2Proof.Machine.execAudioHalfIdleTimeout h s
  | .audioportConfig ch => Sys2Proof.Machine.execAudioportConfig ch s
  | .audioportGetConfig ch => Sys2Proof.Machine.execAudioportGetConfig ch s
  | .audioportStatus ch => Sys2Proof.Machine.execAudioportStatus ch s
  | .audioportShare ch => Sys2Proof.Machine.execAudioportShare ch s
  | .audioportCapture ch => Sys2Proof.Machine.execAudioportCapture ch s
  | .audioportCaptureStatus ch => Sys2Proof.Machine.execAudioportCaptureStatus ch s
  | .audioPortFrame p bclks frame => Sys2Proof.Machine.execAudioPortFrame p bclks frame s
  | .portClockLoss p => Sys2Proof.Machine.execPortClockLoss p s
  | .portRateUpdate p ppm bclkKhz whole => Sys2Proof.Machine.execPortRateUpdate p ppm bclkKhz whole s
  | .alignMeasure p ps => Sys2Proof.Machine.execAlignMeasure p ps s
  | .afsAbsent p => Sys2Proof.Machine.execAfsAbsent p s
  | .captureBlock idx start samples => Sys2Proof.Machine.execCaptureBlock idx start samples s
  | .referenceConfig ch => Sys2Proof.Machine.execReferenceConfig ch s
  | .referenceGetConfig ch => Sys2Proof.Machine.execReferenceGetConfig ch s
  | .referenceStatus ch => Sys2Proof.Machine.execReferenceStatus ch s
  | .referenceInput ch => Sys2Proof.Machine.execReferenceInput ch s
  | .referenceInputStatus ch => Sys2Proof.Machine.execReferenceInputStatus ch s
  | .referenceTimeSource ch => Sys2Proof.Machine.execReferenceTimeSource ch s
  | .referenceClkout ch => Sys2Proof.Machine.execReferenceClkout ch s
  | .clkoutStarted k => Sys2Proof.Machine.execClkoutStarted k s
  | .servoTick facts => Sys2Proof.Machine.execServoTick facts s
  | .candidateQualityChange f => Sys2Proof.Machine.execCandidateQualityChange f s
  | .ptpMessage p f => Sys2Proof.Machine.execPtpMessage p f s
  | .wtrExpired e k => Sys2Proof.Machine.execWtrExpired e k s
  | .holdoverExpired e => Sys2Proof.Machine.execHoldoverExpired e s
  | .netPortConfig ch => Sys2Proof.Machine.execNetPortConfig ch s
  | .netPortGetConfig ch => Sys2Proof.Machine.execNetPortGetConfig ch s
  | .netPortStatus ch => Sys2Proof.Machine.execNetPortStatus ch s
  | .netRxFlow ch => Sys2Proof.Machine.execNetRxFlow ch s
  | .netTxFlow ch => Sys2Proof.Machine.execNetTxFlow ch s
  | .netFlowGet ch => Sys2Proof.Machine.execNetFlowGet ch s
  | .netFlowStatus ch => Sys2Proof.Machine.execNetFlowStatus ch s
  | .netModuleIo ch acked data => Sys2Proof.Machine.execNetModuleIo ch acked data s
  | .netLink p goal fecCorrected fecUncorrected => Sys2Proof.Machine.execNetLink p goal fecCorrected fecUncorrected s
  | .qsfpPresentChange p present int => Sys2Proof.Machine.execQsfpPresentChange p present int s
  | .packetReceived p m => Sys2Proof.Machine.execPacketReceived p m s
  | .lineRelease idx e row field2 supplied l => Sys2Proof.Machine.execLineRelease idx e row field2 supplied l s
  | .audioSampleWrite idx e => Sys2Proof.Machine.execAudioSampleWrite idx e s
  | .netLeg kind idx leg live => Sys2Proof.Machine.execNetLeg kind idx leg live s
  | .packetSend kind idx field2 late => Sys2Proof.Machine.execPacketSend kind idx field2 late s
  | .arpTimer p hop => Sys2Proof.Machine.execArpTimer p hop s
  | .igmpReportTimer p group => Sys2Proof.Machine.execIgmpReportTimer p group s
  | .offloadPacket p m => Sys2Proof.Machine.execOffloadPacket p m s
  | .netAddress p addr conflict => Sys2Proof.Machine.execNetAddress p addr conflict s
  | .netDrop p => Sys2Proof.Machine.execNetDrop p s
  | .aditConfig ch => Sys2Proof.Machine.execAditConfig ch s
  | .aditStatus ch => Sys2Proof.Machine.execAditStatus ch s
  | .aditTie ch => Sys2Proof.Machine.execAditTie ch s
  | .aditTieStatus ch => Sys2Proof.Machine.execAditTieStatus ch s
  | .aditMarker idx seed epoch aligned => Sys2Proof.Machine.execAditMarker idx seed epoch aligned s
  | .aditPeriod f => Sys2Proof.Machine.execAditPeriod f s
  | .autoAlignSlip idx => Sys2Proof.Machine.execAutoAlignSlip idx s
  | .ledgerStatus ch => Sys2Proof.Machine.execLedgerStatus ch s
  | .ledgerCeiling ch => Sys2Proof.Machine.execLedgerCeiling ch s
  | .ledgerDelta ch => Sys2Proof.Machine.execLedgerDelta ch s
  | .powerStatus ch => Sys2Proof.Machine.execPowerStatus ch s
  | .powerDomain ch => Sys2Proof.Machine.execPowerDomain ch s
  | .powerList ch => Sys2Proof.Machine.execPowerList ch s
  | .railSample r sample => Sys2Proof.Machine.execRailSample r sample s
  | .cut d => Sys2Proof.Machine.execCut d s
  | .domainOff d => Sys2Proof.Machine.execDomainOff d s
  | .domainWake d => Sys2Proof.Machine.execDomainWake d s
  | .quietCleared d => Sys2Proof.Machine.execQuietCleared d s
  | .eventEnable ch => Sys2Proof.Machine.execEventEnable ch s
  | .eventGet ch => Sys2Proof.Machine.execEventGet ch s
  | .eventStatus ch => Sys2Proof.Machine.execEventStatus ch s
  | .eventPort ch => Sys2Proof.Machine.execEventPort ch s
  | .journalStatus ch => Sys2Proof.Machine.execJournalStatus ch s
  | .journalRead ch => Sys2Proof.Machine.execJournalRead ch s
  | .journalCopy ch => Sys2Proof.Machine.execJournalCopy ch s
  | .coalesceWindowEnd p src => Sys2Proof.Machine.execCoalesceWindowEnd p src s
  | .journalAdvanced => Sys2Proof.Machine.execJournalAdvanced s
  | .fwStatus ch => Sys2Proof.Machine.execFwStatus ch s
  | .fwInstall ch => Sys2Proof.Machine.execFwInstall ch s
  | .installDone flashOk => Sys2Proof.Machine.execInstallDone flashOk s
  | .fwActivate ch => Sys2Proof.Machine.execFwActivate ch s
  | .stageDone => Sys2Proof.Machine.execStageDone s
  | .stageTimeout => Sys2Proof.Machine.execStageTimeout s
  | .selfCheckDone pass => Sys2Proof.Machine.execSelfCheckDone pass s
  | .healthWindowExpired => Sys2Proof.Machine.execHealthWindowExpired s
  | .fwConfirm ch => Sys2Proof.Machine.execFwConfirm ch s
  | .fwRevert ch => Sys2Proof.Machine.execFwRevert ch s
  | .fwLock ch => Sys2Proof.Machine.execFwLock ch s
  | .fwUnlock ch => Sys2Proof.Machine.execFwUnlock ch s
  | .fwPolicy ch => Sys2Proof.Machine.execFwPolicy ch s
  | .fwSave ch => Sys2Proof.Machine.execFwSave ch s
  | .settingsWrite => Sys2Proof.Machine.execSettingsWrite s
  | .fwHostData ch => Sys2Proof.Machine.execFwHostData ch s
  | .nresetFall => Sys2Proof.Machine.execNresetFall s
  | .nresetRise bootSrc portA portB quad fuseSense => Sys2Proof.Machine.execNresetRise bootSrc portA portB quad fuseSense s
  | .loaderStart loaderOk ok0 ok1 => Sys2Proof.Machine.execLoaderStart loaderOk ok0 ok1 s
  | .ready derated => Sys2Proof.Machine.execReady derated s
  | .startBlockPoll loaderOk ok0 ok1 => Sys2Proof.Machine.execStartBlockPoll loaderOk ok0 ok1 s
  | .fuseRead ch => Sys2Proof.Machine.execFuseRead ch s
  | .fuseProgram ch stuck => Sys2Proof.Machine.execFuseProgram ch stuck s
  | .fuseLock ch => Sys2Proof.Machine.execFuseLock ch s
  | .fuseStandby ch => Sys2Proof.Machine.execFuseStandby ch s
  | .fuseNote ch => Sys2Proof.Machine.execFuseNote ch s
  | .mainPwrEnFall => Sys2Proof.Machine.execMainPwrEnFall s
  | .nwake early => Sys2Proof.Machine.execNwake early s
  | .vstbyApplied => Sys2Proof.Machine.execVstbyApplied s
  | .mainRailLoss => Sys2Proof.Machine.execMainRailLoss s
  | .tapReset => Sys2Proof.Machine.execTapReset s
  | .pwrWarnChange level => Sys2Proof.Machine.execPwrWarnChange level s
  | .standby100MsMark low => Sys2Proof.Machine.execStandby100MsMark low s
  | .vstbyLoss => Sys2Proof.Machine.execVstbyLoss s

end Sys2Proof.Machine
end

