-- ==== Sys2Proof/Machine/Tick.lean ====
section
/-! DEFINITION. What passes while no command waits: a period of the 50 MHz oscillator (R84; log entry 4), in
which the reference engines run at their frequencies (R390), and the audio map changes of no destination that have come due (R346).
A posted command of no row is answered when its turn comes (R76). -/

namespace Sys2Proof.Machine

/-- A map change that follows no destination, and is due. -/
def mapDue (s : State) (x : Shadow) : Bool := x.unit == freeUnit && x.targetKind == kindPtp && x.armed && decide (x.target ≤ s.now)

/-- Put such a change in force. -/
def takeMap (s : State) (x : Shadow) : State :=
  match x.body with
  | .audioMap es => settleDelta s (appliedOn (applyMap (dropShadow s x) es) x.gen freeUnit s.now) x.gen
  | _ => s

/-- One period of the oscillator. -/
def tick (s : State) : State :=
  let s := passTime s 20
  let s := match s.fm.doorbells with
    | [] => s
    | ch :: _ => answerUnknown s ch
  (s.fm.shadow.filter (mapDue s)).foldl takeMap s

end Sys2Proof.Machine
end

