-- ==== Sys2Proof/Safety.lean ====
section
/-! DEFINITION. What a safe run is: one no step of which stops; the canonical form every step keeps; and the terms in
which the claims speak of a command's life: admitted, answered, a query that changes nothing, a change of the device. -/

namespace Sys2Proof.Machine

/-- The step of a state answers a next state. -/
def Goes (s : State) : Prop := ∃ t, step s = .next t

/-- A run of `n` steps that none of them stops. -/
def SafeRun : Nat → State → Prop
  | 0, _ => True
  | n + 1, s => ∃ t, step s = .next t ∧ SafeRun n t

/-- Canonical form of every byte memory of the machine: the frame store, the fuses and the map read of them, and the channels' buffers. -/
def MemoryCanonical (s : State) : Prop :=
  Memory.wf s.store.mem = true ∧ Memory.wf s.fuses = true ∧ Memory.wf s.fw.fuseMap = true ∧ ∀ p ∈ s.channels, Memory.wf p.2.buffer = true

/-! ### The life of a command -/

/-- The command in channel `ch` is taken now and passes every check of R74: its doorbell is the oldest, no check of the
list refuses it, it does not carry VALIDATE, and its target has not passed. -/
def Admitted (d : CommandDef) (ch : Fin 32) (s : State) : Prop :=
  takeable s ch d.opcode = true ∧ verdict d (takeDoorbell s ch) (readCmd s ch) = none ∧
  (readCmd s ch).validate = false ∧ d.timing (takeDoorbell s ch) (readCmd s ch) = .onTime

/-- The command in channel `ch` is taken now and the first check of R74 that fails refuses it with `n`. -/
def Refused (d : CommandDef) (ch : Fin 32) (s : State) (n : Nack) : Prop :=
  takeable s ch d.opcode = true ∧ verdict d (takeDoorbell s ch) (readCmd s ch) = some n

/-- The response of R71 stands in the command's channel, which is DONE with the command's SEQ: its status, generation,
EFFECT and payload. -/
def Answered (t : State) (c : Cmd) (status gen : Nat) (effect : Option Nat) (p : Bytes) : Prop :=
  (getChan t c.ch).state = .done ∧ (getChan t c.ch).written = false ∧ (getChan t c.ch).lastSeq = c.seq ∧
  bufRead (getChan t c.ch) 0 (32 + p.length) =
    le 2 c.opcode ++ le 2 status ++ le 4 c.seq ++ le 8 gen ++ le 8 (orOnes effect) ++ le 4 p.length ++ zeros 4 ++ p

/-- Every other channel stands as it did. -/
def OtherChannels (s t : State) (ch : Nat) : Prop := ∀ k, k ≠ ch → getChan t k = getChan s k

/-- Nothing of the device has changed but the command's channel, the doorbell queue, and what the ports sent. -/
def Unmoved (s t : State) (ch : Nat) : Prop :=
  OtherChannels s t ch ∧
  { t with channels := s.channels, portA := s.portA, portB := s.portB, fm := { t.fm with doorbells := s.fm.doorbells } } = s

/-- A field of `n` bytes at offset `off` of a payload holds `v` (R8). -/
def Field (p : Bytes) (off n v : Nat) : Prop := sub p off n = le n v

/-- A command that reads: answered OK with EFFECT all ones at the generation that stands (R71, R79), nothing changed, and a
payload of `n` bytes of which `fields` holds. -/
def Reports (s : State) (c : Cmd) (t : State) (n : Nat) (fields : Bytes → Prop) : Prop :=
  Unmoved s t c.ch ∧ ∃ p, Answered t c stOK s.fm.gen none p ∧ p.length = n ∧ fields p

/-- A command that changes the device at once: the generation advances by one, and it is answered OK with the new
generation, EFFECT and no payload (R71, R79). -/
def Changes (s : State) (c : Cmd) (t : State) (effect : Option Nat) : Prop :=
  t.fm.gen = s.fm.gen + 1 ∧ Answered t c stOK (s.fm.gen + 1) effect []

/-- A command whose response is due later (R86): the generation advances by one and the channel is RUNNING, waiting for
`w`. -/
def Awaits (s : State) (c : Cmd) (t : State) (w : WaitFor) : Prop :=
  t.fm.gen = s.fm.gen + 1 ∧ (getChan t c.ch).state = .running ∧ ((getChan t c.ch).waiting.map (·.cause)) = some w

/-- A queued change (R86, R93): the generation advances by one; without AWAIT the command is answered QUEUED, and with it
the channel is RUNNING until the change takes effect or is withdrawn. -/
def Queues (s : State) (c : Cmd) (t : State) : Prop :=
  t.fm.gen = s.fm.gen + 1 ∧ (c.await = false → ∃ e, Answered t c stQUEUED (s.fm.gen + 1) e []) ∧
  (c.await = true → Awaits s c t (.change (s.fm.gen + 1)))

/-- Every command that waits for `w` has its response due, with `effect` (R86). -/
def Wakes (s t : State) (w : WaitFor) (effect : Option Nat) : Prop :=
  ∀ k x, (getChan s k).waiting = some x → x.cause = w →
    (getChan t k).waiting = some { x with ready := true, reply := { x.reply with effect := effect } }

/-- The destinations from `d0` on that have a route, in order (R231). -/
def listedFrom (s : State) (d0 : Nat) : List Nat := (Tab.keys s.routes).filter fun d => decide (d0 ≤ d) && hasRoute s d

/-- Whenever the byte memories stand in canonical form and the command in a channel is admitted, its row answers a next state of which `post` holds. -/
def Completes (row : Fin 32 → Instr) (d : CommandDef) (post : State → Cmd → State → Prop) : Prop :=
  ∀ ch s, MemoryCanonical s → Admitted d ch s → ∃ t, exec (row ch) s = .next t ∧ post s (readCmd s ch) t

/-- The same of the admitted commands for which `pre` holds. -/
def CompletesWhen (row : Fin 32 → Instr) (d : CommandDef) (pre : State → Cmd → Prop) (post : State → Cmd → State → Prop) :
    Prop :=
  ∀ ch s, MemoryCanonical s → Admitted d ch s → pre s (readCmd s ch) →
    ∃ t, exec (row ch) s = .next t ∧ post s (readCmd s ch) t

/-- Whenever `pre` holds, the row answers a next state of which `post` holds. -/
def Leads (i : Instr) (pre : State → Prop) (post : State → State → Prop) : Prop :=
  ∀ s, pre s → ∃ t, exec i s = .next t ∧ post s t

end Sys2Proof.Machine
end

