-- ==== Sys2Proof/Certificates/Slice0/Obligations.lean ====
section
/-! DEFINITION. The claims about the model, in the order of OBLIGATIONS.json. -/

open Sys2Proof Sys2Proof.Machine

/-- A step takes the command at the front of the queue, and an idle step lets time pass. The queue and the idle step
are the model's own (log entries 1 and 4). -/
def Obligations.StepRunsTheFrontCommand : Prop :=
  (∀ (c : Instr) (rest : List Instr) (s : State), s.pending = c :: rest → step s = exec c { s with pending := rest })
    ∧
  (∀ s : State, s.pending = [] → ∃ t, step s = .next t ∧ t.uptime = s.uptime + 20 ∧ t.pending = [] ∧
    (s.refs.timeSource = none → t.now = s.now + 20) ∧ (s.fm.shadow = [] → s.fm.doorbells = [] → s.refs.timeSource =
    none → t = { s with now := s.now + 20, uptime := s.uptime + 20, refs := t.refs }))

/-- The machine after device reset. The values the tables of R47, R52, R55 and R58 give; R504 for the event settings.
That State.reset stands with nRESET low is log entry 45. -/
def Obligations.ResetState : Prop :=
  (MemoryCanonical State.reset ∧ State.reset.pending = [] ∧ State.reset.ready = false ∧ State.reset.fm.gen = 0 ∧
    State.reset.tieFirst = .a) ∧
  (∀ c, getSem State.reset c = { owner := none, tag := 0, acqCount := 0 } ∧ (getChan State.reset c).state = .idle ∧
    (getChan State.reset c).rejects = 0 ∧ (getChan State.reset c).cplIrq = false ∧ (getChan State.reset c).waiting =
    none) ∧
  (∀ p, (getPort State.reset p).epoch = 0 ∧ (getPort State.reset p).ring.enable = false ∧ (getPort State.reset
    p).ring.producer = 0#32 ∧ (getPort State.reset p).ring.consumer = 0#32 ∧ ∀ e, (getEngine State.reset p e).enable =
    false ∧ (getEngine State.reset p e).done = 0) ∧
  (∀ p i, settingOf State.reset p i = if errorSource i then 1 else 0)

/-- Every step keeps the byte memories in canonical form. The canonical form is the model's representation of the
manual's byte memories (log entry 3). -/
def Obligations.StepKeepsMemoryCanonical : Prop :=
  ∀ s t : State, MemoryCanonical s → step s = .next t → MemoryCanonical t

/-- No step clears a fuse bit. The first sentence of R543: a fuse bit changes only from 0 to 1, whatever the row,
among them FUSE.PROGRAM, FUSE.LOCK, FW.CONFIRM and every reset. -/
def Obligations.FuseBitsOnlyRise : Prop :=
  ∀ (s t : State) (a k : Nat), MemoryCanonical s → step s = .next t → bit (burnedByte s a) k = true → bit (burnedByte
    t a) k = true

/-- Within one boot the generation never returns to an earlier value. R80: within one boot the generation never
returns to an earlier value. -/
def Obligations.GenerationOnlyRises : Prop :=
  ∀ s t : State, step s = .next t → s.fm.gen ≤ t.fm.gen ∨ t.ready = false ∨ s.fw.phase = .foreman

/-- No command changes the queue of commands that wait. The queue is the model's own (log entry 1). -/
def Obligations.ExecLeavesTheQueue : Prop :=
  ∀ (i : Instr) (s t : State), exec i s = .next t → t.pending = s.pending

/-- SYS and CHANNEL commands complete with what R97 to R101 give them. R97 to R101: the SYS and CHANNEL groups. The
times and counts are those of the state the command finds. -/
def Obligations.SysCommandsComplete : Prop :=
  (Completes Instr.sysIdentify defSysIdentify fun s c t => Reports s c t 48 fun p => Field p 0 4 (productWord s) ∧
    Field p 8 8 (serialNumber s) ∧ Field p 40 2 0x0300 ∧ Field p 42 2 3968 ∧ Field p 44 4 0) ∧
  (Completes Instr.sysStatus defSysStatus fun s c t => Reports s c t 64 fun p => Field p 0 8 s.fm.gen ∧ Field p 16 8
    s.now ∧ Field p 25 1 (flag s.pwrWarn + 2 * flag s.fm.lowBattery) ∧ Field p 32 4 s.fm.changes.length ∧ Field p 36 4
    (s.uptime / 1000000000)) ∧
  (Completes Instr.sysNop defSysNop fun s c t => Unmoved s t c.ch ∧ Answered t c stOK s.fm.gen none c.p) ∧
  (Completes Instr.sysSupply defSysSupply fun s c t => Changes s c t (some s.now) ∧ t.fm.lowBattery = (u8 c.p 0 == 1))
    ∧
  (Completes Instr.channelPending defChannelPending fun s c t => Reports s c t (8 + 32 * min 123 (s.fm.changes.length
    - u32 c.p 0)) fun p => Field p 0 4 s.fm.changes.length ∧ Field p 4 4 (min 123 (s.fm.changes.length - u32 c.p 0)) ∧
    ∀ x, s.fm.changes[u32 c.p 0]? = some x → Field p 8 8 x.gen ∧ Field p 16 8 x.target ∧ Field p 24 2 x.opcode) ∧
  (CompletesWhen Instr.channelCancel defChannelCancel (fun s c => (findChange s (u64 c.p 0)).any (fun x => !hasBegun s
    x) = true) fun s c t => Changes s c t (some s.now) ∧ findChange t (u64 c.p 0) = none ∧ u64 c.p 0 ∈ t.fm.withdrawn)
    ∧
  (CompletesWhen Instr.channelCancel defChannelCancel (fun s c => findChange s (u64 c.p 0) = none) fun s c t =>
    Unmoved s t c.ch ∧ Answered t c stOK s.fm.gen none [])

/-- LANE commands complete with the settings and the response fields of R128. R128: the LANE commands, with R114
(transmit settings), R116 (the group family), R124 and R126 (PRBS) and R127 (the block boundary). -/
def Obligations.LaneCommandsComplete : Prop :=
  (Completes Instr.laneStatus defLaneStatus fun s c t => Unmoved s { t with free := s.free } c.ch ∧ ((getLane s (u16
    c.p 0)).adapting = false → t.free = s.free) ∧ ∃ p, Answered t c stOK s.fm.gen none p ∧ p.length = 32 ∧ Field p 0 2
    (u16 c.p 0) ∧ Field p 2 1 (laneStateNum s (u16 c.p 0)) ∧ Field p 3 1 (laneRate s (u16 c.p 0)) ∧ (isRxLane (u16 c.p
    0) = true → (getLane s (u16 c.p 0)).state = .locked → Field p 5 1 (getLane s (u16 c.p 0)).ctleCode ∧ Field p 6 1
    (getLane s (u16 c.p 0)).eyeMargin) ∧ Field p 8 2 (getLane s (u16 c.p 0)).signature.toNat ∧ Field p 20 4 (getLane s
    (u16 c.p 0)).lockLosses ∧ Field p 24 2 (getLane s (u16 c.p 0)).readapts ∧ Field p 26 2 (getLane s (u16 c.p
    0)).reuses ∧ Field p 28 4 (getLane s (u16 c.p 0)).recentres) ∧
  (Completes Instr.laneRxConfig defLaneRxConfig fun s c t => Changes s c t (some s.now) ∧ (getLane t (u16 c.p
    0)).cfgRate = u8 c.p 2 ∧ (getLane t (u16 c.p 0)).cfgMode = u8 c.p 3 ∧ (getLane t (u16 c.p 0)).cfgCode = u8 c.p 4 ∧
    (getLane t (u16 c.p 0)).invert = bit (u8 c.p 5) 0 ∧ (getLane t (u16 c.p 0)).sigTol = (if u8 c.p 6 = 0 then 4 else
    u8 c.p 6)) ∧
  (Completes Instr.laneTxConfig defLaneTxConfig fun s c t => Changes s c t (some s.now) ∧ (∀ j, j ≠ u16 c.p 0 →
    getLane t j = getLane s j) ∧ getLane t (u16 c.p 0) = { getLane s (u16 c.p 0) with
      swing := some (u8 c.p 2), deemph := some (u8 c.p 3), invert := bit (u8 c.p 4) 0 }) ∧
  (CompletesWhen Instr.laneGroupFamily defLaneGroupFamily (fun s c => powered s (0x10 + u8 c.p 0) = true) fun s c t =>
    Awaits s c t (.groupPll (u8 c.p 0)) ∧ getGroup t (u8 c.p 0) = { family := u8 c.p 1, relocking := true }) ∧
  (CompletesWhen Instr.laneGroupFamily defLaneGroupFamily (fun s c => powered s (0x10 + u8 c.p 0) = false) fun s c t
    => Changes s c t (some s.now) ∧ getGroup t (u8 c.p 0) = { family := u8 c.p 1, relocking := false }) ∧
  (CompletesWhen Instr.lanePrbs defLanePrbs (fun _ c => u8 c.p 2 = 1) fun s c t => Changes s c t (some s.now) ∧
    (getLane t (u16 c.p 0)).prbs.on = true ∧ (getLane t (u16 c.p 0)).prbs.pattern = u8 c.p 3 ∧ (getLane t (u16 c.p
    0)).prbs.invert = bit (u8 c.p 4) 0 ∧ (getLane t (u16 c.p 0)).prbs.bits = 0 ∧ (getLane t (u16 c.p 0)).prbs.errors =
    0 ∧ (u8 c.p 5 ≠ 0 → (getLane t (u16 c.p 0)).prbs.rate = u8 c.p 5)) ∧
  (CompletesWhen Instr.lanePrbs defLanePrbs (fun _ c => u8 c.p 2 = 0) fun s c t => Changes s c t (some s.now) ∧
    (getLane t (u16 c.p 0)).prbs.on = false ∧ (getLane t (u16 c.p 0)).prbs.inSync = false) ∧
  (∀ (n : Nat) (errors : Nat), Completes (fun ch => .lanePrbsRead ch n errors) (defLanePrbsRead n errors) fun s c t =>
    (∃ p, Answered t c stOK s.fm.gen none p ∧ p.length = 32 ∧ Field p 0 8 (getLane t (u16 c.p 0)).prbs.bits ∧ Field p
    8 8 (getLane t (u16 c.p 0)).prbs.errors ∧ Field p 20 1 (flag (getLane s (u16 c.p 0)).prbs.inSync)) ∧ ((getLane s
    (u16 c.p 0)).prbs.inSync = true → (getLane t (u16 c.p 0)).prbs.bits = satAdd 48 (getLane s (u16 c.p 0)).prbs.bits
    n ∧ (getLane t (u16 c.p 0)).prbs.errors = satAdd 48 (getLane s (u16 c.p 0)).prbs.errors errors)) ∧
  (Completes Instr.laneSlip defLaneSlip fun s c t => Changes s c t (some s.now) ∧ (getLane t (u16 c.p 0)).align = 0 ∧
    (getLane t (u16 c.p 0)).boundary = ((getLane s (u16 c.p 0)).boundary + u8 c.p 2) % 64) ∧
  (Completes Instr.laneAdapt defLaneAdapt fun s c t => Changes s c t (some s.now) ∧ (getLane t (u16 c.p 0)).record =
    none)

/-- A receive lane moves through DARK, ACQUIRING and LOCKED as R106 to R111 say. R106 to R113: the states of a receive
lane. A change of an input that its loss brings into force (R94) may also switch the lane off. -/
def Obligations.LaneAcquisition : Prop :=
  (∀ (id : BitVec 16), Leads (.signalDetected id) (fun s => (getLane s id.toNat).state = .dark ∧ adaptationHeld s =
    false) fun s t => (getLane t id.toNat).state = .acquiring ∧ (getLane t id.toNat).cdrLocked = false ∧ (∀ j, j ≠
    id.toNat → getLane t j = getLane s j)) ∧
  (∀ (id : BitVec 16), Leads (.signalLost id) (fun s => (getLane s id.toNat).state = .acquiring ∨ (getLane s
    id.toNat).state = .locked) fun s t => (getLane t id.toNat).cdrLocked = false ∧ ((getLane t id.toNat).state = .dark
    ∨ (getLane t id.toNat).state = .off) ∧ (getLane t id.toNat).lockLosses = (if (getLane s id.toNat).state = .locked
    then satInc 32 (getLane s id.toNat).lockLosses else (getLane s id.toNat).lockLosses) ∧ ((getSource s (sourceOfLane
    s id.toNat)).pendingDisable = false → (getSource s (sourceOfLane s id.toNat)).pendingContract = none → (getLane t
    id.toNat).state = .dark)) ∧
  (∀ (id : BitVec 16), Leads (.rateHuntStep id) (fun s => (getLane s id.toNat).state = .acquiring ∧ (getLane s
    id.toNat).cdrLocked = false ∧ laneSet id.toNat = 0) fun s t => (getLane t id.toNat).rate ∈ huntOrder s id.toNat
    (getLane s id.toNat) ∧ getLane t id.toNat = { getLane s id.toNat with
      rate := (nextRate s id.toNat (getLane s id.toNat)).1, tried := (nextRate s id.toNat (getLane s id.toNat)).2 } ∧
    (∀ j, j ≠ id.toNat → getLane t j = getLane s j)) ∧
  (∀ (id : BitVec 16) (family : Fin 2) (ppm : Int), Leads (.cdrLock id family ppm) (fun s => (getLane s
    id.toNat).state = .acquiring ∧ (getLane s id.toNat).cdrLocked = false) fun s t => getLane t id.toNat =
    { getLane s id.toNat with
      cdrLocked := true, family := family, ppm := ppm, lastLocked := (getLane s id.toNat).rate } ∧ (∀ j, j ≠ id.toNat
    → getLane t j = getLane s j)) ∧
  (∀ (id : BitVec 16), Leads (.cdrLockLoss id) (fun s => (getLane s id.toNat).state = .locked) fun s t => (getLane t
    id.toNat).cdrLocked = false ∧ ((getLane t id.toNat).state = .acquiring ∨ (getLane t id.toNat).state = .off) ∧
    (getLane t id.toNat).lockLosses = satInc 32 (getLane s id.toNat).lockLosses) ∧
  (∀ (id : BitVec 16), Leads (.cdrLockLoss id) (fun s => (getLane s id.toNat).state = .acquiring) fun s t => (getLane
    t id.toNat).cdrLocked = false ∧ (getLane t id.toNat).state = .acquiring ∧ (getLane t id.toNat).lockLosses =
    (getLane s id.toNat).lockLosses ∧ (∀ j, j ≠ id.toNat → getLane t j = getLane s j)) ∧
  (∀ (id : BitVec 16) (sig : BitVec 16), Leads (.signatureMeasured id sig) (fun s => (getLane s id.toNat).state =
    .acquiring ∧ (getLane s id.toNat).cdrLocked = true ∧ (getLane s id.toNat).cfgMode = 2 ∧ adaptationHeld s = false)
    fun s t => (getLane t id.toNat).state = .locked ∧ (getLane t id.toNat).ctleCode = (getLane s id.toNat).cfgCode ∧
    (getLane t id.toNat).signature = sig ∧ (∀ j, j ≠ id.toNat → getLane t j = getLane s j)) ∧
  (∀ (id : BitVec 16) (sig : BitVec 16), Leads (.signatureMeasured id sig) (fun s => (getLane s id.toNat).state =
    .acquiring ∧ (getLane s id.toNat).cdrLocked = true ∧ (getLane s id.toNat).cfgMode ≠ 2 ∧ recordServes (getLane s
    id.toNat) sig = true ∧ adaptationHeld s = false) fun s t => (getLane t id.toNat).state = .locked ∧ (getLane t
    id.toNat).reuses = satInc 16 (getLane s id.toNat).reuses ∧ ((getLane s id.toNat).record.map (·.code)) = some
    (getLane t id.toNat).ctleCode ∧ (getLane t id.toNat).signature = sig ∧ (∀ j, j ≠ id.toNat → getLane t j = getLane
    s j)) ∧
  (∀ (id : BitVec 16) (sig : BitVec 16), Leads (.signatureMeasured id sig) (fun s => (getLane s id.toNat).state =
    .acquiring ∧ (getLane s id.toNat).cdrLocked = true ∧ (getLane s id.toNat).cfgMode ≠ 2 ∧ recordServes (getLane s
    id.toNat) sig = false ∧ adaptationHeld s = false) fun s t => (getLane t id.toNat).state = .acquiring ∧ (getLane t
    id.toNat).adapting = true ∧ (getLane t id.toNat).record = (getLane s id.toNat).record ∧ (getLane t
    id.toNat).signature = sig ∧ (∀ j, j ≠ id.toNat → getLane t j = getLane s j)) ∧
  (∀ (id : BitVec 16) (code : Fin 41) (margin : Byte), Leads (.adaptationDone id code margin) (fun s => (getLane s
    id.toNat).state = .acquiring ∧ (getLane s id.toNat).cdrLocked = true ∧ (getLane s id.toNat).adapting = true ∧
    adaptationHeld s = false) fun s t => (getLane t id.toNat).state = .locked ∧ (getLane t id.toNat).ctleCode = code ∧
    (getLane t id.toNat).eyeMargin = margin.toNat ∧ (getLane t id.toNat).readapts = satInc 16 (getLane s
    id.toNat).readapts ∧ (getLane t id.toNat).record = some
    { code := code, signature := (getLane s id.toNat).signature, rate := (getLane s id.toNat).rate } ∧ (∀ j, j ≠
    id.toNat → getLane t j = getLane s j)) ∧
  (∀ (id : BitVec 16) (step : Option Bool) (margin : Byte), Leads (.trackingStep id step margin) (fun s => (getLane s
    id.toNat).state = .locked ∧ (getLane s id.toNat).cfgMode = 1 ∧ mayStep s id.toNat = true ∧ adaptationHeld s =
    false) fun s t => (getLane t id.toNat).ctleCode = (if step = some true then min ((getLane s id.toNat).ctleCode +
    1) 40 else if step = some false then (getLane s id.toNat).ctleCode - 1 else (getLane s id.toNat).ctleCode) ∧
    (getLane t id.toNat).eyeMargin = margin.toNat ∧ ((getLane s id.toNat).record.isSome → ((getLane t
    id.toNat).record.map (·.code)) = some (getLane t id.toNat).ctleCode) ∧ (getLane t id.toNat).state = .locked ∧ (∀
    j, j ≠ id.toNat → getLane t j = getLane s j))

/-- PLL lock, interpolator, elastic buffer, PRBS checker and alignment events do what R116, R118, R126 and R127 say.
R116 (the group PLL), R118 (the interpolator and its elastic buffer), R126 (the PRBS checker) and R127 (block
alignment). -/
def Obligations.LaneEventsComplete : Prop :=
  (∀ (g : Fin 16), Leads (.groupPllLocked g) (fun s => (getGroup s g.val).relocking = true) fun s t => getGroup t
    g.val = { getGroup s g.val with relocking := false } ∧ Wakes s t (.groupPll g.val) (some s.now)) ∧
  (∀ (n : Fin 128) (limit : Bool) (ppm : Int), Leads (.piLimit n limit ppm) (fun s => (getOutput s (gangOf s
    n.val)).following = true ∧ (getLane s (0x100 + n.val)).piLimit ≠ limit) fun s t => getLane t (0x100 + n.val) =
    { getLane s (0x100 + n.val) with piLimit := limit } ∧ (∀ j, j ≠ 0x100 + n.val → getLane t j = getLane s j) ∧
    (limit = true → (getSource t (reSource (getRoute s (gangOf s n.val)).entry)).counts.demotionTriggers = satInc 32
    (getSource s (reSource (getRoute s (gangOf s n.val)).entry)).counts.demotionTriggers)) ∧
  (∀ (n : Fin 128) (level : Fin 65), Leads (.laneRecentre n level) (fun s => (getLane s (0x100 + n.val)).piLimit =
    true ∧ 4 < level.val ∧ level.val < 60) fun s t => getLane t (0x100 + n.val) =
    { getLane s (0x100 + n.val) with buffer := level } ∧ (∀ j, j ≠ 0x100 + n.val → getLane t j = getLane s j)) ∧
  (∀ (n : Fin 128) (level : Fin 65), Leads (.laneRecentre n level) (fun s => (getLane s (0x100 + n.val)).piLimit =
    true ∧ (level.val ≤ 4 ∨ 60 ≤ level.val)) fun s t => getLane t (0x100 + n.val) = { getLane s (0x100 + n.val) with
      buffer := 32, recentres := satInc 32 (getLane s (0x100 + n.val)).recentres } ∧ (∀ j, j ≠ 0x100 + n.val → getLane
    t j = getLane s j)) ∧
  (∀ (id : BitVec 16), Leads (.prbsSync id) (fun s => (getLane s id.toNat).prbs.on = true ∧ isRxLane id.toNat = true ∧
    (getLane s id.toNat).cdrLocked = true) fun s t => (getLane t id.toNat).prbs.inSync = true ∧ (getLane t
    id.toNat).prbs.bits = (getLane s id.toNat).prbs.bits ∧ (∀ j, j ≠ id.toNat → getLane t j = getLane s j)) ∧
  (∀ (id : BitVec 16) (n : Nat) (errors : Nat), Leads (.lanePrbsSyncLost id n errors) (fun s => (getLane s
    id.toNat).prbs.on = true ∧ (getLane s id.toNat).prbs.inSync = true) fun s t => (getLane t id.toNat).prbs.inSync =
    false ∧ (getLane t id.toNat).prbs.syncLosses = satInc 32 (getLane s id.toNat).prbs.syncLosses ∧ (getLane t
    id.toNat).prbs.bits = satAdd 48 (getLane s id.toNat).prbs.bits n ∧ (getLane t id.toNat).prbs.errors = satAdd 48
    (getLane s id.toNat).prbs.errors errors ∧ (∀ j, j ≠ id.toNat → getLane t j = getLane s j)) ∧
  (∀ (i : Fin 8), Leads (.alignFound i) (fun s => (getLane s (0x400 + i.val)).state = .locked) fun s t => getLane t
    (0x400 + i.val) = { getLane s (0x400 + i.val) with align := 1 }) ∧
  (∀ (i : Fin 8), Leads (.alignLost i) (fun s => (getLane s (0x400 + i.val)).align = 1) fun s t => (getLane t (0x400 +
    i.val)).align = 2 ∧ (getLane t (0x400 + i.val)).state = (getLane s (0x400 + i.val)).state)

/-- INPUT commands complete as R136, R163 and R164 say. R136 (the frame boundary of a contract change), R163 and R164
(the INPUT commands). -/
def Obligations.InputCommandsComplete : Prop :=
  (CompletesWhen Instr.inputContract defInputContract (fun s c => (getSource s (u16 c.p 0)).enabled = false) fun s c t
    => Changes s c t (some s.now) ∧ (getSource t (u16 c.p 0)).contract = some c.p ∧ ∀ j, j ≠ u16 c.p 0 → getSource t j
    = getSource s j) ∧
  (CompletesWhen Instr.inputContract defInputContract (fun s c => (getSource s (u16 c.p 0)).enabled = true ∧
    isHostSource (u16 c.p 0) = false ∧ atRest s (u16 c.p 0) = false) fun s c t => Awaits s c t (.boundary (u16 c.p 0))
    ∧ (getSource t (u16 c.p 0)).pendingContract = some c.p ∧ (getSource t (u16 c.p 0)).contract = (getSource s (u16
    c.p 0)).contract ∧ ∀ j, j ≠ u16 c.p 0 → getSource t j = getSource s j) ∧
  (CompletesWhen Instr.inputContract defInputContract (fun s c => (getSource s (u16 c.p 0)).enabled = true ∧
    (isHostSource (u16 c.p 0) = true ∨ atRest s (u16 c.p 0) = true)) fun s c t => t.fm.gen = s.fm.gen + 1 ∧ (getSource
    t (u16 c.p 0)).contract = some c.p ∧ (getSource t (u16 c.p 0)).pendingContract = none) ∧
  (CompletesWhen Instr.inputEnable defInputEnable (fun _ c => u8 c.p 2 = 1) fun s c t => Changes s c t (some s.now) ∧
    (getSource t (u16 c.p 0)).enabled = true ∧ ((getSource s (u16 c.p 0)).enabled = false → isHostSource (u16 c.p 0) =
    true → (getSource t (u16 c.p 0)).state = .formatted)) ∧
  (CompletesWhen Instr.inputEnable defInputEnable (fun s c => u8 c.p 2 = 0 ∧ (getSource s (u16 c.p 0)).enabled = true
    ∧ isHostSource (u16 c.p 0) = false ∧ atRest s (u16 c.p 0) = false) fun s c t => Awaits s c t (.boundary (u16 c.p
    0)) ∧ (getSource t (u16 c.p 0)).pendingDisable = true ∧ (getSource t (u16 c.p 0)).enabled = true) ∧
  (CompletesWhen Instr.inputEnable defInputEnable (fun s c => u8 c.p 2 = 0 ∧ (getSource s (u16 c.p 0)).enabled = true
    ∧ (isHostSource (u16 c.p 0) = true ∨ atRest s (u16 c.p 0) = true)) fun s c t => t.fm.gen = s.fm.gen + 1 ∧
    (getSource t (u16 c.p 0)).enabled = false ∧ (getSource t (u16 c.p 0)).state = .absent) ∧
  (CompletesWhen Instr.inputEnable defInputEnable (fun s c => u8 c.p 2 = 0 ∧ (getSource s (u16 c.p 0)).enabled =
    false) fun s c t => t.fm.gen = s.fm.gen + 1 ∧ (getSource t (u16 c.p 0)).enabled = false) ∧
  (Completes Instr.inputStatus defInputStatus fun s c t => Reports s c t 64 fun p => Field p 0 2 (u16 c.p 0) ∧ Field p
    2 1 (sourceNum (getSource s (u16 c.p 0)).state) ∧ Field p 4 1 (getSource s (u16 c.p 0)).cause ∧ Field p 6 2
    (getSource s (u16 c.p 0)).formatChanges ∧ Field p 24 4 (getSource s (u16 c.p 0)).payloadId.toNat ∧ Field p 32 8
    (getSource s (u16 c.p 0)).lastFrame ∧ Field p 40 8 (getSource s (u16 c.p 0)).stateSince ∧ Field p 48 8 (getSource
    s (u16 c.p 0)).timecode.toNat) ∧
  (Completes Instr.inputCounters defInputCounters fun s c t => Reports s c t 112 fun p => Field p 0 2 (u16 c.p 0) ∧
    Field p 8 8 (getSource s (u16 c.p 0)).counts.framesComplete ∧ Field p 16 8 (getSource s (u16 c.p
    0)).counts.framesIncomplete ∧ Field p 32 4 (getSource s (u16 c.p 0)).counts.shortFrames ∧ Field p 52 4 (getSource
    s (u16 c.p 0)).counts.crcErrors ∧ Field p 88 4 (getSource s (u16 c.p 0)).counts.losses ∧ Field p 104 8 s.now) ∧
  (Completes Instr.inputGetContract defInputGetContract fun s c t => Unmoved s t c.ch ∧ Answered t c stOK s.fm.gen
    none (((getSource s (u16 c.p 0)).pendingContract.or (getSource s (u16 c.p 0)).contract).getD (le 2 (u16 c.p 0) ++
    zeros 38)))

/-- What a source's signal brings: locking, frame starts, lines, packets, rate updates and losses (R138 to R165). R138
to R165: the states of a source and its counters. The measured facts of each row are the command's operands (log entry
85). -/
def Obligations.SourceEventsComplete : Prop :=
  (∀ (i : BitVec 16), Leads (.trsLock i) (fun s => (getSource s i.toNat).enabled = true ∧ wordsArrive s i.toNat = true
    ∧ ((getSource s i.toNat).state = .locking ∨ (getSource s i.toNat).state = .lost)) fun _ t => (getSource t
    i.toNat).state = .locked ∧ (getSource t i.toNat).framesMeasured = 0 ∧ (getSource t i.toNat).contractBreach = false
    ∧ (getSource t i.toNat).enabled = true) ∧
  (∀ (i : BitVec 16) (m : FrameFacts), Leads (.sourceFrameStart i m) (fun s => (getSource s i.toNat).enabled = true ∧
    isHostSource i.toNat = false ∧ (getSource s i.toNat).state = .locked ∧ (getSource s i.toNat).framesMeasured = 0 ∧
    (getSource s i.toNat).pendingDisable = false) fun s t => (getSource t i.toNat).state = .locked ∧ (getSource t
    i.toNat).framesMeasured = 1 ∧ (getSource t i.toNat).payloadId = m.pid.getD 0 ∧ (getSource t i.toNat).frameStart =
    s.now) ∧
  (∀ (i : BitVec 16) (m : FrameFacts), Leads (.sourceFrameStart i m) (fun s => (getSource s i.toNat).enabled = true ∧
    isHostSource i.toNat = false ∧ (getSource s i.toNat).state = .formatted ∧ (getSource s i.toNat).pendingDisable =
    false ∧ (getSource s i.toNat).pendingContract = none ∧ m.skewed = false ∧ measuredFormat ((getSource s
    i.toNat).contract.getD []) m = sourceFormat (getSource s i.toNat)) fun s t => (getSource t i.toNat).state =
    .formatted ∧ ((getSource t i.toNat).frame.map (·.number)) = some (nextFrame s (benchKey i.toNat false)) ∧
    nextFrame t (benchKey i.toNat false) = nextFrame s (benchKey i.toNat false) + 1) ∧
  (∀ (i : BitVec 16) (m : FrameFacts), Leads (.sourceFrameStart i m) (fun s => (getSource s i.toNat).enabled = true ∧
    isHostSource i.toNat = false ∧ (getSource s i.toNat).state = .formatted ∧ (getSource s i.toNat).pendingDisable =
    false ∧ (getSource s i.toNat).pendingContract = none ∧ m.skewed = false ∧ measuredFormat ((getSource s
    i.toNat).contract.getD []) m ≠ sourceFormat (getSource s i.toNat) ∧ withinContract ((getSource s
    i.toNat).contract.getD []) (measuredFormat ((getSource s i.toNat).contract.getD []) m) = false) fun _ t =>
    (getSource t i.toNat).state = .locked ∧ (getSource t i.toNat).contractBreach = true ∧ (getSource t i.toNat).frame
    = none) ∧
  (∀ (i : BitVec 16) (l : LineFacts), Leads (.lineReceived i l) (fun s => (getSource s i.toNat).enabled = true ∧
    isHostSource i.toNat = false ∧ (getSource s i.toNat).state = .formatted ∧ l.active = true ∧ l.field2 = false ∧
    (isSdi i.toNat = true → closing s (0x10 + i.toNat / 8) = false) ∧ ((getSource s i.toNat).frame.any fun f => decide
    (f.field1 < fieldLines (sourceFormat (getSource s i.toNat)))) = true) fun s t => ((getSource t i.toNat).frame.map
    (·.field1)) = ((getSource s i.toNat).frame.map (·.field1 + 1)) ∧ ((getSource t i.toNat).frame.map (·.field2)) =
    ((getSource s i.toNat).frame.map (·.field2)) ∧ (l.trs = .bad → (getSource t i.toNat).counts.trsErrors = satInc 32
    (getSource s i.toNat).counts.trsErrors)) ∧
  (∀ (i : BitVec 16) (l : LineFacts), Leads (.lineReceived i l) (fun s => isSdi i.toNat = true ∧ closing s (0x10 +
    i.toNat / 8) = true) fun s t => (getDomain t (0x10 + i.toNat / 8)).spoil = ((getDomain s (0x10 + i.toNat /
    8)).spoil + 1) % 2 ^ 64 ∧ t.sources = s.sources ∧ t.store = s.store) ∧
  (∀ (i : BitVec 16) (k : AncPacket) (v : BitVec 32), Leads (.ancPacket i k) (fun s => (getSource s i.toNat).enabled =
    true ∧ isHostSource i.toNat = false ∧ (getSource s i.toNat).state = .formatted ∧ k.checksumOk = true ∧ k.fits =
    true ∧ k.kind = .payloadId v ∧ isIp i.toNat = false) fun s t => (getSource t i.toNat).payloadId = v ∧ (getSource t
    i.toNat).pidPresent = true ∧ (getSource t i.toNat).counts = (getSource s i.toNat).counts) ∧
  (∀ (i : BitVec 16) (k : AncPacket), Leads (.ancPacket i k) (fun s => (getSource s i.toNat).enabled = true ∧
    isHostSource i.toNat = false ∧ (getSource s i.toNat).state = .formatted ∧ k.checksumOk = false ∧ isIp i.toNat =
    false) fun s t => (getSource t i.toNat).counts.ancChecksum = satInc 32 (getSource s i.toNat).counts.ancChecksum ∧
    t.store = s.store) ∧
  (∀ (i : BitVec 16) (k : AncPacket) (f : FrameIn), Leads (.ancPacket i k) (fun s => (getSource s i.toNat).enabled =
    true ∧ isHostSource i.toNat = false ∧ (getSource s i.toNat).state = .formatted ∧ k.checksumOk = true ∧ k.fits =
    true ∧ k.kind = .other ∧ isIp i.toNat = false ∧ (getSource s i.toNat).frame = some f ∧ f.ancCharged + packetCharge
    k ≤ ctAncQuota ((getSource s i.toNat).contract.getD [])) fun s t => ((getSource t i.toNat).frame.map
    (·.ancCharged)) = some (f.ancCharged + packetCharge k) ∧ (getSource t i.toNat).counts = (getSource s
    i.toNat).counts) ∧
  (∀ (i : BitVec 16) (ppm : Int), Leads (.rateUpdate i ppm) (fun s => (getSource s i.toNat).state = .locked ∨
    (getSource s i.toNat).state = .formatted) fun s t => (getSource t i.toNat).ratePpm = deviceRate s ppm ∧ (isSdi
    i.toNat = true → (getLane t i.toNat).ppm = ppm) ∧ (2 ≤ (getSource s i.toNat).outCount → (10 * ppm - timeOffset s <
    -(1000 * (ctRateTol ((getSource s i.toNat).contract.getD []) : Int)) ∨ 1000 * (ctRateTol ((getSource s
    i.toNat).contract.getD []) : Int) < 10 * ppm - timeOffset s) → (getSource t i.toNat).rateBreach = true)) ∧
  (∀ (i : BitVec 16), Leads (.lossHoldExpired i) (fun s => (getSource s i.toNat).lossHoldRunning = true ∧ (getSource s
    i.toNat).lossHoldEnd.isSome) fun s t => (getSource t i.toNat).lossHoldRunning = false ∧ (getSource t
    i.toNat).lossHoldExpired = true ∧ (getSource t i.toNat).blackNow = true ∧ (getSource t i.toNat).state = (if
    (getSource s i.toNat).state = .lost ∧ noSignal s i.toNat = true then .absent else (getSource s i.toNat).state)) ∧
  (∀ (i : BitVec 16), Leads (.hostSourceStall i) (fun s => isHostSource i.toNat = true ∧ ctHostStall ((getSource s
    i.toNat).contract.getD []) ≠ 0 ∧ (getSource s i.toNat).state = .formatted) fun s t => (getSource t i.toNat).state
    = .lost ∧ (getSource t i.toNat).cause = cHOST_STALL ∧ (getSource t i.toNat).counts.losses = satInc 32 (getSource s
    i.toNat).counts.losses) ∧
  (∀ (i : BitVec 16), Leads (.trsTimeout i) (fun s => isIp i.toNat = false ∧ isHostSource i.toNat = false ∧ (getSource
    s i.toNat).state = .formatted) fun s t => ((getSource t i.toNat).state = .lost ∨ (getSource t i.toNat).state =
    .absent) ∧ (getSource t i.toNat).frame = none ∧ (getSource t i.toNat).counts.losses = satInc 32 (getSource s
    i.toNat).counts.losses ∧ ((getSource s i.toNat).pendingDisable = false → (getSource t i.toNat).state = .lost)) ∧
  (∀ (i : BitVec 16), Leads (.trsTimeout i) (fun s => isIp i.toNat = false ∧ isHostSource i.toNat = false ∧ (getSource
    s i.toNat).state = .locked) fun _ t => (getSource t i.toNat).state = .locking) ∧
  (∀ (i : BitVec 16) (facts : CloseFacts) (f : FrameIn), Leads (.frameClose i false facts) (fun s => isPattern i.toNat
    = false ∧ isAshlarObj i.toNat = false ∧ (getSource s i.toNat).frame = some f ∧ frameWhole (sourceFormat (getSource
    s i.toNat)) f = true ∧ f.slot.isSome) fun s t => (getSource t i.toNat).frame = none ∧ (getSource t
    i.toNat).lastFrame = f.number ∧ (getSource t i.toNat).counts.framesComplete = (getSource s
    i.toNat).counts.framesComplete + 1)

/-- BENCH and HOSTFRAME commands complete as R184, R185, R201 and R202 say. R184, R185, R201 and R202: the commands on
benches, host frames, fences and the store. Die temperatures are free values before any is measured (log entry 106).
-/
def Obligations.BenchCommandsComplete : Prop :=
  (Completes Instr.benchStatus defBenchStatus fun s c t => OtherChannels s t c.ch ∧ ∃ b p, getBench s (namedBench c) =
    some b ∧ Answered t c stOK s.fm.gen none p ∧ p.length = 64 ∧ Field p 0 2 (u16 c.p 0) ∧ Field p 3 1 b.slots ∧ Field
    p 8 4 (benchPitch b) ∧ Field p 32 8 (Tab.get s.store.skipped (namedBench c) 0) ∧ Field p 48 8 s.now ∧ ∀ n,
    newestFrame b = some n → Field p 24 8 n) ∧
  (Completes Instr.benchSlots defBenchSlots fun s c t => ∃ b, getBench s (namedBench c) = some b ∧ Reports s c t 272
    fun p => Field p 0 2 (u16 c.p 0) ∧ Field p 3 1 b.slots ∧ Field p 8 8 s.now ∧ ∀ i, i < 16 → i < b.slots → Field p
    (16 + 16 * i) 8 (getSlot b i).frame ∧ Field p (24 + 16 * i) 1 (slotNum (getSlot b i).state)) ∧
  (∀ (landed : List Landed), Completes (fun ch => .hostframeOpen ⟨ch, landed⟩) (defHostframeOpen landed) fun s c t =>
    ∃ b b1, getBench s (benchKey (u16 c.p 0) false) = some b ∧ Answered t c stOK s.fm.gen none (le 8 (nextFrame s
    (benchKey (u16 c.p 0) false)) ++ le 4 (benchPitch b) ++ zeros 4) ∧ nextFrame t (benchKey (u16 c.p 0) false) =
    nextFrame s (benchKey (u16 c.p 0) false) + 1 ∧ getBench t (benchKey (u16 c.p 0) false) = some b1 ∧ (getSlot b1 (u8
    c.p 2)).state = .landing ∧ (getSlot b1 (u8 c.p 2)).frame = nextFrame s (benchKey (u16 c.p 0) false)) ∧
  (∀ (landed : List Landed), Completes (fun ch => .hostframeClose ⟨ch, landed⟩) (defHostframeClose landed) fun s c t
    => ∃ b b1, getBench s (benchKey (u16 c.p 0) false) = some b ∧ Answered t c stOK s.fm.gen none (le 8 (getSlot b (u8
    c.p 2)).frame) ∧ getBench t (benchKey (u16 c.p 0) false) = some b1 ∧ (getSlot b1 (u8 c.p 2)).state = (if u8 c.p 3
    = 0 then SlotState.complete else .incomplete) ∧ (getSlot b1 (u8 c.p 2)).close = s.now ∧ (getSource t (u16 c.p
    0)).lastFrame = (getSlot b (u8 c.p 2)).frame) ∧
  (Completes Instr.benchFenceQuery defBenchFenceQuery fun s c t => Reports s c t 16 fun p => Field p 0 1 (flag
    (fenceSatisfied s (sub c.p 0 16) (fenceEpoch s (sub c.p 0 16)))) ∧ (fenceSatisfied s (sub c.p 0 16) (fenceEpoch s
    (sub c.p 0 16)) = false → Field p 8 8 noEffect)) ∧
  (Completes Instr.benchFenceNotify defBenchFenceNotify fun s c t => Answered t c stOK s.fm.gen none [] ∧
    (fenceSatisfied s (sub c.p 0 16) (fenceEpoch s (sub c.p 0 16)) = false → ∃ n ∈ t.store.notifies, n.fence = sub c.p
    0 16 ∧ n.tag = u16 c.p 16)) ∧
  (Completes Instr.benchStoreStatus defBenchStoreStatus fun s c t => OtherChannels s t c.ch ∧ t.store = s.store ∧ ∃ p,
    Answered t c stOK s.fm.gen none p ∧ p.length = 64 ∧ Field p 0 4 (mbs (reservedRate s)) ∧ Field p 8 4 1150000 ∧
    Field p 12 4 (1000 * s.store.beCap) ∧ Field p 16 4 (throughput (sumOf (s.store.traffic.map (·.1)))) ∧ Field p 20 4
    (throughput (sumOf (s.store.traffic.map (·.2)))) ∧ Field p 24 2 poolBlocks ∧ (∀ a b, s.store.temps = some (a, b) →
    sub p 28 2 = leInt 1 a ++ leInt 1 b) ∧ Field p 30 1 (flag s.store.doubled) ∧ Field p 32 8 s.store.skippedTotal ∧
    Field p 40 8 s.now) ∧
  (Completes Instr.benchStoreConfig defBenchStoreConfig fun s c t => Changes s c t (some s.now) ∧ t.store =
    { s.store with beCap := u16 c.p 0 })

/-- Interleave, request order, refresh, scheduler periods, converted and pattern frames, and the end of a shrink.
R167, R169, R179, R190, R191, R198 and R244. Converted samples and the pattern's picture are free values (log entry
12). -/
def Obligations.StoreEventsComplete : Prop :=
  (∀ (k : Fin 2) (temp0 : Int) (temp1 : Int), Leads (.memRefreshDoubled k temp0 temp1) (fun _ => True) fun s t =>
    t.store = { s.store with
      temps := some (temp0, temp1),
      doubled := if 85 < temp0 ∨ 85 < temp1 then true else if temp0 ≤ 83 ∧ temp1 ≤ 83 then false else s.store.doubled })
    ∧
  (∀ (facts : PeriodFacts), Leads (.schedulerPeriod facts) (fun _ => True) fun s t => t = { s with
      store := { s.store with periods := s.store.periods + 1, credit := t.store.credit, requests := t.store.requests, allowance := t.store.allowance, served := t.store.served, traffic := t.store.traffic } }
    ∧ t.store.traffic.length ≤ measuredPeriods) ∧
  (∀ (k : BitVec 16) (b : Bench), Leads (.benchShrinkDone k) (fun s => getBench s k.toNat = some b ∧ shrinkDone b =
    true) fun s t => ((getBench t k.toNat).map fun x => (x.slots, x.pendingSlots)) = some (b.pendingSlots,
    b.pendingSlots) ∧ Wakes s t (.shrink k.toNat) (some s.now)) ∧
  (∀ (i : BitVec 16) (facts : CloseFacts) (x : Context) (b : Bench) (n : Nat) (j : Nat), Leads (.frameClose i true
    facts) (fun s => getContext s i.toNat = some x ∧ getBench s (benchKey i.toNat true) = some b ∧ x.working = some n
    ∧ landingSlot b = some j ∧ (getSlot b j).frame = n) fun s t => ((getContext t i.toNat).map fun y => (y.working,
    y.lastFrame, y.started)) = some (none, n, true) ∧ (getConv t i.toNat).delivered = (getConv s i.toNat).delivered +
    1 ∧ ((getBench t (benchKey i.toNat true)).map fun y => (getSlot y j).state) = some .complete) ∧
  (∀ (i : BitVec 16) (facts : CloseFacts) (b : Bench) (j : Nat), Leads (.frameClose i false facts) (fun s => isPattern
    i.toNat = true ∧ getBench s (benchKey i.toNat false) = some b ∧ landingSlot b = some j) fun s t => ((getBench t
    (benchKey i.toNat false)).map fun y => (getSlot y j).state) = some .complete ∧ t.free = s.free + pictureSpan) ∧
  (∀ (a i : Nat), i < 6 → (pseudoChannel a).testBit i = (a.testBit (8 + i) != a.testBit (14 + i))) ∧
  (∀ a : Nat, pseudoChannel a < 64 ∧ stackOf a = (if (pseudoChannel a).testBit 5 then 1 else 0)) ∧
  (∀ a b : Nat, a / 16384 = b / 16384 → a / 256 ≠ b / 256 → pseudoChannel a ≠ pseudoChannel b) ∧
  (∀ (s : State) (pc : Nat) (r : Request), nextRequest s pc = some r → r ∈ s.store.requests ∧ pseudoChannel r.addr =
    pc ∧ (∀ q ∈ s.store.requests, pseudoChannel q.addr = pc → (withinCredit s q = true → withinCredit s r = true) ∧
    (isBestEffort q.holder = false → isBestEffort r.holder = false)) ∧ (isBestEffort r.holder = false → ∃ l m,
    s.store.requests = l ++ r :: m ∧ ∀ q ∈ l, pseudoChannel q.addr = pc → isBestEffort q.holder = true ∨ withinCredit
    s q ≠ withinCredit s r)) ∧
  (∀ (s : State) (pc : Nat), nextRequest s pc = none → ∀ q ∈ s.store.requests, pseudoChannel q.addr = pc →
    isBestEffort q.holder = true)

/-- ROUTE commands complete as R205, R229 and R231 say. R205 (what is stored of a removal), R226 and R229 (tallies),
R231 (the ROUTE commands). -/
def Obligations.RouteCommandsComplete : Prop :=
  (Completes Instr.routeSet defRouteSet fun s c t => Queues s c t ∧ (getRoute t (reDest c.p)).committed = (if
    reRemoves c.p then [] else storedEntry c.p) ∧ (getRoute t (reDest c.p)).gen = s.fm.gen + 1 ∧ ∃ x ∈ t.fm.shadow,
    x.unit = reDest c.p ∧ x.gen = s.fm.gen + 1 ∧ ∃ k, x.body = .route (storedEntry c.p) k) ∧
  (Completes Instr.routeGet defRouteGet fun s c t => OtherChannels s t c.ch ∧ t.routes = s.routes ∧ ∃ q, Answered t c
    stOK s.fm.gen none (committedEntry s (u16 c.p 0) ++ q) ∧ q.length = 32 ∧ Field q 0 1 (routeStateNum s (u16 c.p 0))
    ∧ Field q 1 1 (shownClass (getRoute s (u16 c.p 0))) ∧ Field q 8 8 (getRoute s (u16 c.p 0)).effectFrame ∧ Field q
    16 8 (getRoute s (u16 c.p 0)).gen ∧ Field q 24 8 s.now) ∧
  (Completes Instr.routeList defRouteList fun s c t => Reports s c t (8 + 16 * min 240 (listedFrom s (u16 c.p
    0)).length) fun p => Field p 0 2 (min 240 (listedFrom s (u16 c.p 0)).length) ∧ ((listedFrom s (u16 c.p 0)).length
    ≤ 240 → Field p 2 2 0xFFFF) ∧ ∀ d, (listedFrom s (u16 c.p 0)).head? = some d → Field p 8 2 d) ∧
  (Completes Instr.routeCounters defRouteCounters fun s c t => Reports s c t 48 fun p => Field p 0 2 (u16 c.p 0) ∧
    Field p 8 8 (getRoute s (u16 c.p 0)).counts.switches ∧ Field p 16 4 (getRoute s (u16 c.p 0)).counts.classChanges ∧
    Field p 20 4 (getRoute s (u16 c.p 0)).counts.demotions ∧ Field p 40 8 s.now) ∧
  (Completes Instr.routeTallyGpio defRouteTallyGpio fun s c t => Changes s c t (some s.now) ∧ t.tally = (if u8 c.p 1 =
    0 then Tab.erase s.tally (u8 c.p 0) else Tab.set s.tally (u8 c.p 0) { level := u8 c.p 1, source := u16 c.p 2 }) ∧
    ∀ p ∈ t.tally, (p.1 ∈ t.gpioOut ↔ ∃ q ∈ t.tally, q.1 = p.1 ∧ q.2.level ≤ tallyOf s q.2.source))

/-- SALVO commands complete as R221 to R227 and R231 say. R221 to R227 and R231: the life of a salvo. An ended salvo
is kept among the last 256 (R220), so it may be forgotten as it ends. -/
def Obligations.SalvoCommandsComplete : Prop :=
  (Completes Instr.salvoCreate defSalvoCreate fun s c t => Answered t c stOK s.fm.gen none (le 2 s.nextSalvo ++ zeros
    2) ∧ getSalvo t s.nextSalvo = { state := .open, creator := c.port } ∧ t.nextSalvo = (s.nextSalvo + 1) % 65536) ∧
  (Completes Instr.salvoAdd defSalvoAdd fun s c t => Answered t c stOK s.fm.gen none [] ∧ (getSalvo t (u16 c.p
    0)).entries = (addEntries c).foldl mergeEntry (getSalvo s (u16 c.p 0)).entries ∧ (getSalvo t (u16 c.p 0)).state =
    .open ∧ ∀ j, j ≠ u16 c.p 0 → getSalvo t j = getSalvo s j) ∧
  (Completes Instr.salvoRemove defSalvoRemove fun s c t => Answered t c stOK s.fm.gen none [] ∧ (getSalvo t (u16 c.p
    0)) = { (getSalvo s (u16 c.p 0)) with
      entries := (getSalvo s (u16 c.p 0)).entries.filter fun e => reDest e.entry != u16 c.p 2 } ∧ ∀ j, j ≠ u16 c.p 0 →
    getSalvo t j = getSalvo s j) ∧
  (Completes Instr.salvoCommit defSalvoCommit fun s c t => Queues s c t ∧ (getSalvo t (u16 c.p 0)).state = .armed ∧
    (getSalvo t (u16 c.p 0)).gen = s.fm.gen + 1 ∧ (getSalvo t (u16 c.p 0)).target = c.target ∧ (getSalvo t (u16 c.p
    0)).entries = (getSalvo s (u16 c.p 0)).entries) ∧
  (Completes Instr.salvoDiscard defSalvoDiscard fun s c t => Answered t c stOK s.fm.gen none [] ∧ (Tab.has t.salvos
    (u16 c.p 0) = false ∨ (getSalvo t (u16 c.p 0)).state = .discarded)) ∧
  (∀ (i : BitVec 16), Leads (.salvoTimeout i) (fun s => Tab.has s.salvos i.toNat = true ∧ (getSalvo s i.toNat).state =
    .open) fun s t => t.fm = s.fm ∧ (Tab.has t.salvos i.toNat = false ∨ (getSalvo t i.toNat).state = .discarded)) ∧
  (Completes Instr.salvoStatus defSalvoStatus fun s c t => Reports s c t 32 fun p => Field p 0 2 (u16 c.p 0) ∧ Field p
    2 1 (salvoNum (getSalvo s (u16 c.p 0)).state) ∧ Field p 3 1 (getSalvo s (u16 c.p 0)).creator.num ∧ Field p 4 2
    (getSalvo s (u16 c.p 0)).entries.length ∧ Field p 6 2 (getSalvo s (u16 c.p 0)).applied ∧ Field p 8 8 (getSalvo s
    (u16 c.p 0)).gen ∧ Field p 16 8 (getSalvo s (u16 c.p 0)).target ∧ Field p 24 1 (getSalvo s (u16 c.p 0)).kind) ∧
  (Completes Instr.salvoResult defSalvoResult fun s c t => Reports s c t (8 + 16 * min 240 ((getSalvo s (u16 c.p
    0)).entries.length - u16 c.p 2)) fun p => Field p 0 2 (getSalvo s (u16 c.p 0)).entries.length ∧ Field p 2 2 (min
    240 ((getSalvo s (u16 c.p 0)).entries.length - u16 c.p 2)) ∧ ∀ e, (getSalvo s (u16 c.p 0)).entries[u16 c.p 2]? =
    some e → Field p 8 2 (reDest e.entry) ∧ Field p 10 1 (resultNum s (getSalvo s (u16 c.p 0)).gen e) ∧ ((getRoute s
    (reDest e.entry)).state ≠ .held → resultNum s (getSalvo s (u16 c.p 0)).gen e = e.result) ∧ Field p 16 8 (orOnes
    e.effect))

/-- GPI edges, shadow writes, class changes and switch instants do what R210 to R215, R225 and R290 say. R210 to R215,
R225 and R290: what changes a route after its admission. -/
def Obligations.RouteEventsComplete : Prop :=
  (∀ (g : Fin 64) (level : Bool), Leads (.gpiEdge g level) (fun s => Tab.get s.gpioIn g.val true ≠ level) fun s t =>
    Tab.get t.gpioIn g.val true = level ∧ Tab.get t.gpioEdge g.val (!level) = level ∧ t.fm = s.fm) ∧
  (∀ (g : Fin 64) (p : Nat × Bool), Leads (.gpiQualified g) (fun s => s.gpioEdge.find? (fun q => q.1 == g.val) = some
    p ∧ (∃ x ∈ gpiWaiting s g.val, bit x.target 8 ≠ p.2)) fun s t => t.fm.gen = s.fm.gen + 1 ∧ ∀ y ∈ t.fm.changes, (∃
    x ∈ gpiWaiting s g.val, x.gen = y.gen ∧ bit x.target 8 ≠ p.2) → y.armed = true) ∧
  (∀ (gen : Nat), Leads (.shadowWrite gen) (fun _ => True) fun _ t => ∀ x ∈ t.fm.shadow, x.gen = gen → x.written =
    true) ∧
  (∀ (d : BitVec 16), Leads (.classChange d) (fun s => reRemoves (getRoute s d.toNat).entry = false ∧ (getRoute s
    d.toNat).state ≠ .shed ∧ s.updating = false ∧ classPending s d.toNat = false ∧ isAshlarObj d.toNat = false ∧
    fedByAshlar s (reSource (getRoute s d.toNat).entry) d.toNat = false ∧ (getRoute s d.toNat).cls = 1 ∧ reClass
    (getRoute s d.toNat).entry = 0 ∧ (s.triggers.any fun x => x.1 == reSource (getRoute s d.toNat).entry) = true) fun
    s t => t.fm.gen = s.fm.gen + 1 ∧ t.fm.jcount = s.fm.jcount + 1 ∧ ∃ x ∈ t.fm.shadow, x.unit = d.toNat ∧ x.gen =
    s.fm.gen + 1 ∧ x.body = .classChange 2 1) ∧
  (∀ (d : BitVec 16), Leads (.classChange d) (fun s => reRemoves (getRoute s d.toNat).entry = false ∧ (getRoute s
    d.toNat).state = .active ∧ s.updating = false ∧ classPending s d.toNat = false ∧ isAshlarObj d.toNat = false ∧
    fedByAshlar s (reSource (getRoute s d.toNat).entry) d.toNat = false ∧ (getRoute s d.toNat).cls = 2 ∧ reClass
    (getRoute s d.toNat).entry ≠ 0 ∧ formatKnown s (reSource (getRoute s d.toNat).entry) = true ∧ syncEnds s (reSource
    (getRoute s d.toNat).entry) d.toNat = false) fun s t => t.fm.gen = s.fm.gen + 1 ∧ (getRoute t d.toNat).entry =
    (getRoute s d.toNat).entry ∧ (getRoute t d.toNat).state = .active ∧ ∃ x ∈ t.fm.shadow, x.unit = d.toNat ∧ x.gen =
    s.fm.gen + 1 ∧ x.body = .hold 4) ∧
  (∀ (d : BitVec 16), Leads (.restoreTimer d) (fun s => mayRestore s d.toNat = true) fun s t => t.fm.gen = s.fm.gen +
    1 ∧ ∃ x ∈ t.fm.shadow, x.unit = d.toNat ∧ x.gen = s.fm.gen + 1 ∧ x.body = .classChange 1 3) ∧
  (∀ (d : BitVec 16), Leads (.heldLossHoldExpired d) (fun s => (getRoute s d.toNat).state = .held ∧ (lossHoldOf s
    (reSource (getRoute s d.toNat).entry)).isSome = true) fun s t => getRoute t d.toNat =
    { getRoute s d.toNat with heldBlack := true } ∧ ∀ j, j ≠ d.toNat → getRoute t j = getRoute s j) ∧
  (∀ (d : BitVec 16) (dropped : Nat) (x : NextRoute), Leads (.switchInstant ⟨d, dropped⟩) (fun s => isAshlarObj
    d.toNat = false ∧ gangTail s d.toNat = false ∧ isTie d.toNat = false ∧ (getRoute s d.toNat).next = [x]) fun _ t =>
    (getRoute t d.toNat).entry = (if reRemoves x.entry then [] else x.entry) ∧ (getRoute t d.toNat).cls = (if
    reRemoves x.entry then 0 else x.cls) ∧ (getRoute t d.toNat).next = [] ∧ (getRoute t d.toNat).heldCause = (if
    x.reason = 6 then x.cause else 0) ∧ (x.reason = 6 → (getRoute t d.toNat).state = .held) ∧ (getRoute t
    d.toNat).effectFrame = x.frame + (if reRemoves x.entry = false ∧ x.cls = 3 then 1 else 0))

/-- The CRUSHER scheduling commands complete as R243, R250, R255 and R256 say. R242, R243 and R250 to R256: the pool
of Crushers; R213: what is released goes to held routes first. -/
def Obligations.CrusherScheduling : Prop :=
  (Completes Instr.crusherPoolStatus defCrusherPoolStatus fun s c t => Reports s c t 528 fun p => Field p 0 1 s.spares
    ∧ Field p 4 2 (sumOf ((engines s).map fun k => (contextsOn s k).length)) ∧ Field p 6 2 (s.contexts.filter fun q =>
    q.2.migration.isSome).length ∧ Field p 8 8 s.now) ∧
  (Completes Instr.crusherStatus defCrusherStatus fun s c t => Reports s c t 144 fun p => Field p 0 1 (u8 c.p 0) ∧
    Field p 1 1 (engineState s (u8 c.p 0)) ∧ Field p 3 1 (contextsOn s (u8 c.p 0)).length ∧ Field p 8 8 s.now ∧ ∀ q,
    (contextsOn s (u8 c.p 0)).head? = some q → Field p 16 2 q.1 ∧ Field p 18 2 q.2.source ∧ Field p 20 1
    q.2.placement) ∧
  (Completes Instr.crusherCounters defCrusherCounters fun s c t => Reports s c t 48 fun p => Field p 0 2 (u16 c.p 0) ∧
    Field p 8 8 (getConv s (u16 c.p 0)).delivered ∧ Field p 16 4 (getConv s (u16 c.p 0)).late ∧ Field p 28 4 (getConv
    s (u16 c.p 0)).migrations ∧ Field p 40 8 s.now) ∧
  (Completes Instr.crusherPolicy defCrusherPolicy fun s c t => t.spares = u8 c.p 0 ∧ (sparesReady t < spareCount t →
    Awaits s c t .spares) ∧ (spareCount t ≤ sparesReady t → Changes s c t (some s.now))) ∧
  (Completes Instr.crusherMigrate defCrusherMigrate fun s c t => Queues s c t ∧ ∃ k x m, migrateEngine s c = some k ∧
    getContext t (u16 c.p 0) = some x ∧ x.migration = some m ∧ m.engine = k ∧ m.gen = s.fm.gen + 1) ∧
  (CompletesWhen Instr.crusherService defCrusherService (fun _ c => u8 c.p 1 = 1) fun s c t => Changes s c t (some
    s.now) ∧ (getCrusher t (u8 c.p 0)).withdrawn = false) ∧
  (CompletesWhen Instr.crusherService defCrusherService (fun _ c => u8 c.p 1 = 0) fun s c t => (getCrusher t (u8 c.p
    0)).withdrawn = true ∧ (getCrusher t (u8 c.p 0)).spare = false ∧ (contextDests s (u8 c.p 0) = [] → Changes s c t
    (some s.now)) ∧ ((∃ d x, getContext s d = some x ∧ x.engine = u8 c.p 0) → Awaits s c t (.service (u8 c.p 0)))) ∧
  (∀ (k : Fin 32), Leads (.crusherIdleTimeout k) (fun s => (getDomain s (0x20 + k.val)).idle = true ∧ (getDomain s
    (0x20 + k.val)).mode = 0 ∧ domainNeeded s (0x20 + k.val) = false ∧ powered s (0x20 + k.val) = true) fun s t =>
    t.fm.gen = s.fm.gen + 1 ∧ (getDomain t (0x20 + k.val)).idle = false ∧ ((getDomain t (0x20 + k.val)).state = .close
    ∨ (getDomain t (0x20 + k.val)).state = .drain)) ∧
  (∀ (k : Nat), Leads .heldRetry (fun s => heldRoutes s = [] ∧ blockedMigrations s = [] ∧ spareCount s < s.spares ∧
    nextSpare s = some k ∧ currentNack s (makeSpare s k) 0xFFFF = none) fun s t => (getCrusher t k).spare = true ∧
    s.fm.gen < t.fm.gen) ∧
  (∀ (d : Nat), Leads .heldRetry (fun s => heldRoutes s = [d] ∧ s.updating = false ∧ classPending s d = false ∧
    formatKnown s (reSource (getRoute s d).entry) = true ∧ (tryPromote s d).isLeft = true) fun s t => s.fm.gen <
    t.fm.gen ∧ ∃ x ∈ t.fm.shadow, x.unit = d ∧ x.body = .classChange 3 4)

/-- Tables and profiles are loaded, read and switched as R277, R281 and R282 say. R259, R260, R276, R277, R281 and
R282. The built-in tables and the split of profile 0 are constants of Config (log entry 24). -/
def Obligations.CrusherTables : Prop :=
  (CompletesWhen Instr.crusherTableLoad defCrusherTableLoad (fun s c => tableContexts s (tableKey (u8 c.p 0) (u8 c.p
    1)) = []) fun s c t => Changes s c t (some s.now) ∧ (Tab.get t.tables (tableKey (u8 c.p 0) (u8 c.p 1))
    { taps := 0, data := [] }) = { taps := u8 c.p 2, data := stagedData s c }) ∧
  (CompletesWhen Instr.crusherTableLoad defCrusherTableLoad (fun s c => tableContexts s (tableKey (u8 c.p 0) (u8 c.p
    1)) ≠ []) fun s c t => Awaits s c t (.tables (s.fm.gen + 1)) ∧ ∃ x ∈ t.tableChanges, x.gen = s.fm.gen + 1 ∧ x.key
    = (tableKey (u8 c.p 0) (u8 c.p 1)) ∧ x.profile = false ∧ x.data = some (stagedData s c)) ∧
  (Completes Instr.crusherTableRead defCrusherTableRead fun s c t => Answered t c stOK s.fm.gen none [] ∧ storeRead t
    (stagingBase c.port + u32 c.p 4) (tableBytes s (u8 c.p 0) (u8 c.p 1) (u32 c.p 8)).length = tableBytes s (u8 c.p 0)
    (u8 c.p 1) (u32 c.p 8) ∧ ∀ a, a < stagingBase c.port + u32 c.p 4 ∨ stagingBase c.port + u32 c.p 4 + (tableBytes s
    (u8 c.p 0) (u8 c.p 1) (u32 c.p 8)).length ≤ a → Memory.read t.store.mem a = Memory.read s.store.mem a) ∧
  (CompletesWhen Instr.crusherProfileSet defCrusherProfileSet (fun s c => profileContexts s (u16 c.p 0) = [] ∧ bit (u8
    c.p 7) 1 = false) fun s c t => Changes s c t (some s.now) ∧ profileBytes t (u16 c.p 0) = c.p) ∧
  (CompletesWhen Instr.crusherProfileSet defCrusherProfileSet (fun s c => profileContexts s (u16 c.p 0) = [] ∧ bit (u8
    c.p 7) 1 = true) fun s c t => Changes s c t (some s.now) ∧ Tab.has t.profiles (u16 c.p 0) = false) ∧
  (CompletesWhen Instr.crusherProfileSet defCrusherProfileSet (fun s c => profileContexts s (u16 c.p 0) ≠ []) fun s c
    t => Awaits s c t (.tables (s.fm.gen + 1)) ∧ ∃ x ∈ t.tableChanges, x.gen = s.fm.gen + 1 ∧ x.key = u16 c.p 0 ∧
    x.profile = true) ∧
  (CompletesWhen Instr.crusherProfileGet defCrusherProfileGet (fun _ c => u16 c.p 0 ≠ 0) fun s c t => Unmoved s t c.ch
    ∧ Answered t c stOK s.fm.gen none (sub (profileBytes s (u16 c.p 0)) 0 64)) ∧
  (CompletesWhen Instr.crusherProfileGet defCrusherProfileGet (fun _ c => u16 c.p 0 = 0) fun s c t => Reports s c t 64
    fun p => Field p 0 2 0 ∧ Field p 2 1 (if sameColour (sub c.p 8 16) (sub c.p 24 16) then 2 else 1)) ∧
  (Completes Instr.crusherProcStatus defCrusherProcStatus fun s c t => ∃ x, getContext s (u16 c.p 0) = some x ∧
    Reports s c t 64 fun p => Field p 0 2 (u16 c.p 0) ∧ Field p 2 2 (reProfile x.entry) ∧ Field p 16 8 x.lastSource ∧
    Field p 24 4 (getConv s (u16 c.p 0)).sceneCuts ∧ Field p 40 8 s.now) ∧
  (∀ (d : BitVec 16), Leads (.tableSwitch d) (fun _ => True) fun _ t => ∀ x ∈ t.tableChanges, d.toNat ∉ x.waitingOn ∧
    x.waitingOn ≠ [])

/-- OUTPUT commands complete as R304 and R305 say. R304 and R305: the OUTPUT commands. -/
def Obligations.OutputCommandsComplete : Prop :=
  (CompletesWhen Instr.outputConfig defOutputConfig (fun s c => staysOff s c = true) fun s c t => Changes s c t (some
    s.now) ∧ (getOutput t (u16 c.p 0)).committed = c.p ∧ (getOutput t (u16 c.p 0)).config = c.p ∧ (getOutput t (u16
    c.p 0)).state = .off) ∧
  (CompletesWhen Instr.outputConfig defOutputConfig (fun s c => staysOff s c = false) fun s c t => Queues s c t ∧
    (getOutput t (u16 c.p 0)).committed = c.p ∧ (getOutput t (u16 c.p 0)).config = (getOutput s (u16 c.p 0)).config ∧
    ∃ x ∈ t.fm.shadow, x.unit = u16 c.p 0 ∧ x.gen = s.fm.gen + 1 ∧ x.body = .output c.p) ∧
  (Completes Instr.outputGetConfig defOutputGetConfig fun s c t => Unmoved s t c.ch ∧ Answered t c stOK s.fm.gen none
    (le 2 (u16 c.p 0) ++ sub (getOutput s (u16 c.p 0)).committed 2 30)) ∧
  (Completes Instr.outputStatus defOutputStatus fun s c t => Reports s c t 64 fun p => Field p 0 2 (u16 c.p 0) ∧ Field
    p 2 1 (outNum (getOutput s (gangOf s (u16 c.p 0))).state) ∧ Field p 6 2 (getOutput s (gangOf s (u16 c.p
    0))).source ∧ Field p 8 8 (sentFrame (getOutput s (gangOf s (u16 c.p 0)))) ∧ Field p 16 8 (getOutput s (gangOf s
    (u16 c.p 0))).lastLatch ∧ Field p 24 8 (getOutput s (gangOf s (u16 c.p 0))).nextLatch) ∧
  (Completes Instr.outputCounters defOutputCounters fun s c t => Reports s c t 80 fun p => Field p 0 2 (u16 c.p 0) ∧
    Field p 8 8 (getOutput s (u16 c.p 0)).counts.frames ∧ Field p 16 8 (getOutput s (u16 c.p 0)).counts.black ∧ Field
    p 40 4 (getOutput s (u16 c.p 0)).counts.underruns ∧ Field p 64 4 (getOutput s (u16 c.p 0)).counts.timingSteps ∧
    Field p 72 8 s.now)

/-- A frame of an output: its latch cycle, its start, its blanking and match-line events, and an underrun (R286 to
R302). R286 to R302: the life of an output's frame. -/
def Obligations.OutputEventsComplete : Prop :=
  (∀ (d : BitVec 16), Leads (.latchCycle d) (fun s => isTimed d.toNat = true ∧ (getOutput s d.toNat).state ≠ .off ∧
    (getOutput s d.toNat).latched = (getOutput s d.toNat).frame ∧ gangTail s d.toNat = false ∧ s.fm.shadow = []) fun s
    t => (getOutput t d.toNat).latched = (getOutput s d.toNat).latched + 1 ∧ (getOutput t d.toNat).lastLatch = s.now +
    500 ∧ (getOutput t d.toNat).frame = (getOutput s d.toNat).frame ∧ (getOutput t d.toNat).sending = (getOutput s
    d.toNat).sending) ∧
  (∀ (d : BitVec 16) (x : Shadow) (e : Bytes) (k : Nat), Leads (.latchCycle d) (fun s => isTimed d.toNat = true ∧
    (getOutput s d.toNat).state ≠ .off ∧ (getOutput s d.toNat).latched = (getOutput s d.toNat).frame ∧ gangTail s
    d.toNat = false ∧ s.fm.shadow = [x] ∧ x.body = .route e k ∧ x.fences = [] ∧ x.wake = wakeEpoch s x.unit ∧ x.unit =
    d.toNat ∧ dueAt d.toNat (getOutput s d.toNat).latched x = true) fun s t => (getOutput t d.toNat).latched =
    (getOutput s d.toNat).latched + 1 ∧ (getRoute t d.toNat).next = (getRoute s d.toNat).next ++
    [{ gen := x.gen, entry := e, cls := k, reason := 0, frame := (getOutput s d.toNat).latched }] ∧ t.fm.shadow = [])
    ∧
  (∀ (d : BitVec 16) (crowded : Nat), Leads (.outputFrameStart ⟨d, crowded⟩) (fun s => isTimed d.toNat = true ∧
    gangTail s d.toNat = false ∧ (getOutput s d.toNat).state ≠ .off ∧ (getOutput s d.toNat).latched = (getOutput s
    d.toNat).frame + 1) fun s t => (getOutput t d.toNat).frame = (getOutput s d.toNat).frame + 1 ∧ (getOutput t
    d.toNat).sending = (getOutput s d.toNat).next ∧ (getOutput t d.toNat).source = (getOutput s d.toNat).nextSource ∧
    (getOutput t d.toNat).counts.frames = (getOutput s d.toNat).counts.frames + 1 ∧ ∀ j, j ≠ d.toNat → getOutput t j =
    getOutput s j) ∧
  (∀ (d : BitVec 16) (crowded : Nat) (x : Shadow) (b : Bytes), Leads (.outputFrameStart ⟨d, crowded⟩) (fun s =>
    isTimed d.toNat = true ∧ gangTail s d.toNat = false ∧ (getOutput s d.toNat).state = .off ∧ enableDue s d.toNat =
    some x ∧ x.body = .output b) fun s t => (getOutput t d.toNat).state = .idle ∧ (getOutput t d.toNat).frame =
    (getOutput s d.toNat).frame + 1 ∧ (getOutput t d.toNat).config = b) ∧
  (∀ (d : BitVec 16) (field2 : Bool), Leads (.outputBlank d field2) (fun s => isTimed d.toNat = true ∧ (getOutput s
    d.toNat).state ≠ .off ∧ fmtHeight (ocFormat (getOutput s d.toNat).config) ≠ 486 ∧ (fmtScan (ocFormat (getOutput s
    d.toNat).config) = 0 → field2 = false)) fun s t => t = raise s 0x1 d.toNat (le 8 ((getOutput s d.toNat).frame - 1)
    ++ le 1 (if fmtScan (ocFormat (getOutput s d.toNat).config) = 0 then 0 else if field2 then 2 else 1))) ∧
  (∀ (d : BitVec 16), Leads (.outputLine d) (fun s => isTimed d.toNat = true ∧ (getOutput s d.toNat).state ≠ .off ∧
    ocMatch (getOutput s d.toNat).config ≠ 0) fun s t => t = raise s 0x2 d.toNat (le 8 ((getOutput s d.toNat).frame -
    1) ++ le 2 (ocMatch (getOutput s d.toNat).config))) ∧
  (∀ (d : BitVec 16) (line : Nat) (chased : Bool) (layer : Fin 64), Leads (.outputUnderrun d line chased layer) (fun s
    => (∃ a b n, (getOutput s d.toNat).sending = .frame a b n) ∨ (∃ k, (getOutput s d.toNat).sending = .ashlar k)) fun
    s t => (getOutput t d.toNat).counts.underrunLines = satInc 32 (getOutput s d.toNat).counts.underrunLines ∧
    (getOutput t d.toNat).flags.underrun = true ∧ ((getOutput s d.toNat).flags.underrun = false → (getOutput t
    d.toNat).counts.underruns = satInc 32 (getOutput s d.toNat).counts.underruns) ∧ (getOutput t d.toNat).frame =
    (getOutput s d.toNat).frame)

/-- ASHLAR commands complete as R310, R321, R328 and R329 say. R310, R321, R328 and R329: the ASHLAR commands. The
composed samples are free values (log entry 12). -/
def Obligations.AshlarCommandsComplete : Prop :=
  (CompletesWhen Instr.ashlarConfig defAshlarConfig (fun s c => ashlarStaysOff s c = true) fun s c t => Changes s c t
    (some s.now) ∧ (getAshlar t (u8 c.p 0)).committed = c.p ∧ (getAshlar t (u8 c.p 0)).config = c.p) ∧
  (CompletesWhen Instr.ashlarConfig defAshlarConfig (fun s c => ashlarStaysOff s c = false) fun s c t => Queues s c t
    ∧ (getAshlar t (u8 c.p 0)).committed = c.p ∧ (getAshlar t (u8 c.p 0)).config = (getAshlar s (u8 c.p 0)).config ∧ ∃
    x ∈ t.fm.shadow, x.unit = 0xC0 + u8 c.p 0 ∧ x.gen = s.fm.gen + 1 ∧ x.body = .ashlar c.p) ∧
  (Completes Instr.ashlarGetConfig defAshlarGetConfig fun s c t => Unmoved s t c.ch ∧ Answered t c stOK s.fm.gen none
    (le 1 (u8 c.p 0) ++ sub (getAshlar s (u8 c.p 0)).committed 1 43)) ∧
  (Completes Instr.ashlarLayers defAshlarLayers fun s c t => Queues s c t ∧ (getAshlar t (u8 c.p 0)).pendingLayers =
    mergeLayers (getAshlar s (u8 c.p 0)).pendingLayers (u8 c.p 2 == 1) (layerEntries c) ∧ (getAshlar t (u8 c.p
    0)).layers = (getAshlar s (u8 c.p 0)).layers ∧ ∃ x ∈ t.fm.shadow, x.unit = 0xC0 + u8 c.p 0 ∧ x.gen = s.fm.gen + 1)
    ∧
  (Completes Instr.ashlarGetLayers defAshlarGetLayers fun s c t => Reports s c t (8 + 48 * (getAshlar s (u8 c.p
    0)).pendingLayers.length) fun p => Field p 0 1 (getAshlar s (u8 c.p 0)).pendingLayers.length ∧ ∀ q, (getAshlar s
    (u8 c.p 0)).pendingLayers.head? = some q → sub p 8 48 = sub q.2 0 48) ∧
  (Completes Instr.ashlarStatus defAshlarStatus fun s c t => Reports s c t 1056 fun p => Field p 0 1 (u8 c.p 0) ∧
    Field p 1 1 (flag (getAshlar s (u8 c.p 0)).enabled) ∧ Field p 3 1 (getAshlar s (u8 c.p 0)).layers.length ∧ Field p
    4 2 (driveOf s (u8 c.p 0)) ∧ Field p 8 8 (getAshlar s (u8 c.p 0)).lastFrame ∧ Field p 24 4 (getAshlar s (u8 c.p
    0)).underrunLines) ∧
  (∀ (i : BitVec 16) (facts : CloseFacts) (b : Bench) (j : Nat), Leads (.frameClose i false facts) (fun s =>
    isAshlarObj i.toNat = true ∧ getBench s (wbKey (i.toNat - 0xC0)) = some b ∧ landingSlot b = some j) fun _ t =>
    ((getBench t (wbKey (i.toNat - 0xC0))).map fun y => (getSlot y j).state) = some .complete)

/-- An opaque FILL layer on top is all that is seen where it stands. α is OPACITY / 255, layers are blended from the
bottom up, and a layer is covered only by opaque layers above it. -/
def Obligations.OpaqueFillHidesWhatIsBelow : Prop :=
  ∀ (s : State) (k base n c i : Nat) (e : Bytes) (below : Tab Bytes), (getAshlar s k).layers = below ++ [(i, e)] → (∀
    p ∈ below, p.1 < i) → leKind e = 3 → leOpacity e = 255 → n < fmtHeight (canvasOf s k) → c < fmtWidth (canvasOf s
    k) → leX e ≤ c → c < leX e + leW e → leY e ≤ n → n < leY e + leH e → composed s k base n c = colourWord (u32 e 36)

/-- AUDIO commands complete as R341 to R346, R366, R367 and R368 say. R341 to R346 and R366 to R368: the AUDIO
commands. -/
def Obligations.AudioCommandsComplete : Prop :=
  (Completes Instr.audioMap defAudioMap fun s c t => Queues s c t ∧ ∀ u ∈ mapUnits (u16 c.p 2) (mapEntries c), ∃ x ∈
    t.fm.shadow, x.unit = u ∧ x.gen = s.fm.gen + 1) ∧
  (Completes Instr.audioGetMap defAudioGetMap fun s c t => Reports s c t (8 + 16 * (channelsFrom s (u16 c.p 0) (u16
    c.p 2)).length) fun p => Field p 0 2 (channelsFrom s (u16 c.p 0) (u16 c.p 2)).length ∧ ∀ k, (channelsFrom s (u16
    c.p 0) (u16 c.p 2)).head? = some k → Field p 8 2 k ∧ sub p 10 14 = sub (getAdest s k).committed 2 14) ∧
  (Completes Instr.audioLevel defAudioLevel fun s c t => Changes s c t (some s.now) ∧ (∀ e, levelEntries c = [e] →
    (getAdest t (u16 e 0)).committed = withLevel (getAdest s (u16 e 0)).committed e ∧ (getAdest t (u16 e 0)).entry =
    withLevel (getAdest s (u16 e 0)).entry e) ∧ ∀ k, (∀ e ∈ levelEntries c, u16 e 0 ≠ k) → getAdest t k = getAdest s
    k) ∧
  (CompletesWhen Instr.audioEmbed defAudioEmbed (fun s c => latches s (u16 c.p 0) = true) fun s c t => Queues s c t ∧
    embedOf t (u16 c.p 0) = (if u8 c.p 2 = 0 then 0 else u8 c.p 3) ∧ embedInForce t (u16 c.p 0) = embedInForce s (u16
    c.p 0) ∧ ∃ x ∈ t.fm.shadow, x.unit = u16 c.p 0 ∧ x.gen = s.fm.gen + 1 ∧ x.body = .embed (u8 c.p 2) (u8 c.p 3)) ∧
  (CompletesWhen Instr.audioEmbed defAudioEmbed (fun s c => latches s (u16 c.p 0) = false) fun s c t => Changes s c t
    (some (getOutput s (u16 c.p 0)).frame) ∧ embedOf t (u16 c.p 0) = (if u8 c.p 2 = 0 then 0 else u8 c.p 3) ∧
    embedInForce t (u16 c.p 0) = (if u8 c.p 2 = 0 then 0 else u8 c.p 3)) ∧
  (Completes Instr.audioCompanion defAudioCompanion fun s c t => Changes s c t (some s.now) ∧ t.audio =
    { s.audio with companions := t.audio.companions } ∧ Tab.get t.audio.companions (u16 c.p 0)
    { base := 0, count := 0 } = { base := u16 c.p 4, count := u8 c.p 2 } ∧ ∀ j, j ≠ u16 c.p 0 → Tab.get
    t.audio.companions j { base := 0, count := 0 } = Tab.get s.audio.companions j { base := 0, count := 0 }) ∧
  (CompletesWhen Instr.audioFlowMap defAudioFlowMap (fun _ c => u8 c.p 4 ≠ 0) fun s c t => Changes s c t (some s.now)
    ∧ t.audio = { s.audio with binds := t.audio.binds, sources := t.audio.sources } ∧ Tab.get t.audio.binds (bindKey
    (u8 c.p 0) (u8 c.p 1)) { base := 0, count := 0 } = { base := u16 c.p 2, count := u8 c.p 4 }) ∧
  (CompletesWhen Instr.audioFlowMap defAudioFlowMap (fun _ c => u8 c.p 4 = 0) fun s c t => Changes s c t (some s.now)
    ∧ t.audio = { s.audio with binds := t.audio.binds, sources := t.audio.sources } ∧ Tab.has t.audio.binds (bindKey
    (u8 c.p 0) (u8 c.p 1)) = false) ∧
  (Completes Instr.audioTone defAudioTone fun s c t => Changes s c t (some s.now) ∧ t.audio =
    { s.audio with tones := t.audio.tones } ∧ Tab.get t.audio.tones (u8 c.p 0) [] = sub c.p 0 8 ∧ ∀ j, j ≠ u8 c.p 0 →
    Tab.get t.audio.tones j [] = Tab.get s.audio.tones j []) ∧
  (Completes Instr.audioMeters defAudioMeters fun s c t => Reports s c t (16 + 8 * (channelsFrom s (u16 c.p 2) (u16
    c.p 4)).length) fun p => Field p 0 1 (u8 c.p 0) ∧ Field p 2 2 (channelsFrom s (u16 c.p 2) (u16 c.p 4)).length ∧
    Field p 8 8 s.audio.lastBlock) ∧
  (Completes Instr.audioDestStatus defAudioDestStatus fun s c t => Reports s c t 64 fun p => Field p 0 2 (u16 c.p 0) ∧
    Field p 2 2 ((getAdest s (u16 c.p 0)).source.getD 0xFFFF) ∧ Field p 4 1 (destState s (u16 c.p 0)) ∧ Field p 6 2
    ((getAdest s (u16 c.p 0)).asrc.getD 0xFFFF) ∧ Field p 8 4 (getAdest s (u16 c.p 0)).latencyNs ∧ Field p 24 4
    (getAdest s (u16 c.p 0)).slips ∧ Field p 36 4 (getAdest s (u16 c.p 0)).crossfades ∧ Field p 48 8 s.now) ∧
  (Completes Instr.audioSourceStatus defAudioSourceStatus fun s c t => Reports s c t 32 fun p => Field p 0 2 (u16 c.p
    0) ∧ Field p 2 1 (sourceState s (u16 c.p 0)) ∧ Field p 3 1 (flag (getAsrc s (u16 c.p 0)).nonPcm + 2 * flag
    (getAsrc s (u16 c.p 0)).measured) ∧ Field p 12 4 (getAsrc s (u16 c.p 0)).concealed ∧ Field p 16 4 (getAsrc s (u16
    c.p 0)).changes ∧ Field p 24 8 s.now) ∧
  (Completes Instr.audioEngineStatus defAudioEngineStatus fun s c t => Reports s c t 48 fun p => Field p 0 1 (halfNum
    s 0) ∧ Field p 1 1 (halfNum s 1) ∧ Field p 2 2 (asrcUsed s 0).length ∧ Field p 4 2 (asrcUsed s 1).length ∧ Field p
    8 2 (activeSources s) ∧ Field p 10 2 (servedIn s 0 + servedIn s 1) ∧ Field p 24 8 s.now)

/-- Meter blocks, crossfades, ASRC channels, slips and non-PCM detection do what R348 to R367 say. R337, R339, R348
and R356 to R367: what the engine does between commands. The levels found are the command's operands (log entry 31).
-/
def Obligations.AudioEventsComplete : Prop :=
  (∀ (facts : List MeterFact), Leads (.meterBlock facts) (fun _ => True) fun s t => t = { s with audio := t.audio } ∧
    t.audio.lastBlock = s.now) ∧
  (∀ (facts : List MeterFact) (k : Nat) (m : MeterFact), Leads (.meterBlock facts) (fun s => Tab.keys s.audio.sources
    = [k] ∧ s.audio.dests = [] ∧ facts = [m] ∧ m.dest = false ∧ m.channel = k) fun s t => (getAsrc t k).level = max
    (max m.level ((getAsrc s k).level - 2)) (-1000) ∧ ((getAsrc t k).clipped = true ↔ m.clips ≠ 0)) ∧
  (∀ (ch : BitVec 16), Leads (.crossfadeEnd ch) (fun _ => True) fun s t => getAdest t ch.toNat =
    { getAdest s ch.toNat with fading := false } ∧ t = { s with audio := t.audio }) ∧
  (∀ (ch : BitVec 16) (clocks : List Nat) (ppm : Int), Leads (.sourceLockQualified ch clocks ppm) (fun s =>
    sourceActive s ch.toNat = true) fun _ t => (getAsrc t ch.toNat).measured = true ∧ (getAsrc t ch.toNat).lockedTo =
    clocks ∧ (getAsrc t ch.toNat).ppm = ppm) ∧
  (∀ (k : Fin 512) (d : Nat) (x : AudioDest), Leads (.asrcRelease k) (fun s => s.audio.dests = [(d, x)] ∧ x.asrc =
    some k.val ∧ s.updating = false ∧ x.wanted = false ∧ wantsAsrc s d (effEntry s d) x.source = false) fun _ t =>
    (getAdest t d).asrc = none ∧ (getAdest t d).wanted = false ∧ (getAdest t d).source = x.source) ∧
  (∀ (ch : BitVec 16) (src : Nat), Leads (.sampleSlip ch) (fun s => (getAdest s ch.toNat).source = some src ∧
    (getAdest s ch.toNat).asrc = none ∧ (getAsrc s src).nonPcm = false ∧ meAsrc (effEntry s ch.toNat) ≠ 0) fun s t =>
    getAdest t ch.toNat = { getAdest s ch.toNat with slips := satInc 32 (getAdest s ch.toNat).slips, fading := true })
    ∧
  (∀ (ch : BitVec 16) (src : Nat) (k : Nat) (ks : List Nat), Leads (.sampleSlip ch) (fun s => (getAdest s
    ch.toNat).source = some src ∧ (getAdest s ch.toNat).asrc = none ∧ (getAsrc s src).nonPcm = false ∧ meAsrc
    (effEntry s ch.toNat) = 0 ∧ mePair (effEntry s ch.toNat) = false ∧ freeAsrc s (halfOf ch.toNat) = k :: ks ∧
    s.updating = false) fun s t => (getAdest t ch.toNat).asrc = some k ∧ (getAdest t ch.toNat).slips = (getAdest s
    ch.toNat).slips) ∧
  (∀ (ch : BitVec 16) (fast : Bool) (src : Nat), Leads (.burstSlip ch fast) (fun s => (getAdest s ch.toNat).source =
    some src ∧ (getAsrc s src).nonPcm = true) fun s t => getAdest t ch.toNat =
    { getAdest s ch.toNat with burstSlips := satInc 32 (getAdest s ch.toNat).burstSlips }) ∧
  (∀ (ch : BitVec 16) (out : Bool), Leads (.rateRange ch out) (fun s => (getAdest s ch.toNat).asrc.isSome ∧ (getAdest
    s ch.toNat).rateRange ≠ out) fun s t => getAdest t ch.toNat = { getAdest s ch.toNat with rateRange := out }) ∧
  (∀ (ch : BitVec 16) (burst : BitVec 16) (both : Bool), Leads (.preambleFound ch burst both) (fun _ => True) fun s t
    => (getAsrc t ch.toNat).nonPcm = true ∧ (getAsrc t ch.toNat).burst = burst.toNat ∧ ((getAsrc s ch.toNat).nonPcm =
    false → (getAsrc t ch.toNat).changes = satInc 32 (getAsrc s ch.toNat).changes) ∧ (both = true → (getAsrc t (pairOf
    ch.toNat)).nonPcm = true ∧ (getAsrc t (pairOf ch.toNat)).burst = burst.toNat)) ∧
  (∀ (ch : BitVec 16), Leads (.nonpcmTimeout ch) (fun _ => True) fun s t => (getAsrc t ch.toNat).nonPcm = false ∧
    ((getAsrc s ch.toNat).nonPcm = true → (getAsrc t ch.toNat).changes = satInc 32 (getAsrc s ch.toNat).changes) ∧
    (getAsrc t ch.toNat).samples = (getAsrc s ch.toNat).samples) ∧
  (∀ (h : Fin 2), Leads (.audioHalfIdleTimeout h) (fun s => (getDomain s (0x4C + h.val)).idle = true ∧ (getDomain s
    (0x4C + h.val)).mode = 0 ∧ domainNeeded s (0x4C + h.val) = false ∧ (getDomain s (0x4C + h.val)).state = .on) fun s
    t => t.fm.gen = s.fm.gen + 1 ∧ t.fm.jcount = s.fm.jcount + 1 ∧ (getDomain t (0x4C + h.val)).idle = false ∧
    (getDomain t (0x4C + h.val)).state = .drain) ∧
  (∀ (f : Bytes) (n : Nat), n % (audioSequence f).1 = 0 → firstSample f n = 0 ∧ audioFrameNumber f n = 1) ∧
  (∀ (f : Bytes) (n : Nat), audioFrameNumber f n < (audioSequence f).1 → firstSample f (n + 1) = firstSample f n +
    frameSamples f n ∧ audioFrameNumber f (n + 1) = audioFrameNumber f n + 1) ∧
  (∀ (f : Bytes) (n : Nat), audioFrameNumber f n = (audioSequence f).1 → firstSample f n + frameSamples f n =
    (audioSequence f).2) ∧
  (∀ (f : Bytes) (n : Nat), fmtScan f ≠ 1 → (fmtRate f = 4 → audioSequence f = (5, 8008) ∧ (frameSamples f n = 1601 ∨
    frameSamples f n = 1602)) ∧ (fmtRate f = 9 → audioSequence f = (5, 4004) ∧ (frameSamples f n = 800 ∨ frameSamples
    f n = 801)) ∧ (fmtRate f = 3 → audioSequence f = (1, 1920) ∧ frameSamples f n = 1920))

/-- AUDIOPORT commands complete as R379, R383, R387 and R388 say. R379, R383, R387 and R388: the AUDIOPORT commands.
-/
def Obligations.AudioportCommandsComplete : Prop :=
  (CompletesWhen Instr.audioportConfig defAudioportConfig (fun s c => (getAport s (u8 c.p 0)).state = .off ∨ pcEnable
    (sub c.p 0 24) = false ∨ portRestarts (getAport s (u8 c.p 0)).config c.p = true) fun s c t => Changes s c t (some
    s.now) ∧ (getAport t (u8 c.p 0)).committed = sub c.p 0 24 ∧ (getAport t (u8 c.p 0)).config = sub c.p 0 24 ∧
    (getAport t (u8 c.p 0)).changeAt = none ∧ (getAport t (u8 c.p 0)).state = (if pcEnable (sub c.p 0 24) then
    PortRun.locking else .off)) ∧
  (CompletesWhen Instr.audioportConfig defAudioportConfig (fun s c => (getAport s (u8 c.p 0)).state ≠ .off ∧ pcEnable
    (sub c.p 0 24) = true ∧ portRestarts (getAport s (u8 c.p 0)).config c.p = false) fun s c t => Awaits s c t
    (.audioPort (u8 c.p 0)) ∧ (getAport t (u8 c.p 0)) =
    { (getAport s (u8 c.p 0)) with committed := sub c.p 0 24, changeAt := some (s.now + 1000000) }) ∧
  (Completes Instr.audioportGetConfig defAudioportGetConfig fun s c t => Unmoved s t c.ch ∧ Answered t c stOK s.fm.gen
    none (le 1 (u8 c.p 0) ++ sub (getAport s (u8 c.p 0)).committed 1 23)) ∧
  (Completes Instr.audioportStatus defAudioportStatus fun s c t => Reports s c t 48 fun p => Field p 0 1 (u8 c.p 0) ∧
    Field p 1 1 (portNum (getAport s (u8 c.p 0)).state) ∧ Field p 12 4 (getAport s (u8 c.p 0)).bclkKhz ∧ Field p 16 4
    (getAport s (u8 c.p 0)).frameErrors ∧ Field p 24 4 (getAport s (u8 c.p 0)).alignSteps ∧ Field p 32 8 (getAport s
    (u8 c.p 0)).frames ∧ Field p 40 8 s.now) ∧
  (Completes Instr.audioportShare defAudioportShare fun s c t => Changes s c t (some s.now) ∧ t.refs =
    { s.refs with shareMode := u8 c.p 0, shareEngine := u8 c.p 1 }) ∧
  (Completes Instr.audioportCapture defAudioportCapture fun s c t => Changes s c t (some s.now) ∧ (getCapture t (u8
    c.p 0)).enabled = (u8 c.p 1 == 1) ∧ (getCapture t (u8 c.p 0)).config = sub c.p 0 16 ∧ (getCapture t (u8 c.p
    0)).blocks = [] ∧ (u8 c.p 1 = 1 → (getCapture t (u8 c.p 0)).sampleCount = 0) ∧ ∀ j, j ≠ u8 c.p 0 → getCapture t j
    = getCapture s j) ∧
  (Completes Instr.audioportCaptureStatus defAudioportCaptureStatus fun s c t => Reports s c t 48 fun p => Field p 0 1
    (u8 c.p 0) ∧ Field p 1 1 (flag (getCapture s (u8 c.p 0)).enabled) ∧ Field p 4 4 (getCapture s (u8 c.p 0)).overruns
    ∧ Field p 16 4 (getCapture s (u8 c.p 0)).blocks.length ∧ Field p 24 8 s.now)

/-- Port frames, clocks, alignment and capture blocks do what R375 to R386 say. R375 to R388: the states of an audio
port, its measurements and the capture rings. -/
def Obligations.AudioportEventsComplete : Prop :=
  (∀ (p : Fin 16) (bclks : Nat) (frame : List (BitVec 24)), Leads (.audioPortFrame p bclks frame) (fun s => (getAport
    s p.val).state = .noClock) fun s t => (getAport t p.val).state = .locking ∧ (∀ j, j ≠ p.val → getAport t j =
    getAport s j)) ∧
  (∀ (p : Fin 16) (bclks : Nat) (frame : List (BitVec 24)), Leads (.audioPortFrame p bclks frame) (fun s => (getAport
    s p.val).state = .locking ∧ pcMaster (getAport s p.val).config = false ∧ bclks = 32 * pcSlots (getAport s
    p.val).config ∧ (getAport s p.val).good = 47) fun s t => (getAport t p.val).state = .running ∧ (∀ j, j ≠ p.val →
    getAport t j = getAport s j)) ∧
  (∀ (p : Fin 16) (bclks : Nat) (frame : List (BitVec 24)), Leads (.audioPortFrame p bclks frame) (fun s => (getAport
    s p.val).state = .running ∧ (getAport s p.val).changeAt = none ∧ (getAport s p.val).stepDue = none ∧ (pcMaster
    (getAport s p.val).config = true ∨ bclks = 32 * pcSlots (getAport s p.val).config)) fun s t => getAport t p.val =
    { getAport s p.val with bad := 0, previous := frame, frames := (getAport s p.val).frames + 1 } ∧ (∀ j, j ≠ p.val →
    getAport t j = getAport s j)) ∧
  (∀ (p : Fin 16) (bclks : Nat) (frame : List (BitVec 24)), Leads (.audioPortFrame p bclks frame) (fun s => (getAport
    s p.val).state = .running ∧ (getAport s p.val).changeAt = none ∧ (getAport s p.val).stepDue = none ∧ pcMaster
    (getAport s p.val).config = false ∧ bclks ≠ 32 * pcSlots (getAport s p.val).config ∧ (getAport s p.val).bad = 47)
    fun s t => (getAport t p.val).state = .locking ∧ (getAport t p.val).frameErrors = satInc 32 (getAport s
    p.val).frameErrors ∧ (getAport t p.val).frames = (getAport s p.val).frames) ∧
  (∀ (p : Fin 16) (bclks : Nat) (frame : List (BitVec 24)) (n : Nat), Leads (.audioPortFrame p bclks frame) (fun s =>
    (getAport s p.val).state = .running ∧ (getAport s p.val).changeAt = some n ∧ n ≤ s.now) fun s t => (getAport t
    p.val).config = (getAport s p.val).committed ∧ (getAport t p.val).changeAt = none ∧ Wakes s t (.audioPort p.val)
    (some s.now)) ∧
  (∀ (p : Fin 16), Leads (.portClockLoss p) (fun s => pcMaster (getAport s p.val).config = false ∧ (getAport s
    p.val).state ≠ .off) fun s t => (getAport t p.val).state = .noClock ∧ (getAport t p.val).config = (getAport s
    p.val).config ∧ (∀ j, j ≠ p.val → getAport t j = getAport s j)) ∧
  (∀ (p : Fin 16) (ppm : Int) (bclkKhz : Nat) (whole : Bool), Leads (.portRateUpdate p ppm bclkKhz whole) (fun s =>
    (getAport s p.val).state = .running ∨ (getAport s p.val).state = .locking) fun s t => (getAport t p.val).ppm =
    deviceRate s ppm ∧ (getAport t p.val).bclkKhz = bclkKhz ∧ (getAport t p.val).state = (getAport s p.val).state ∧
    ((getAport s p.val).state = .running → whole = true → (getAport s p.val).reported = none → (getAport t
    p.val).reported = some (deviceRate s ppm))) ∧
  (∀ (p : Fin 16) (ppm : Int) (bclkKhz : Nat) (whole : Bool) (r : Int), Leads (.portRateUpdate p ppm bclkKhz whole)
    (fun s => (getAport s p.val).state = .running ∧ whole = true ∧ (getAport s p.val).reported = some r ∧ (getAport s
    p.val).tolRun = 2 ∧ 100 * pcRateTol (getAport s p.val).config < (deviceRate s ppm - r).natAbs) fun s t =>
    (getAport t p.val).reported = some (deviceRate s ppm) ∧ (getAport t p.val).rateChanges = satInc 32 (getAport s
    p.val).rateChanges ∧ (getAport t p.val).tolRun = 0) ∧
  (∀ (p : Fin 16) (ps : Int), Leads (.alignMeasure p ps) (fun s => followsShare s (getAport s p.val) = true) fun s t
    => (getAport t p.val).alignOffset = ps ∧ (getAport t p.val).afsAbsent = false ∧ ((getAport t p.val).aligned = true
    ↔ ps.natAbs ≤ 20000) ∧ ((getAport s p.val).alignRun = 9 → 20000 < ps.natAbs → (getAport t p.val).stepDue = some
    ps) ∧ (∀ j, j ≠ p.val → getAport t j = getAport s j)) ∧
  (∀ (p : Fin 16), Leads (.afsAbsent p) (fun s => followsShare s (getAport s p.val) = true) fun s t => getAport t
    p.val = { getAport s p.val with afsAbsent := true, stepDue := none } ∧ (∀ j, j ≠ p.val → getAport t j = getAport s
    j)) ∧
  (∀ (i : Fin 16) (start : Nat) (samples : List (BitVec 24)), Leads (.captureBlock i start samples) (fun s =>
    (getCapture s i.val).enabled = true ∧ (getCapture s i.val).blocks.length < captureDepth (getCapture s i.val)) fun
    s t => getCapture t i.val = { getCapture s i.val with
      blocks := (getCapture s i.val).blocks ++ [((getCapture s i.val).sampleCount, captureBlock s i.val (getCapture s i.val) start samples)],
      sampleCount := (getCapture s i.val).sampleCount + capFrames (getCapture s i.val) }) ∧
  (∀ (i : Fin 16) (start : Nat) (samples : List (BitVec 24)), Leads (.captureBlock i start samples) (fun s =>
    (getCapture s i.val).enabled = true ∧ captureDepth (getCapture s i.val) ≤ (getCapture s i.val).blocks.length) fun
    s t => (getCapture t i.val).blocks.length = (getCapture s i.val).blocks.length ∧ (getCapture t i.val).overruns =
    satInc 32 (getCapture s i.val).overruns ∧ (getCapture t i.val).gap = true ∧ (getCapture t i.val).sampleCount =
    (getCapture s i.val).sampleCount + capFrames (getCapture s i.val)) ∧
  (∀ (p : Fin 16), Leads (.portClockLoss p) (fun s => pcMaster (getAport s p.val).config = false ∧ (getAport s
    p.val).state = .running) fun s t => ∀ k ∈ portSources p.val (getAport s p.val).config, (getAsrc s k).lostAt = none
    → (getAsrc t k).lostAt = some s.now ∧ ((getAsrc s k).nonPcm = false → (getAsrc t k).samples.drop 240 = (getAsrc s
    k).samples.take (historyDepth - 240)) ∧ ((getAsrc s k).nonPcm = true → (getAsrc t k).samples = (getAsrc s
    k).samples))

/-- REFERENCE commands complete as R398, R404, R405 and R407 say. R398, R404, R405 and R407: the REFERENCE commands.
-/
def Obligations.ReferenceCommandsComplete : Prop :=
  (Completes Instr.referenceConfig defReferenceConfig fun s c t => Awaits s c t (.servoTick (u8 c.p 0)) ∧ (getRef t
    (u8 c.p 0)) = { (getRef s (u8 c.p 0)) with pending := some (sub c.p 0 152) } ∧ ∀ j, j ≠ u8 c.p 0 → getRef t j =
    getRef s j) ∧
  (Completes Instr.referenceGetConfig defReferenceGetConfig fun s c t => Unmoved s t c.ch ∧ Answered t c stOK s.fm.gen
    none (le 1 (u8 c.p 0) ++ sub ((getRef s (u8 c.p 0)).pending.getD (getRef s (u8 c.p 0)).config) 1 151)) ∧
  (Completes Instr.referenceStatus defReferenceStatus fun s c t => Reports s c t 192 fun p => Field p 0 1 (u8 c.p 0) ∧
    Field p 1 1 (refNum (getRef s (u8 c.p 0)).state) ∧ Field p 2 1 ((getRef s (u8 c.p 0)).selected.getD 0xFF) ∧ Field
    p 4 2 (getRef s (u8 c.p 0)).bandwidth ∧ Field p 24 8 (getRef s (u8 c.p 0)).since ∧ Field p 32 4 (holdoverLeft s
    (getRef s (u8 c.p 0))) ∧ Field p 36 4 (getRef s (u8 c.p 0)).jumps ∧ Field p 40 4 (getRef s (u8 c.p 0)).switchovers
    ∧ Field p 48 8 s.now) ∧
  (Completes Instr.referenceInput defReferenceInput fun s c t => Awaits s c t (.servoTick (8 + u8 c.p 0)) ∧
    (getRefInput t (u8 c.p 0)).config = sub c.p 0 24 ∧ (getRefInput t (u8 c.p 0)).state = (if u8 c.p 1 = 1 then 1 else
    0) ∧ (getRefInput t (u8 c.p 0)).losses = (getRefInput s (u8 c.p 0)).losses) ∧
  (Completes Instr.referenceInputStatus defReferenceInputStatus fun s c t => Reports s c t 32 fun p => Field p 0 1 (u8
    c.p 0) ∧ Field p 1 1 (getRefInput s (u8 c.p 0)).state ∧ Field p 2 1 (getRefInput s (u8 c.p 0)).mode ∧ sub p 4 16 =
    sub (getRefInput s (u8 c.p 0)).format 0 16 ∧ Field p 20 4 (getRefInput s (u8 c.p 0)).noise ∧ Field p 24 4
    (getRefInput s (u8 c.p 0)).losses) ∧
  (Completes Instr.referenceTimeSource defReferenceTimeSource fun s c t => Awaits s c t (.servoTick 16) ∧ t.refs =
    { s.refs with pendingSource := some (if u8 c.p 0 = 0xFF then none else some (u8 c.p 0)) }) ∧
  (CompletesWhen Instr.referenceClkout defReferenceClkout (fun _ c => u8 c.p 1 = 0) fun s c t => Changes s c t (some
    s.now) ∧ getClk t (u8 c.p 0) = { enable := false, engine := u8 c.p 2, freq := u8 c.p 3, running := false }) ∧
  (CompletesWhen Instr.referenceClkout defReferenceClkout (fun s c => u8 c.p 1 = 1 ∧ getClk s (u8 c.p 0) ≠
    { getClk s (u8 c.p 0) with engine := u8 c.p 2, freq := u8 c.p 3, running := true }) fun s c t => Awaits s c t
    (.clockOut (u8 c.p 0)) ∧ getClk t (u8 c.p 0) =
    { enable := true, engine := u8 c.p 2, freq := u8 c.p 3, running := false }) ∧
  (CompletesWhen Instr.referenceClkout defReferenceClkout (fun s c => u8 c.p 1 = 1 ∧ getClk s (u8 c.p 0) =
    { getClk s (u8 c.p 0) with engine := u8 c.p 2, freq := u8 c.p 3, running := true }) fun s c t => Changes s c t
    (some s.now) ∧ getClk t (u8 c.p 0) = getClk s (u8 c.p 0))

/-- The servo tick, candidate measurements, WTR, holdover and clock outputs do what R394 to R405 say. R392 to R405:
selection, measurement and the servo. What is measured is the command's operand (log entry 85). -/
def Obligations.ReferenceEventsComplete : Prop :=
  (∀ (facts : List LoopFact), Leads (.servoTick facts) (fun s => servoHeld s = false) fun s t => (∀ e, e < 8 → (getRef
    t e).pending = none) ∧ (∀ e b, e < 8 → (getRef s e).pending = some b → (getRef t e).config = b) ∧ (∀ e, e < 8 →
    (getRef s e).pending = none → (getRef t e).config = (getRef s e).config) ∧ t.refs.pendingSource = none ∧ (∀ v,
    s.refs.pendingSource = some v → t.refs.timeSource = v)) ∧
  (∀ (f : CandidateFacts), Leads (.candidateQualityChange f) (fun _ => f.kind = 2) fun s t => (∃ g ∈ t.refs.measured,
    g = { f with quality := min f.quality (gradeLimit f) }) ∧ ∀ e k, e < 8 → k < 8 → factsOf (rcEntry (getRef s
    e).config k) f = true → (getCand (getRef t e) k).quality = (if (List.range 4).any fun p => bit f.index p &&
    (getNet s p).link == .up then min f.quality (gradeLimit f) else 0) ∧ (getCand (getRef t e) k).offset = f.phase ∧
    (getCand (getRef t e) k).freq = f.freq) ∧
  (∀ (f : CandidateFacts), Leads (.candidateQualityChange f) (fun s => f.kind = 1 ∧ inputEnabled s f.index = true) fun
    s t => getRefInput t f.index = detect (getRefInput s f.index) true f) ∧
  (∀ (p : Fin 4) (f : CandidateFacts), Leads (.ptpMessage p f) (fun s => (getNet s p.val).link = .up ∧ offloadHeld s =
    false) fun s t => ∀ e k, e < 8 → k < 8 → ceKind (rcEntry (getRef s e).config k) = 2 → bit (ceIndex (rcEntry
    (getRef s e).config k)) p.val = true → ceDomain (rcEntry (getRef s e).config k) = f.domain → (getCand (getRef t e)
    k).offset = f.phase - signed 4 (u32 (getNet s p.val).config 16) ∧ (getCand (getRef t e) k).freq = f.freq ∧
    (getCand (getRef t e) k).quality = (getCand (getRef s e) k).quality) ∧
  (∀ (e : Fin 8) (k : Fin 8), Leads (.wtrExpired e k) (fun s => (getCand (getRef s e.val) k.val).waiting = true ∧
    bestCand s (getRef s e.val) slots = some k.val ∧ (getRef s e.val).selected ≠ some k.val) fun _ t => (getRef t
    e.val).selected = some k.val ∧ (getRef t e.val).state = .acquiring ∧ (getCand (getRef t e.val) k.val).waiting =
    false) ∧
  (∀ (e : Fin 8), Leads (.holdoverExpired e) (fun s => (getRef s e.val).state = .holdover ∧ (getRef s
    e.val).holdoverExpired = false) fun s t => getRef t e.val = { getRef s e.val with holdoverExpired := true }) ∧
  (∀ (k : Fin 2), Leads (.clkoutStarted k) (fun s => (getClk s k.val).enable = true) fun s t => getClk t k.val =
    { getClk s k.val with running := true } ∧ Wakes s t (.clockOut k.val) (some s.now))

/-- NET commands complete as R437 to R442 say. R437 to R442: the NET commands. A module read is a fact of the module
(log entry 85). -/
def Obligations.NetCommandsComplete : Prop :=
  (CompletesWhen Instr.netPortConfig defNetPortConfig (fun s c => u8 c.p 1 = 0 ∨ ncEnable (getNet s (u8 c.p 0)).config
    = true) fun s c t => Changes s c t (some s.now) ∧ (getNet t (u8 c.p 0)).config = c.p ∧ (u8 c.p 1 = 0 → (getNet t
    (u8 c.p 0)).resetPin = true) ∧ (u8 c.p 1 = 1 → (getNet t (u8 c.p 0)).resetPin = false)) ∧
  (CompletesWhen Instr.netPortConfig defNetPortConfig (fun s c => u8 c.p 1 = 1 ∧ ncEnable (getNet s (u8 c.p 0)).config
    = false) fun s c t => t.fm.gen = s.fm.gen + 1 ∧ (getNet t (u8 c.p 0)).config = c.p ∧ (getNet t (u8 c.p
    0)).resetPin = false ∧ ((getDomain t (0x48 + u8 c.p 0)).state = .on → Answered t c stOK (s.fm.gen + 1) (some
    s.now) []) ∧ ((getDomain t (0x48 + u8 c.p 0)).state ≠ .on → (getChan t c.ch).state = .running ∧ ((getChan t
    c.ch).waiting.map (·.cause)) = some (.domainOn (0x48 + u8 c.p 0)))) ∧
  (Completes Instr.netPortGetConfig defNetPortGetConfig fun s c t => Unmoved s t c.ch ∧ Answered t c stOK s.fm.gen
    none (le 1 (u8 c.p 0) ++ sub (getNet s (u8 c.p 0)).config 1 31)) ∧
  (Completes Instr.netPortStatus defNetPortStatus fun s c t => Reports s c t 96 fun p => Field p 0 1 (u8 c.p 0) ∧
    Field p 1 1 (netNum (getNet s (u8 c.p 0)).link) ∧ Field p 10 2 (getNet s (u8 c.p 0)).linkLosses ∧ Field p 16 8
    (getNet s (u8 c.p 0)).rx ∧ Field p 24 8 (getNet s (u8 c.p 0)).tx ∧ Field p 48 8 (getNet s (u8 c.p 0)).fcs ∧ Field
    p 56 8 (getNet s (u8 c.p 0)).unmatched ∧ Field p 64 4 (getNet s (u8 c.p 0)).oversize ∧ Field p 76 4 (getNet s (u8
    c.p 0)).offloadDrops ∧ Field p 88 8 s.now) ∧
  (CompletesWhen Instr.netRxFlow defNetRxFlow (fun s c => flowChange (flowCommitted (getFlow s (rxKey c.p))) c.p ≠
    .move) fun s c t => t.fm.gen = s.fm.gen + 1 ∧ (getFlow t (rxKey c.p)).moving = none ∧ flowCommitted (getFlow t
    (rxKey c.p)) = c.p ∧ ((getFlow t (rxKey c.p)).pending = none → Answered t c stOK (s.fm.gen + 1) (some s.now) []) ∧
    ((getFlow t (rxKey c.p)).pending ≠ none → (getChan t c.ch).state = .running ∧ ((getChan t c.ch).waiting.map
    (·.cause)) = some (.flow (rxKey c.p)))) ∧
  (CompletesWhen Instr.netRxFlow defNetRxFlow (fun s c => flowChange (flowCommitted (getFlow s (rxKey c.p))) c.p =
    .start) fun s c t => Changes s c t (some s.now) ∧ (getFlow t (rxKey c.p)).config = c.p ∧ (getFlow t (rxKey
    c.p)).newest = none ∧ (getFlow t (rxKey c.p)).held = []) ∧
  (CompletesWhen Instr.netRxFlow defNetRxFlow (fun s c => flowChange (flowCommitted (getFlow s (rxKey c.p))) c.p =
    .move) fun s c t => Queues s c t ∧ flowCommitted (getFlow t (rxKey c.p)) = c.p ∧ (getFlow t (rxKey c.p)).config =
    (getFlow s (rxKey c.p)).config ∧ ((getFlow t (rxKey c.p)).moving.map fun m => (m.first, m.gen)) = some (moveFirst
    s (fcKind c.p), s.fm.gen + 1)) ∧
  (Completes Instr.netTxFlow defNetTxFlow fun s c t => t.fm.gen = s.fm.gen + 1 ∧ flowCommitted (getFlow t (txKey c.p))
    = c.p ∧ ((getFlow t (txKey c.p)).moving.isSome = true → Queues s c t) ∧ ((getFlow t (txKey c.p)).moving.isNone =
    true → (getFlow t (txKey c.p)).pending = none → Answered t c stOK (s.fm.gen + 1) (some s.now) []) ∧ ((getFlow t
    (txKey c.p)).moving.isNone = true → (getFlow t (txKey c.p)).pending ≠ none → (getChan t c.ch).state = .running ∧
    ((getChan t c.ch).waiting.map (·.cause)) = some (.flow (txKey c.p)))) ∧
  (CompletesWhen Instr.netTxFlow defNetTxFlow (fun s c => flowChange (flowCommitted (getFlow s (txKey c.p))) c.p =
    .start) fun s c t => Changes s c t (some s.now) ∧ (getFlow t (txKey c.p)) =
    { (getFlow s (txKey c.p)) with config := c.p, frameTime := none }) ∧
  (CompletesWhen Instr.netTxFlow defNetTxFlow (fun s c => flowChange (flowCommitted (getFlow s (txKey c.p))) c.p =
    .rule ∧ txAtRest s c.p = false) fun s c t => Awaits s c t (.flow (txKey c.p)) ∧ (getFlow t (txKey c.p)) =
    { (getFlow s (txKey c.p)) with pending := some c.p, pendingAt := s.now + 1000000 }) ∧
  (Completes Instr.netFlowGet defNetFlowGet fun s c t => Unmoved s t c.ch ∧ Answered t c stOK s.fm.gen none (le 1 (u8
    c.p 0) ++ le 1 (u8 c.p 2) ++ sub (flowCommitted (getFlow s (namedFlow c))) 2 46)) ∧
  (Completes Instr.netFlowStatus defNetFlowStatus fun s c t => Reports s c t 96 fun p => sub p 0 3 = sub c.p 0 3 ∧
    Field p 5 1 (getFlow s (namedFlow c)).placement ∧ Field p 8 8 (getFlow s (namedFlow c)).packets ∧ Field p 32 4
    (getFlow s (namedFlow c)).duplicates ∧ Field p 36 4 (getFlow s (namedFlow c)).policed ∧ Field p 48 4 (getFlow s
    (namedFlow c)).late ∧ Field p 52 4 (getFlow s (namedFlow c)).missing ∧ Field p 80 8 (getFlow s (namedFlow
    c)).lastTime ∧ Field p 88 8 s.now) ∧
  (∀ (acked : Bool) (data : Bytes), Completes (fun ch => .netModuleIo ch acked data) (defNetModuleIo acked data) fun s
    c t => Unmoved s t c.ch ∧ Answered t c stOK s.fm.gen none (if u8 c.p 1 = 0 then sub c.p 0 8 ++ (data ++ zeros (u8
    c.p 5)).take (u8 c.p 5) else []))

/-- A received frame passes the checks of R417 in their order, and each drop is counted where the rule says. R410,
R413, R417 to R419 and R430: a port's link and the reception of a frame. -/
def Obligations.NetReception : Prop :=
  (∀ (p : Fin 4) (m : NetPacket), Leads (.packetReceived p m) (fun s => closing s (0x48 + p.val) = false ∧ (getNet s
    p.val).link ≠ .up) fun s t => t = s) ∧
  (∀ (p : Fin 4) (m : NetPacket), Leads (.packetReceived p m) (fun s => closing s (0x48 + p.val) = false ∧ (getNet s
    p.val).link = .up ∧ m.fcsOk = false) fun s t => getNet t p.val =
    { getNet s p.val with rx := (getNet s p.val).rx + 1, fcs := (getNet s p.val).fcs + 1 } ∧ (∀ j, j ≠ p.val → getNet
    t j = getNet s j) ∧ t.flows = s.flows) ∧
  (∀ (p : Fin 4) (m : NetPacket), Leads (.packetReceived p m) (fun s => closing s (0x48 + p.val) = false ∧ (getNet s
    p.val).link = .up ∧ m.fcsOk = true ∧ 1522 < m.size) fun s t => getNet t p.val = { getNet s p.val with
      rx := (getNet s p.val).rx + 1, oversize := satInc 32 (getNet s p.val).oversize } ∧ (∀ j, j ≠ p.val → getNet t j
    = getNet s j) ∧ t.flows = s.flows) ∧
  (∀ (p : Fin 4) (m : NetPacket), Leads (.packetReceived p m) (fun s => closing s (0x48 + p.val) = false ∧ (getNet s
    p.val).link = .up ∧ portCheck (getNet s p.val) m = .pass ∧ matchFlow s p.val m = none) fun s t => getNet t p.val =
    { getNet s p.val with
      rx := (getNet s p.val).rx + 1, unmatched := (getNet s p.val).unmatched + 1 } ∧ (∀ j, j ≠ p.val → getNet t j =
    getNet s j) ∧ t.flows = s.flows) ∧
  (∀ (p : Fin 4) (m : NetPacket) (k : Nat), Leads (.packetReceived p m) (fun s => closing s (0x48 + p.val) = false ∧
    (getNet s p.val).link = .up ∧ portCheck (getNet s p.val) m = .pass ∧ matchFlow s p.val m = some k ∧ keyKind k = 2
    ∧ (getFlow s k).moving = none ∧ (police s (getFlow s k).config (Tab.get (getFlow s k).legs p.val {}) m.ipBytes).2
    = false) fun s t => (getFlow t k).policed = satInc 32 (getFlow s k).policed ∧ (getFlow t k).packets = (getFlow s
    k).packets ∧ (∀ h ∈ (getFlow t k).held, h ∈ (getFlow s k).held) ∧ (flowFrameOpen s (fcAssoc (getFlow s k).config)
    = false → (getFlow t k).held = (getFlow s k).held) ∧ (getNet t p.val).rx = (getNet s p.val).rx + 1) ∧
  (∀ (p : Fin 4) (m : NetPacket) (k : Nat), Leads (.packetReceived p m) (fun s => closing s (0x48 + p.val) = false ∧
    (getNet s p.val).link = .up ∧ portCheck (getNet s p.val) m = .pass ∧ matchFlow s p.val m = some k ∧ keyKind k = 2
    ∧ (getFlow s k).moving = none ∧ (police s (getFlow s k).config (Tab.get (getFlow s k).legs p.val {}) m.ipBytes).2
    = true ∧ headerOk s (getFlow s k).config m = false) fun s t => (getFlow t k).malformed = satInc 32 (getFlow s
    k).malformed ∧ (getFlow t k).packets = (getFlow s k).packets ∧ (∀ h ∈ (getFlow t k).held, h ∈ (getFlow s k).held)
    ∧ (flowFrameOpen s (fcAssoc (getFlow s k).config) = false → (getFlow t k).held = (getFlow s k).held)) ∧
  (∀ (p : Fin 4) (m : NetPacket) (k : Nat), Leads (.packetReceived p m) (fun s => closing s (0x48 + p.val) = false ∧
    (getNet s p.val).link = .up ∧ portCheck (getNet s p.val) m = .pass ∧ matchFlow s p.val m = some k ∧ keyKind k = 2
    ∧ (getFlow s k).moving = none ∧ (police s (getFlow s k).config (Tab.get (getFlow s k).legs p.val {}) m.ipBytes).2
    = true ∧ headerOk s (getFlow s k).config m = true ∧ seqCheck (getFlow s k) 16 m.seq = .duplicate ∧ fcKind (getFlow
    s k).config = 2) fun s t => (getFlow t k).duplicates = satInc 32 (getFlow s k).duplicates ∧ (∀ h ∈ (getFlow t
    k).held, h ∈ (getFlow s k).held) ∧ (flowFrameOpen s (fcAssoc (getFlow s k).config) = false → (getFlow t k).held =
    (getFlow s k).held) ∧ (getFlow t k).reorderRun = 0) ∧
  (∀ (p : Fin 4) (m : NetPacket) (k : Nat), Leads (.packetReceived p m) (fun s => closing s (0x48 + p.val) = false ∧
    (getNet s p.val).link = .up ∧ portCheck (getNet s p.val) m = .pass ∧ matchFlow s p.val m = some k ∧ keyKind k = 2
    ∧ (getFlow s k).moving = none ∧ (police s (getFlow s k).config (Tab.get (getFlow s k).legs p.val {}) m.ipBytes).2
    = true ∧ headerOk s (getFlow s k).config m = true ∧ seqCheck (getFlow s k) 16 m.seq = .accept ∧ fcKind (getFlow s
    k).config = 2 ∧ isLate s (getFlow s k).config (extend (clock90 s.now) m.timestamp) m = false ∧ heldBytes (getFlow
    s k) + m.ipBytes ≤ flowQuota s (getFlow s k).config) fun s t => (getFlow t k).packets = (getFlow s k).packets + 1
    ∧ (getFlow t k).lastTime = extend (clock90 s.now) m.timestamp ∧ (flowFrameOpen s (fcAssoc (getFlow s k).config) =
    false → heldBytes (getFlow t k) = m.ipBytes + heldBytes (getFlow s k)) ∧ m.seq ∈ (getFlow t k).seen) ∧
  (∀ (p : Fin 4) (m : NetPacket), Leads (.packetReceived p m) (fun s => closing s (0x48 + p.val) = true) fun s t => t
    = { s with domains := t.domains } ∧ (getDomain t (0x48 + p.val)).spoil = ((getDomain s (0x48 + p.val)).spoil + 1)
    % 2 ^ 64) ∧
  (∀ (p : Fin 4) (goal : Fin 6) (fc : Nat) (fu : Nat), Leads (.netLink p goal fc fu) (fun s => goal.val = 5 ∧ ncEnable
    (getNet s p.val).config = true ∧ (getNet s p.val).present = true ∧ netLanesLocked s p.val = true) fun s t =>
    (getNet t p.val).link = .up ∧ (getNet t p.val).fecCorrected = (getNet s p.val).fecCorrected + fc ∧ (getNet t
    p.val).fecUncorrected = (getNet s p.val).fecUncorrected + fu ∧ ((getNet s p.val).link ≠ .up → (getNet t p.val).tx
    = (getNet s p.val).tx + 1)) ∧
  (∀ (p : Fin 4) (goal : Fin 6) (fc : Nat) (fu : Nat), Leads (.netLink p goal fc fu) (fun s => (getNet s p.val).link =
    .up ∧ ncEnable (getNet s p.val).config = true ∧ (getNet s p.val).present = true ∧ netLanesLocked s p.val = false)
    fun s t => (getNet t p.val).link = .noSignal ∧ (getNet t p.val).linkLosses = satInc 16 (getNet s
    p.val).linkLosses) ∧
  (∀ (p : Fin 4) (present : Bool) (int : Bool), Leads (.qsfpPresentChange p present int) (fun _ => True) fun s t =>
    (getNet t p.val).present = present ∧ (getNet t p.val).intAsserted = int ∧ (present = false → (getNet t p.val).link
    = .down) ∧ (present = true → ncEnable (getNet s p.val).config = true → (getNet s p.val).link = .down → (getNet t
    p.val).link = .noSignal)) ∧
  (∀ (kind : Fin 3) (i : BitVec 8) (leg : Fin 2) (live : Bool) (l : Nat × Nat), Leads (.netLeg kind i leg live) (fun s
    => (legsOf (getFlow s (flowKey 0 kind.val i.toNat)).config).find? (fun q => q.1 == leg.val) = some l ∧ fcEnable
    (getFlow s (flowKey 0 kind.val i.toNat)).config = true ∧ (Tab.get (getFlow s (flowKey 0 kind.val i.toNat)).legs
    l.2 {}).live ≠ live) fun _ t => (Tab.get (getFlow t (flowKey 0 kind.val i.toNat)).legs l.2 {}).live = live) ∧
  (∀ (p : Fin 4) (m : NetPacket) (k : Nat), Leads (.packetReceived p m) (fun s => closing s (0x48 + p.val) = false ∧
    (getNet s p.val).link = .up ∧ portCheck (getNet s p.val) m = .pass ∧ matchFlow s p.val m = some k ∧ keyKind k = 2
    ∧ (getFlow s k).moving = none ∧ (police s (getFlow s k).config (Tab.get (getFlow s k).legs p.val {}) m.ipBytes).2
    = true ∧ headerOk s (getFlow s k).config m = true ∧ seqCheck (getFlow s k) 16 m.seq = .behind ∧ fcKind (getFlow s
    k).config = 2) fun s t => (getFlow t k).reorderDrops = satInc 32 (getFlow s k).reorderDrops ∧ (∀ h ∈ (getFlow t
    k).held, h ∈ (getFlow s k).held) ∧ (flowFrameOpen s (fcAssoc (getFlow s k).config) = false → (getFlow t k).held =
    (getFlow s k).held) ∧ (getFlow t k).reorderRun = (getFlow s k).reorderRun + 1)

/-- Release, sample writes, sending and the offload engine do what R412 and R424 to R436 say. R412, R424 to R437 and
R443: what leaves the flow buffer, what is sent, and the offload engine. The flow-silent clause is R149. -/
def Obligations.NetRelease : Prop :=
  (∀ (i : Fin 64) (e : Nat) (row : Nat) (field2 : Bool) (supplied : Bool) (l : LineFacts), Leads (.lineRelease i e row
    field2 supplied l) (fun s => fcEnable (getFlow s (flowKey 0 0 i.val)).config = true ∧ (getFlow s (flowKey 0 0
    i.val)).frameTime = some e ∧ supplied = false) fun s t => (∀ h ∈ (getFlow t (flowKey 0 0 i.val)).held, h ∈
    (getFlow s (flowKey 0 0 i.val)).held ∧ e ≤ h.time) ∧ ((getFlow s (flowKey 0 0 i.val)).moveFrame = some e →
    (getFlow t (flowKey 0 0 i.val)).moveGaps = satInc 32 (getFlow s (flowKey 0 0 i.val)).moveGaps ∧ (getFlow t
    (flowKey 0 0 i.val)).moveFrame = none) ∧ (tiedFlows s i.val = [] → t.sources = s.sources)) ∧
  (∀ (i : BitVec 8) (e : Nat) (b : FlowBind), Leads (.audioSampleWrite i e) (fun s => bindOf s 0 i.toNat = some b ∧
    fcEnable (getFlow s (flowKey 0 1 i.toNat)).config = true ∧ sampleIn (getFlow s (flowKey 0 1 i.toNat)) e = none)
    fun s t => ∀ j, j < b.count → (getAsrc t (0x1000 + b.base + j)).concealed = satInc 32 (getAsrc s (0x1000 + b.base
    + j)).concealed ∧ (getAsrc t (0x1000 + b.base + j)).samples.head? = some 0) ∧
  (∀ (i : BitVec 8) (e : Nat) (b : FlowBind) (h : HeldPacket × Nat), Leads (.audioSampleWrite i e) (fun s => bindOf s
    0 i.toNat = some b ∧ fcEnable (getFlow s (flowKey 0 1 i.toNat)).config = true ∧ sampleIn (getFlow s (flowKey 0 1
    i.toNat)) e = some h) fun s t => ∀ j, j < b.count → (getAsrc s (0x1000 + b.base + j)).ramp = 0 → (getAsrc t
    (0x1000 + b.base + j)).samples.head? = some (netSample h.1.data ((h.2 * b.count + j) * sampleBytes (getFlow s
    (flowKey 0 1 i.toNat)).config) (sampleBytes (getFlow s (flowKey 0 1 i.toNat)).config)) ∧ (getAsrc t (0x1000 +
    b.base + j)).concealed = (getAsrc s (0x1000 + b.base + j)).concealed) ∧
  (∀ (kind : Fin 3) (i : BitVec 8) (field2 : Bool) (late : Bool) (l : Nat × Nat), Leads (.packetSend kind i field2
    late) (fun s => kind.val = 0 ∧ sendsNow s (flowKey 1 kind.val i.toNat) = true ∧ legsOf (getFlow s (flowKey 1
    kind.val i.toNat)).config = [l] ∧ resolved s l.2 (fcDst (getFlow s (flowKey 1 kind.val i.toNat)).config l.1) =
    true ∧ (getNet s l.2).link = .up) fun s t => (getFlow t (flowKey 1 kind.val i.toNat)).packets = (getFlow s
    (flowKey 1 kind.val i.toNat)).packets + 1 ∧ (getFlow t (flowKey 1 kind.val i.toNat)).sendSeq = ((getFlow s
    (flowKey 1 kind.val i.toNat)).sendSeq + 1) % 4294967296 ∧ (getFlow t (flowKey 1 kind.val i.toNat)).sendFaults =
    satAdd 32 (getFlow s (flowKey 1 kind.val i.toNat)).sendFaults (flag late) ∧ (getNet t l.2).tx = (getNet s l.2).tx
    + 1) ∧
  (∀ (p : Fin 4) (hop : BitVec 32), Leads (.arpTimer p hop) (fun s => (getNet s p.val).link = .up ∧ offloadHeld s =
    false ∧ hop.toNat ∈ hopsOf s p.val) fun s t => (getNet t p.val).tx = (getNet s p.val).tx + 1 ∧ (∀ j, j ≠ p.val →
    getNet t j = getNet s j) ∧ Tab.get (getNet t p.val).arp hop.toNat {} = Tab.get (getNet s p.val).arp hop.toNat {})
    ∧
  (∀ (p : Fin 4) (group : BitVec 32), Leads (.igmpReportTimer p group) (fun s => (getNet s p.val).link = .up ∧
    offloadHeld s = false ∧ Tab.get (getNet s p.val).reports group.toNat 0 ≠ 0) fun s t => (getNet t p.val).tx =
    (getNet s p.val).tx + 1 ∧ Tab.get (getNet t p.val).reports group.toNat 0 + 1 = Tab.get (getNet s p.val).reports
    group.toNat 0) ∧
  (∀ (p : Fin 4) (m : OffloadPacket), Leads (.offloadPacket p m) (fun s => closing s (0x48 + p.val) = false ∧ (getNet
    s p.val).link = .up ∧ (getNet s p.val).offSecond = s.now / 1000000000 ∧ 10000 ≤ (getNet s p.val).offCount) fun s t
    => getNet t p.val = { getNet s p.val with offloadDrops := satInc 32 (getNet s p.val).offloadDrops } ∧ (∀ j, j ≠
    p.val → getNet t j = getNet s j)) ∧
  (∀ (p : Fin 4) (m : OffloadPacket) (a : Nat) (mac : Nat), Leads (.offloadPacket p m) (fun s => closing s (0x48 +
    p.val) = false ∧ (getNet s p.val).link = .up ∧ (getNet s p.val).offSecond = s.now / 1000000000 ∧ (getNet s
    p.val).offCount < 10000 ∧ offloadHeld s = false ∧ m = .arpReply a mac ∧ (hopsOf s p.val).contains a = true) fun s
    t => Tab.get (getNet t p.val).arp a {} = { mac := some mac } ∧ (getNet t p.val).offCount = (getNet s
    p.val).offCount + 1) ∧
  (∀ (p : Fin 4) (addr : BitVec 32) (conflict : Bool), Leads (.netAddress p addr conflict) (fun s => conflict = true ∧
    (getNet s p.val).link = .up ∧ npAddress (getNet s p.val).config = addr.toNat) fun s t => t = raise s 0x63 p.val
    (le 4 addr.toNat ++ le 1 1)) ∧
  (∀ (p : Fin 4) (addr : BitVec 32) (conflict : Bool), Leads (.netAddress p addr conflict) (fun s => conflict = false
    ∧ addr.toNat ∈ hopsOf s p.val ∧ (Tab.get (getNet s p.val).arp addr.toNat {}).mac = none ∧ (Tab.get (getNet s
    p.val).arp addr.toNat {}).raised = false) fun s t => (Tab.get (getNet t p.val).arp addr.toNat {}).raised = true ∧
    (∀ j, j ≠ p.val → getNet t j = getNet s j)) ∧
  (∀ (p : Fin 4), Leads (.netDrop p) (fun _ => True) fun s t => (getNet t p.val).reported = portDrops (getNet s p.val)
    ∧ (∀ j, j ≠ p.val → getNet t j = getNet s j) ∧ t.fm = s.fm) ∧
  (∀ (i : Fin 64), Leads (.flowSilent i) (fun s => (getSource s (0x80 + i.val)).state = .formatted ∧ (getSource s
    (0x80 + i.val)).pendingDisable = false ∧ (getFlow s (flowKey 0 0 i.val)).pending = none ∧ fcEnable (getFlow s
    (flowKey 0 0 i.val)).config = true ∧ ((legsOf (getFlow s (flowKey 0 0 i.val)).config).any fun l => (Tab.get
    (getFlow s (flowKey 0 0 i.val)).legs l.2 {}).live) = false) fun s t => (getSource t (0x80 + i.val)).state = .lost
    ∧ (getSource t (0x80 + i.val)).cause = cFLOW_SILENT ∧ (getSource t (0x80 + i.val)).frame = none ∧ (getSource t
    (0x80 + i.val)).counts.losses = satInc 32 (getSource s (0x80 + i.val)).counts.losses)

/-- ADIT commands, markers, periods and slips do what R445 to R457 say. R445 to R457 and R511: the Adit link. What the
partner sends is the command's operand (log entry 85). -/
def Obligations.AditRowsComplete : Prop :=
  (Completes Instr.aditConfig defAditConfig fun s c t => Changes s c t (some s.now) ∧ t.adit.mask = u8 c.p 2 ∧
    t.adit.autoAlign = bit (u8 c.p 1) 0 ∧ t.adit.enable = (u8 c.p 0 == 1)) ∧
  (Completes Instr.aditStatus defAditStatus fun s c t => Reports s c t 32 fun p => Field p 0 1 (aditNum s.adit.link) ∧
    Field p 1 1 s.adit.inService ∧ Field p 2 1 (aditSlots s) ∧ Field p 8 4 s.adit.laneLosses ∧ Field p 16 8
    s.adit.periods ∧ Field p 24 8 s.now) ∧
  (CompletesWhen Instr.aditTie defAditTie (fun s c => tcDir c.p = 0 ∧ aditCarries s = true) fun s c t => Awaits s c t
    (.aditPeriod (tcTie c.p)) ∧ (getTie t (tieKey c)) = { (getTie s (tieKey c)) with pending := some c.p }) ∧
  (CompletesWhen Instr.aditTie defAditTie (fun s c => tcDir c.p = 0 ∧ aditCarries s = false) fun s c t => Changes s c
    t (some s.now) ∧ (getTie t (tieKey c)).config = c.p ∧ (getTie t (tieKey c)).pending = none) ∧
  (CompletesWhen Instr.aditTie defAditTie (fun s c => tcDir c.p = 1 ∧ atRest s (0x100 + tcTie c.p) = true) fun s c t
    => t.fm.gen = s.fm.gen + 1 ∧ (getTie t (tieKey c)).config = c.p ∧ (getTie t (tieKey c)).pending = none) ∧
  (CompletesWhen Instr.aditTie defAditTie (fun s c => tcDir c.p = 1 ∧ atRest s (0x100 + tcTie c.p) = false) fun s c t
    => Awaits s c t (.boundary (0x100 + tcTie c.p)) ∧ (getTie t (tieKey c)) =
    { (getTie s (tieKey c)) with pending := some c.p }) ∧
  (Completes Instr.aditTieStatus defAditTieStatus fun s c t => Reports s c t 32 fun p => Field p 0 1 (u8 c.p 0) ∧
    Field p 1 1 (u8 c.p 1) ∧ Field p 2 1 (getTie s (32 * u8 c.p 1 + u8 c.p 0)).state ∧ Field p 4 4 (getTie s (32 * u8
    c.p 1 + u8 c.p 0)).ancDropped ∧ Field p 8 4 (getTie s (32 * u8 c.p 1 + u8 c.p 0)).linesLost ∧ Field p 16 8 (getTie
    s (32 * u8 c.p 1 + u8 c.p 0)).frames ∧ Field p 24 8 s.now) ∧
  (∀ (i : Fin 8) (seed : BitVec 31) (epoch : BitVec 8) (aligned : Bool), Leads (.aditMarker i seed epoch aligned) (fun
    s => s.adit.enable = true ∧ (getLane s (0x400 + i.val)).state = .locked) fun s t => t = { s with
      adit := { s.adit with seeds := Tab.set s.adit.seeds i.val seed, rxEpoch := epoch.toNat, partnerAligned := aligned } })
    ∧
  (∀ (f : AditPeriod), Leads (.aditPeriod f) (fun s => closing s 0x4E = true) fun s t => t =
    { s with domains := t.domains } ∧ (getDomain t 0x4E).spoil = ((getDomain s 0x4E).spoil + 1) % 2 ^ 64) ∧
  (∀ (f : AditPeriod), Leads (.aditPeriod f) (fun s => closing s 0x4E = false ∧ s.adit.enable = true) fun s t =>
    t.adit.periods = s.adit.periods + 1 ∧ t.adit.slotsRx = f.slots ∧ ∀ n, n < 32 → (getTie t (tieSendKey n)).pending =
    none ∧ ∀ b, (getTie s (tieSendKey n)).pending = some b → (getTie t (tieSendKey n)).config = b) ∧
  (∀ (i : Fin 8), Leads (.autoAlignSlip i) (fun s => s.adit.enable = true ∧ s.adit.autoAlign = true ∧ s.updating =
    false ∧ (getLane s (0x400 + i.val)).state = .locked ∧ (getLane s (0x400 + i.val)).align ≠ 1 ∧ bit s.adit.mask
    i.val = true) fun s t => t.fm.gen = s.fm.gen + 1 ∧ t.fm.jcount = s.fm.jcount + 1 ∧ getLane t (0x400 + i.val) =
    { getLane s (0x400 + i.val) with
      align := 0, boundary := ((getLane s (0x400 + i.val)).boundary + 1) % 64 } ∧ ∀ j, j ≠ 0x400 + i.val → getLane t j
    = getLane s j)

/-- LEDGER and POWER commands complete as R461, R480, R484 and R485 say. R461, R469, R480, R484 and R485: the LEDGER
and POWER commands. -/
def Obligations.LedgerPowerCommandsComplete : Prop :=
  (Completes Instr.ledgerStatus defLedgerStatus fun s c t => OtherChannels s t c.ch ∧ (∃ p, Answered t c stOK s.fm.gen
    none p ∧ p.length = 336 ∧ Field p 0 8 s.now ∧ Field p 9 1 10 ∧ ∀ r, r < 10 → Field p (16 + 32 * r) 1 r ∧ Field p
    (17 + 32 * r) 1 (railState s (getRail s r)) ∧ Field p (20 + 32 * r) 2 (hardCeiling s r) ∧ Field p (22 + 32 * r) 2
    (getRail s r).soft ∧ Field p (36 + 32 * r) 4 (getRail s r).measured) ∧ ∀ r, railPeak (getRail t r) c.port = 0 ∧
    (getRail t r).measured = (getRail s r).measured) ∧
  (Completes Instr.ledgerCeiling defLedgerCeiling fun s c t => Changes s c t (some s.now) ∧ ∀ r, r < 10 → (getRail t
    r).soft = u16 c.p (2 * r) ∧ (getRail t r).softIgnored = false ∧ (getRail t r).state = (getRail s r).state) ∧
  (Completes Instr.ledgerDelta defLedgerDelta fun s c t => Reports s c t 96 fun p => Field p 0 8 (u64 c.p 0) ∧ (∀ d,
    s.fm.deltas.find? (fun (x : Delta) => x.gen == u64 c.p 0) = some d → Field p 8 1 (flag d.isSettled) ∧ sub p 16 40
    = deltaBytes d.admission) ∧ ((s.fm.deltas.find? (fun (x : Delta) => x.gen == u64 c.p 0)).isNone = true → sub p 16
    80 = zeros 80)) ∧
  (Completes Instr.powerStatus defPowerStatus fun s c t => Reports s c t 48 fun p => Field p 0 1 (u8 c.p 0) ∧ Field p
    40 8 s.now ∧ (1 < u8 c.p 0 → Field p 1 1 (domainState s (u8 c.p 0)) ∧ Field p 2 1 (getDomain s (u8 c.p 0)).mode ∧
    Field p 4 4 (getDomain s (u8 c.p 0)).epoch ∧ Field p 8 8 (getDomain s (u8 c.p 0)).spoil ∧ Field p 24 4 (getDomain
    s (u8 c.p 0)).powerUps) ∧ (u8 c.p 0 ≤ 1 → Field p 1 1 3)) ∧
  (Completes Instr.powerList defPowerList fun s c t => Reports s c t (8 + 8 * (gateable s).length) fun p => Field p 0
    1 (gateable s).length ∧ ∀ d, (gateable s).head? = some d → Field p 8 1 d ∧ Field p 9 1 (domainState s d) ∧ Field p
    12 4 (getDomain s d).epoch) ∧
  (CompletesWhen Instr.powerDomain defPowerDomain (fun _ c => u8 c.p 1 = 0) fun s c t => Changes s c t (some s.now) ∧
    (getDomain t (u8 c.p 0)).mode = 0) ∧
  (CompletesWhen Instr.powerDomain defPowerDomain (fun _ c => u8 c.p 1 = 1) fun s c t => t.fm.gen = s.fm.gen + 1 ∧
    (getDomain t (u8 c.p 0)).mode = 1 ∧ ((getDomain t (u8 c.p 0)).state = .on → Answered t c stOK (s.fm.gen + 1) (some
    s.now) []) ∧ ((getDomain t (u8 c.p 0)).state ≠ .on → Awaits s c t (.domainOn (u8 c.p 0)))) ∧
  (CompletesWhen Instr.powerDomain defPowerDomain (fun _ c => u8 c.p 1 = 2) fun s c t => t.fm.gen = s.fm.gen + 1 ∧
    (getDomain t (u8 c.p 0)).mode = 2 ∧ ((getDomain t (u8 c.p 0)).state = .off → Answered t c stOK (s.fm.gen + 1)
    (some s.now) []) ∧ ((getDomain t (u8 c.p 0)).state ≠ .off → Awaits s c t (.domainOff (u8 c.p 0)) ∧ (getDomain t
    (u8 c.p 0)).state = .drain))

/-- Rail samples and the passage of a domain from CUT to ON do what R470 to R482 say. R470 to R482: measured current,
shedding and the power of a domain. -/
def Obligations.PowerEventsComplete : Prop :=
  (∀ (r : Fin 10) (sample : Nat), Leads (.railSample r sample) (fun _ => True) fun s t => (getRail t r.val).measured =
    sample ∧ (getRail t r.val).peakA = max (getRail s r.val).peakA sample ∧ (getRail t r.val).peakB = max (getRail s
    r.val).peakB sample ∧ (getRail t r.val).window.head? = some sample ∧ (getRail t r.val).soft = (getRail s
    r.val).soft) ∧
  (∀ (r : Fin 10) (sample : Nat), Leads (.railSample r sample) (fun s => (getRail s r.val).state = 0 ∧ (getRail s
    r.val).overRun.length = 9 ∧ ceilingMa s r.val < sample) fun _ t => (getRail t r.val).state = 2 ∨ (getRail t
    r.val).state = 3) ∧
  (∀ (r : Fin 10) (sample : Nat), Leads (.railSample r sample) (fun s => (getRail s r.val).state ≠ 0 ∧ (getRail s
    r.val).clearRun = 99 ∧ sample ≤ ceilingMa s r.val) fun _ t => (getRail t r.val).state = 0 ∧ (getRail t
    r.val).shedGen = none) ∧
  (∀ (r : Fin 10) (sample : Nat), Leads (.railSample r sample) (fun s => (getRail s r.val).state = 0 ∧ (getRail s
    r.val).overRun.length < 9 ∧ ceilingMa s r.val < sample) fun s t => (getRail t r.val).state = 0 ∧ (getRail t
    r.val).overRun = sample :: (getRail s r.val).overRun ∧ t.fm = s.fm ∧ t.routes = s.routes) ∧
  (∀ (d : BitVec 8), Leads (.cut d) (fun s => (getDomain s d.toNat).state = .drain ∧ (getDomain s d.toNat).cut =
    false) fun s t => (getDomain t d.toNat).cut = true ∧ (getDomain t d.toNat).since = s.now ∧ (getDomain t
    d.toNat).idle = false) ∧
  (∀ (d : BitVec 8), Leads (.domainOff d) (fun s => (getDomain s d.toNat).cut = true) fun s t => (getDomain t
    d.toNat).cut = false ∧ ((getDomain s d.toNat).mode = 2 → (getDomain t d.toNat).state = .off) ∧ ((getDomain s
    d.toNat).mode = 1 → s.fw.standby = none → (getDomain t d.toNat).state = .waking ∧ (getDomain t d.toNat).epoch =
    ((getDomain s d.toNat).epoch + 1) % 4294967296) ∧ Wakes s t (.domainOff d.toNat) (some s.now)) ∧
  (∀ (d : BitVec 8), Leads (.domainWake d) (fun s => (getDomain s d.toNat).state = .waking ∧ (d.toNat = 0x4E →
    s.adit.enable = false)) fun s t => (getDomain t d.toNat).state = .quiet ∧ (getDomain t d.toNat).epoch = (getDomain
    s d.toNat).epoch ∧ (getDomain t d.toNat).cut = false) ∧
  (∀ (d : BitVec 8), Leads (.quietCleared d) (fun s => (getDomain s d.toNat).state = .quiet) fun s t => (getDomain t
    d.toNat).state = .on ∧ (getDomain t d.toNat).epoch = (getDomain s d.toNat).epoch ∧ Wakes s t (.domainOn d.toNat)
    (some s.now))

/-- EVENT and JOURNAL commands complete as R504, R506 and R514 say. R504, R506, R507 and R512 to R514: events and the
journal. -/
def Obligations.EventCommandsComplete : Prop :=
  (Completes Instr.eventEnable defEventEnable fun s c t => OtherChannels s t c.ch ∧ Answered t c stOK s.fm.gen none []
    ∧ (∀ i, settingOf t c.port i = if u16 c.p 0 ≤ i ∧ i < u16 c.p 0 + u16 c.p 2 then u8 c.p 4 else settingOf s c.port
    i) ∧ ∀ i, settingOf t c.port.peer i = settingOf s c.port.peer i) ∧
  (Completes Instr.eventGet defEventGet fun s c t => Reports s c t (8 + 2 * u16 c.p 2) fun p => Field p 0 2 (u16 c.p
    2) ∧ ∀ i, i < u16 c.p 2 → Field p (8 + 2 * i) 1 (settingOf s .a (u16 c.p 0 + i)) ∧ Field p (9 + 2 * i) 1
    (settingOf s .b (u16 c.p 0 + i))) ∧
  (Completes Instr.eventStatus defEventStatus fun s c t => Reports s c t 80 fun p => Field p 0 8 s.eventsA.written ∧
    Field p 8 8 s.eventsA.lost ∧ Field p 16 8 s.eventsA.errorLost ∧ Field p 28 1 s.eventsA.urgentVector ∧ Field p 32 8
    s.eventsB.written ∧ Field p 60 1 s.eventsB.urgentVector ∧ Field p 64 8 s.now) ∧
  (Completes Instr.eventPort defEventPort fun s c t => OtherChannels s t c.ch ∧ Answered t c stOK s.fm.gen none [] ∧
    getCounts t c.port = { getCounts s c.port with urgentVector := u8 c.p 0 } ∧ getCounts t c.port.peer = getCounts s
    c.port.peer) ∧
  (Completes Instr.journalStatus defJournalStatus fun s c t => Reports s c t 48 fun p => Field p 0 8 (journalOldest s)
    ∧ Field p 8 8 s.fm.jseq ∧ Field p 16 8 s.fm.bootGen ∧ Field p 24 8 (orOnes s.fm.previousLast) ∧ Field p 32 8
    s.now) ∧
  (Completes Instr.journalRead defJournalRead fun s c t => Reports s c t (24 + 64 * (journalEntries s (u64 c.p 0) (u16
    c.p 8)).length) fun p => Field p 0 8 (max (u64 c.p 0) (journalOldest s)) ∧ Field p 8 8 s.fm.jseq ∧ Field p 16 2
    (journalEntries s (u64 c.p 0) (u16 c.p 8)).length ∧ (Field p 18 1 1 ↔ u64 c.p 0 < journalOldest s) ∧ ∀ e,
    (journalEntries s (u64 c.p 0) (u16 c.p 8)).head? = some e → sub p 24 64 = entryBytes e) ∧
  (Completes Instr.journalCopy defJournalCopy fun s c t => OtherChannels s t c.ch ∧ (∃ p, Answered t c stOK s.fm.gen
    none p ∧ p.length = 16 ∧ Field p 0 8 (max (u64 c.p 0) (journalOldest s)) ∧ Field p 8 4 (journalEntries s (u64 c.p
    0) (u32 c.p 8)).length) ∧ storeRead t (stagingBase c.port + u32 c.p 12) (64 * (journalEntries s (u64 c.p 0) (u32
    c.p 8)).length) = (journalEntries s (u64 c.p 0) (u32 c.p 8)).flatMap entryBytes ∧ ∀ a, a < stagingBase c.port +
    u32 c.p 12 ∨ stagingBase c.port + u32 c.p 12 + 64 * (journalEntries s (u64 c.p 0) (u32 c.p 8)).length ≤ a →
    Memory.read t.store.mem a = Memory.read s.store.mem a) ∧
  (∀ (p : Port) (src : Fin 1536), Leads (.coalesceWindowEnd p src) (fun s => Tab.has (getCounts s p).windows src.val =
    false) fun s t => t = s) ∧
  (∀ (p : Port) (src : Fin 1536), Leads (.coalesceWindowEnd p src) (fun s => Tab.has (getCounts s p).windows src.val =
    true ∧ (Tab.get (getCounts s p).windows src.val { source := src.val }).suppressed = 0) fun s t => Tab.has
    (getCounts t p).windows src.val = false ∧ (getCounts t p).written = (getCounts s p).written) ∧
  (∀ (p : Port) (src : Fin 1536), Leads (.coalesceWindowEnd p src) (fun s => Tab.has (getCounts s p).windows src.val =
    true ∧ (Tab.get (getCounts s p).windows src.val { source := src.val }).suppressed ≠ 0 ∧ (getPort s p).ring.enable
    = true ∧ ringFull (getPort s p).ring = false) fun s t => Tab.get (getCounts t p).windows src.val { source := 0 } =
    { source := src.val } ∧ (getCounts t p).written = (getCounts s p).written + 1 ∧ (getPort t p).ring.producer =
    (getPort s p).ring.producer + 1#32) ∧
  (Leads .journalAdvanced (fun s => s.fm.jReported < s.fm.jcount) fun s t => t.fm =
    { s.fm with jReported := s.fm.jcount })

/-- Semaphores, mailbox buffers and doorbells do what R47 to R54, R67 and R73 say. R47 to R54, R67, R70 and R73. The
opcodes known are those of 24_opcodes (log entry 1). -/
def Obligations.MailboxRowsComplete : Prop :=
  (∀ (p : Port) (cell : Fin 64) (tag : BitVec 16) (rival : Option (BitVec 16)), Leads (.semAcquire p cell tag rival)
    (fun s => (getSem s cell.val).owner = none ∧ rival = none) fun s t => getSem t cell.val =
    { owner := some p, tag := tag, acqCount := ((getSem s cell.val).acqCount + 1) % 256 } ∧ t.tieFirst = s.tieFirst ∧
    ∀ j, j ≠ cell.val → getSem t j = getSem s j) ∧
  (∀ (p : Port) (cell : Fin 64) (tag : BitVec 16) (rival : Option (BitVec 16)), Leads (.semAcquire p cell tag rival)
    (fun s => (getSem s cell.val).owner.isSome) fun s t => t = s) ∧
  (∀ (p : Port) (cell : Fin 64) (tag : BitVec 16) (rival : Option (BitVec 16)) (r : BitVec 16), Leads (.semAcquire p
    cell tag rival) (fun s => (getSem s cell.val).owner = none ∧ rival = some r) fun s t => (getSem t cell.val).owner
    = some s.tieFirst ∧ (getSem t cell.val).tag = (if s.tieFirst = p then tag else r) ∧ t.tieFirst = s.tieFirst.peer)
    ∧
  (∀ (p : Port) (cell : Fin 64), Leads (.semRelease p cell) (fun s => (getSem s cell.val).owner = some p) fun s t =>
    getSem t cell.val = { getSem s cell.val with owner := none, tag := 0 } ∧ (cell.val < 32 → (getChan t
    cell.val).cplIrq = false ∧ (getChan t cell.val).cplVector = 0) ∧ ∀ j, j ≠ cell.val → getSem t j = getSem s j) ∧
  (∀ (p : Port) (cell : Fin 64), Leads (.semRelease p cell) (fun s => (getSem s cell.val).owner ≠ some p) fun s t => t
    = s) ∧
  (∀ (p : Port) (ch : Fin 32) (off : Nat) (data : Bytes), Leads (.mailboxBufferWrite p ch off data) (fun s =>
    MemoryCanonical s ∧ rejectReason s p ch.val = 0 ∧ off + data.length ≤ 4096) fun s t => (getChan t ch.val).written
    = true ∧ (getChan t ch.val).state = (getChan s ch.val).state ∧ bufRead (getChan t ch.val) off data.length = data ∧
    (∀ a, a < off ∨ off + data.length ≤ a → Memory.read (getChan t ch.val).buffer a = Memory.read (getChan s
    ch.val).buffer a) ∧ OtherChannels s t ch.val) ∧
  (∀ (p : Port) (ch : Fin 32) (off : Nat) (data : Bytes), Leads (.mailboxBufferWrite p ch off data) (fun s =>
    rejectReason s p ch.val ≠ 0) fun s t => getChan t ch.val = { getChan s ch.val with
      rejects := satInc 32 (getChan s ch.val).rejects, lastReject := rejectReason s p ch.val } ∧ OtherChannels s t
    ch.val) ∧
  (∀ (p : Port) (ch : Fin 32) (epoch : Nat), Leads (.doorbell p ch epoch) (fun s => epoch ≠ (getPort s p).epoch) fun s
    t => getPort t p = { getPort s p with stale := satInc 32 (getPort s p).stale } ∧ t.channels = s.channels ∧ t.fm =
    s.fm) ∧
  (∀ (p : Port) (ch : Fin 32) (epoch : Nat), Leads (.doorbell p ch epoch) (fun s => epoch = (getPort s p).epoch ∧
    rejectReason s p ch.val ≠ 0) fun s t => getChan t ch.val = { getChan s ch.val with
      rejects := satInc 32 (getChan s ch.val).rejects, lastReject := rejectReason s p ch.val } ∧ t.fm = s.fm) ∧
  (∀ (p : Port) (ch : Fin 32) (epoch : Nat), Leads (.doorbell p ch epoch) (fun s => epoch = (getPort s p).epoch ∧
    rejectReason s p ch.val = 0 ∧ knownOpcodes.contains (u16 (bufRead (getChan s ch.val) 0 2) 0) = true) fun s t =>
    getChan t ch.val = { getChan s ch.val with state := .posted, rangBy := p, handed := false } ∧ t.fm =
    { s.fm with doorbells := s.fm.doorbells ++ [ch.val] } ∧ OtherChannels s t ch.val) ∧
  (∀ (p : Port) (ch : Fin 32) (epoch : Nat), Leads (.doorbell p ch epoch) (fun s => MemoryCanonical s ∧ epoch =
    (getPort s p).epoch ∧ rejectReason s p ch.val = 0 ∧ s.fm.doorbells = [] ∧ s.ready = true ∧ s.updating = false ∧
    (getChan s ch.val).written = true ∧ knownOpcodes.contains (u16 (bufRead (getChan s ch.val) 0 2) 0) = false) fun s
    t => Answered t (readCmd s ch.val) stBAD_OPCODE s.fm.gen none (nackBytes { status := stBAD_OPCODE }) ∧
    OtherChannels s t ch.val) ∧
  (∀ (ch : Fin 32) (w : Waiting), Leads (.awaitedCompletion ch) (fun s => MemoryCanonical s ∧ s.updating = false ∧
    (getChan s ch.val).waiting = some w ∧ w.ready = true) fun s t => Answered t (readCmd s ch.val) w.reply.status
    w.reply.gen w.reply.effect w.reply.payload ∧ (getChan t ch.val).waiting = none ∧ OtherChannels s t ch.val ∧ t.fm =
    s.fm) ∧
  (∀ (ch : Fin 32) (w : Waiting), Leads (.awaitedCompletion ch) (fun s => (getChan s ch.val).waiting = some w ∧
    (w.ready = false ∨ s.updating = true)) fun s t => t = s)

/-- Event-ring, MSI-X, capture, window and port rows do what R9, R10, R42 to R46, R55 to R57, R64 to R66 and R493 to
R499 say. R9, R43 to R46, R55 to R57, R64 to R66, R489 and R493 to R499: what the host does at a port beside the
mailbox. -/
def Obligations.PortRegistersComplete : Prop :=
  (∀ (p : Port) (v : BitVec 32), Leads (.erCtlWrite p v) (fun _ => True) fun s t => (getPort t p) =
    { (getPort s p) with
      ring := { (getPort s p).ring with enable := bit v.toNat 0, vector := bits v.toNat 12 8, moderation := bits v.toNat 23 16, consumer := (getPort t p).ring.consumer } }
    ∧ (getPort t p).ring.consumer = (if bit v.toNat 0 = true ∧ (getPort s p).ring.enable = false then (getPort s
    p).ring.producer else (getPort s p).ring.consumer)) ∧
  (∀ (p : Port) (v : BitVec 32), Leads (.erConsumerWrite p v) (fun s => 4096 < ((getPort s p).ring.producer -
    v).toNat) fun s t => (getPort t p) =
    { (getPort s p) with ring := { (getPort s p).ring with consumerErr := true } }) ∧
  (∀ (p : Port) (v : BitVec 32), Leads (.erConsumerWrite p v) (fun s => ((getPort s p).ring.producer - v).toNat ≤
    4096) fun s t => (getPort t p).ring.consumer = v ∧ (getPort t p).ring.consumerErr = (getPort s p).ring.consumerErr
    ∧ ((getPort s p).ring.enable = true → (getCounts s p).lostSince ≠ 0 → ((getPort s p).ring.producer - v).toNat <
    4096 → (getCounts t p).lostSince = 0 ∧ (getCounts t p).overflowRecords = satInc 32 (getCounts s p).overflowRecords
    ∧ (getPort t p).ring.producer = (getPort s p).ring.producer + 1#32)) ∧
  (∀ (p : Port), Leads (.moderationTimer p) (fun s => (getPort s p).ring.messagePending = true) fun s t => (getPort t
    p).ring = { (getPort s p).ring with messagePending := false, timerRunning := true } ∧ t.fm = s.fm) ∧
  (∀ (p : Port), Leads (.moderationTimer p) (fun s => (getPort s p).ring.messagePending = false) fun s t => (getPort t
    p) = { (getPort s p) with ring := { (getPort s p).ring with timerRunning := false } }) ∧
  (∀ (p : Port) (v : Fin 32), Leads (.msixUnmask p v) (fun _ => True) fun s t => getMsix t p v.val =
    { getMsix s p v.val with masked := false, pending := false } ∧ ((getMsix s p v.val).pending = true → msixAddr
    (getMsix s p v.val) ≠ 0 → (getPort t p).toHost = (getPort s p).toHost ++ [ToHost.msix v.val (msixAddr (getMsix s p
    v.val)) (getMsix s p v.val).data.toNat]) ∧ ((getMsix s p v.val).pending = false → (getPort t p).toHost = (getPort
    s p).toHost)) ∧
  (∀ (p : Port) (reg : CaptureReg), Leads (.captureRead p reg) (fun _ => True) fun s t => (reg = .gen → (getPort t p)
    = { (getPort s p) with genCapture := s.fm.gen }) ∧ (reg = .jseq → (getPort t p) =
    { (getPort s p) with jseqCapture := s.fm.jseq }) ∧ (∀ e, reg = .dmaDone e → Tab.get (getPort t p).doneCapture
    e.val 0 = (getEngine s p e.val).done) ∧ getPort t p.peer = getPort s p.peer) ∧
  (∀ (p : Port) (off : Nat) (d : BitVec 32) (full : Bool), Leads (.registerWrite p off d full) (fun _ => full = false
    ∨ off % 4 ≠ 0 ∨ off < 0x1000) fun s t => t = s) ∧
  (∀ (p : Port) (off : Nat) (d : BitVec 32) (full : Bool), Leads (.registerWrite p off d full) (fun s => full = true ∧
    off = 0x4000 ∧ (getPort s p).ring.enable = false) fun s t => (getPort t p) =
    { (getPort s p) with ring := { (getPort s p).ring with baseLo := d &&& 0xFFFFF000#32 } }) ∧
  (∀ (p : Port) (off : Nat) (d : BitVec 32) (full : Bool) (ch : Fin 32), Leads (.registerWrite p off d full) (fun s =>
    full = true ∧ off = 0x2004 + 64 * ch.val ∧ (getSem s ch.val).owner = some p) fun s t => getChan t ch.val =
    { getChan s ch.val with cplIrq := bit d.toNat 0, cplVector := bits d.toNat 12 8 } ∧ OtherChannels s t ch.val) ∧
  (∀ (p : Port) (w : Fin 16), Leads (.apply p w) (fun s => (getWindow s p w.val).snapshot = none) fun s t =>
    (getWindow t p w.val) = { (getWindow s p w.val) with
      snapshot := some (stagedMap (getWindow s p w.val)), verdict := none }) ∧
  (∀ (p : Port) (w : Fin 16), Leads (.apply p w) (fun s => (getWindow s p w.val).snapshot.isSome) fun s t =>
    (getWindow t p w.val) = { (getWindow s p w.val) with applyIgnored := true }) ∧
  (∀ (p : Port) (w : Fin 16) (m : WinMap), Leads (.applySwitch p w) (fun s => foremanRuns s = true ∧ (getWindow s p
    w.val).snapshot = some m ∧ (getWindow s p w.val).verdict = none) fun s t => (getWindow t p w.val).verdict = some
    (applyVerdict s m) ∧ (applyVerdict s m ≠ stOK → (getWindow t p w.val).inForce = (getWindow s p w.val).inForce) ∧
    (applyVerdict s m = stOK → (getWindow t p w.val).inForce.enable = m.enable ∧ (m.enable = true → (getWindow t p
    w.val).inForce.object = m.object ∧ (getWindow t p w.val).inForce.offset = m.offset ∧ (getWindow t p
    w.val).inForce.pages = m.pages ∧ (getWindow t p w.val).inForce.writable = m.writable))) ∧
  (∀ (p : Port) (w : Fin 16) (m : WinMap) (n : Nat), Leads (.applyComplete p w) (fun s => (getWindow s p
    w.val).snapshot = some m ∧ (getWindow s p w.val).verdict = some n) fun s t => (getWindow t p w.val).snapshot =
    none ∧ (getWindow t p w.val).verdict = none ∧ (getWindow t p w.val).result = n ∧ (getWindow t p w.val).orphaned =
    (if n = stOK then mapOrphaned s (getWindow s p w.val) else (getWindow s p w.val).orphaned) ∧ (getWindow t p
    w.val).applyCount = ((getWindow s p w.val).applyCount + 1) % 4294967296 ∧ (getWindow t p w.val).inForce =
    (getWindow s p w.val).inForce) ∧
  (∀ (p : Port) (w : Fin 16) (x : Nat) (n : Nat), Leads (.windowRead p w x n) (fun s => mapReaches s (getWindow s p
    w.val) x n = false) fun s t => (getPort t p).toHost = (getPort s p).toHost ++ [ToHost.completion (List.replicate n
    0xFF)] ∧ (getWindow t p w.val) =
    { (getWindow s p w.val) with readsVoid := satInc 32 (getWindow s p w.val).readsVoid } ∧ t.store = s.store) ∧
  (∀ (p : Port) (w : Fin 16) (x : Nat) (n : Nat), Leads (.windowRead p w x n) (fun s => mapReaches s (getWindow s p
    w.val) x n = true ∧ (getWindow s p w.val).inForce.kind = 1) fun s t => (getPort t p) = { (getPort s p) with
      toHost := (getPort s p).toHost ++ [ToHost.completion (storeRead s (stagingBase p + (getWindow s p w.val).inForce.offset + x) n)] }
    ∧ t.store = s.store) ∧
  (∀ (p : Port) (w : Fin 16) (x : Nat) (data : Bytes) (epoch : Nat), Leads (.windowWrite p w x data epoch) (fun s =>
    epoch ≠ (getPort s p).epoch) fun s t => (getPort t p) =
    { (getPort s p) with stale := satInc 32 (getPort s p).stale } ∧ t.store = s.store) ∧
  (∀ (p : Port) (w : Fin 16) (x : Nat) (data : Bytes) (epoch : Nat), Leads (.windowWrite p w x data epoch) (fun s =>
    MemoryCanonical s ∧ epoch = (getPort s p).epoch ∧ mapReaches s (getWindow s p w.val) x data.length = true ∧
    (getWindow s p w.val).inForce.writable = true ∧ (getWindow s p w.val).inForce.kind = 1) fun s t => storeRead t
    (stagingBase p + (getWindow s p w.val).inForce.offset + x) data.length = data ∧ (∀ a, a < stagingBase p +
    (getWindow s p w.val).inForce.offset + x ∨ stagingBase p + (getWindow s p w.val).inForce.offset + x + data.length
    ≤ a → Memory.read t.store.mem a = Memory.read s.store.mem a) ∧ getPort t p = getPort s p) ∧
  (∀ (p : Port) (w : Fin 16) (x : Nat) (data : Bytes) (epoch : Nat), Leads (.windowWrite p w x data epoch) (fun s =>
    epoch = (getPort s p).epoch ∧ (mapReaches s (getWindow s p w.val) x data.length = false ∨ (getWindow s p
    w.val).inForce.writable = false)) fun s t => (getWindow t p w.val) =
    { (getWindow s p w.val) with writesVoid := satInc 32 (getWindow s p w.val).writesVoid } ∧ t.store = s.store) ∧
  (∀ (p : Port), Leads (.lockedReadRequest p) (fun _ => True) fun s t => (getPort t p) =
    { (getPort s p) with toHost := (getPort s p).toHost ++ [ToHost.unsupportedRequest] } ∧ getPort t p.peer = getPort
    s p.peer ∧ t.channels = s.channels) ∧
  (∀ (p : Port) (cause : ResetCause) (moved : List (Nat × Bytes)), Leads (.portReset p cause moved) (fun _ => True)
    fun s t => (getPort t p).epoch = ((getPort s p).epoch + 1) % 4294967296 ∧ (getPort t p).stale = (getPort s
    p).stale ∧ (getPort t p).ring = {} ∧ (getPort t p).perstLow = ((cause == .perst) || (getPort s p).perstLow) ∧
    (s.fw.phase ≠ .portWait p → (getPort t p).windows = []) ∧ (getPort t p).dma = [] ∧ (getPort t p).msix = [] ∧
    (getPort t p.peer).epoch = (getPort s p.peer).epoch ∧ ∀ cell, (getSem t cell).owner ≠ some p ∧ ((getSem s
    cell).owner ≠ some p → getSem t cell = getSem s cell)) ∧
  (∀ (p : Port), Leads (.perstDeassert p) (fun _ => True) fun s t => (getPort t p) = { (getPort s p) with
      perstLow := false, link := if (getPort s p).present then .training else (getPort s p).link }) ∧
  (∀ (p : Port) (speed : Nat) (width : Nat), Leads (.linkTrained p speed width) (fun s => (getPort s p).present = true
    ∧ (getPort s p).perstLow = false) fun s t => (getPort t p).link = .l0 ∧ (getPort t p).speed = speed ∧ (getPort t
    p).width = width ∧ (getPort t p).epoch = (getPort s p).epoch)

/-- DMA engines enable, take, end and abort jobs as R58 to R62 say. R58 to R62: the host DMA engines. A descriptor and
the bytes the host answered with are the command's operands. -/
def Obligations.DmaRowsComplete : Prop :=
  (∀ (p : Port) (e : Fin 8) (vector : Fin 32), Leads (.dmaEnable p e vector) (fun _ => True) fun s t => (getEngine t p
    e.val) = { (getEngine s p e.val) with
      enable := true, vector := vector.val,
      halted := if (getEngine s p e.val).enable then (getEngine s p e.val).halted else false }) ∧
  (∀ (p : Port) (e : Fin 8) (tail : BitVec 32), Leads (.dmaTailWrite p e tail) (fun _ => True) fun s t => (getEngine t
    p e.val) = { (getEngine s p e.val) with
      tail := if 2 ^ ringLog (getEngine s p e.val) < (tail - (getEngine s p e.val).head).toNat then (getEngine s p e.val).tail else tail })
    ∧
  (∀ (p : Port) (e : Fin 8) (moved : Bytes), Leads (.abort p e moved) (fun s => (getEngine s p e.val).job = none) fun
    s t => (getEngine t p e.val) = { (getEngine s p e.val) with enable := false }) ∧
  (∀ (p : Port) (e : Fin 8) (moved : Bytes) (j : DmaJob), Leads (.abort p e moved) (fun s => (getEngine s p e.val).job
    = some j) fun s t => (getEngine t p e.val) = { (getEngine s p e.val) with
      job := none, done := (getEngine s p e.val).done + 1, head := (getEngine s p e.val).head + 1#32, halted := true,
      lastError := jobABORTED, enable := false }) ∧
  (∀ (p : Port) (e : Fin 8) (descriptor : Bytes), Leads (.dmaJobTake p e descriptor) (fun s => mayTake (getEngine s p
    e.val) = false) fun s t => t = s) ∧
  (∀ (p : Port) (e : Fin 8) (descriptor : Bytes), Leads (.dmaJobTake p e descriptor) (fun s => mayTake (getEngine s p
    e.val) = true ∧ jobCheck s p (jobOf (getEngine s p e.val).taken descriptor) descriptor ≠ jobDONE) fun s t =>
    (getEngine t p e.val) = { (getEngine s p e.val) with
      taken := (getEngine s p e.val).taken + 1, done := (getEngine s p e.val).done + 1,
      head := (getEngine s p e.val).head + 1#32, halted := true,
      lastError := jobCheck s p (jobOf (getEngine s p e.val).taken descriptor) descriptor, enable := false } ∧ t.store
    = s.store) ∧
  (∀ (p : Port) (e : Fin 8) (descriptor : Bytes), Leads (.dmaJobTake p e descriptor) (fun s => mayTake (getEngine s p
    e.val) = true ∧ jobCheck s p (jobOf (getEngine s p e.val).taken descriptor) descriptor = jobDONE) fun s t =>
    (getEngine t p e.val).taken = (getEngine s p e.val).taken + 1 ∧ (getEngine t p e.val).head = (getEngine s p
    e.val).head ∧ ((getEngine t p e.val).job.map fun j => (j.number, j.kind, j.object, j.count, j.hostAddr)) = some
    ((getEngine s p e.val).taken, u8 descriptor 0, u16 descriptor 2, u32 descriptor 4, u64 descriptor 8)) ∧
  (∀ (p : Port) (e : Fin 8), Leads (.descriptorFetchFail p e) (fun s => mayTake (getEngine s p e.val) = true) fun s t
    => (getEngine t p e.val) =
    { (getEngine s p e.val) with enable := false, halted := true, lastError := jobHOST_MEMORY }) ∧
  (∀ (p : Port) (e : Fin 8) (ok : Bool) (data : Bytes) (epoch : Nat) (landed : List Landed) (j : DmaJob), Leads
    (.dmaJobEnd p e ok ⟨data, epoch, landed⟩) (fun s => epoch = (getPort s p).epoch ∧ (getEngine s p e.val).job = some
    j ∧ j.kind < 3 ∧ jobToHost j = true) fun s t => (getEngine t p e.val) = { (getEngine s p e.val) with
      job := none, done := (getEngine s p e.val).done + 1, head := (getEngine s p e.val).head + 1#32 } ∧ ∃ l k,
    (getPort t p).toHost = (getPort s p).toHost ++ ToHost.write j.hostAddr (jobFetch (landMoved s landed) p j j.count)
    :: l ++ ToHost.write (descriptorAddr (getEngine s p e.val) j.number + 24) (zeros 8) :: k) ∧
  (∀ (p : Port) (e : Fin 8) (ok : Bool) (data : Bytes) (epoch : Nat) (landed : List Landed) (j : DmaJob), Leads
    (.dmaJobEnd p e ok ⟨data, epoch, landed⟩) (fun s => MemoryCanonical s ∧ epoch = (getPort s p).epoch ∧ (getEngine s
    p e.val).job = some j ∧ j.kind = 2 ∧ jobToHost j = false ∧ j.released = false ∧ ok = true ∧ data.length = j.count)
    fun s t => (getEngine t p e.val) = { (getEngine s p e.val) with
      job := none, done := (getEngine s p e.val).done + 1, head := (getEngine s p e.val).head + 1#32 } ∧ storeRead t
    (stagingBase p + j.offset) j.count = data ∧ ∀ a, a < stagingBase p + j.offset ∨ stagingBase p + j.offset + j.count
    ≤ a → Memory.read t.store.mem a = Memory.read (landMoved s landed).store.mem a) ∧
  (∀ (p : Port) (e : Fin 8) (ok : Bool) (data : Bytes) (epoch : Nat) (landed : List Landed) (j : DmaJob), Leads
    (.dmaJobEnd p e ok ⟨data, epoch, landed⟩) (fun s => epoch = (getPort s p).epoch ∧ (getEngine s p e.val).job = some
    j ∧ j.kind < 3 ∧ jobToHost j = false ∧ j.released = false ∧ ok = false) fun s t => (getEngine t p e.val) =
    { (getEngine s p e.val) with
      job := none, done := (getEngine s p e.val).done + 1, head := (getEngine s p e.val).head + 1#32, halted := true,
      lastError := jobHOST_MEMORY, enable := false }) ∧
  (∀ (p : Port) (e : Fin 8) (ok : Bool) (data : Bytes) (epoch : Nat) (landed : List Landed), Leads (.dmaJobEnd p e ok
    ⟨data, epoch, landed⟩) (fun s => epoch ≠ (getPort s p).epoch) fun s t => (getPort t p) =
    { (getPort s p) with stale := satInc 32 (getPort s p).stale } ∧ t.store = s.store ∧ t.fm = s.fm) ∧
  (∀ (p : Port) (e : Fin 8) (ok : Bool) (data : Bytes) (epoch : Nat) (landed : List Landed) (j : DmaJob), Leads
    (.dmaJobEnd p e ok ⟨data, epoch, landed⟩) (fun s => epoch = (getPort s p).epoch ∧ (getEngine s p e.val).job = some
    j ∧ j.kind < 3 ∧ jobToHost j = false ∧ j.released = true) fun s t => (getEngine t p e.val) =
    { (getEngine s p e.val) with
      job := none, done := (getEngine s p e.val).done + 1, head := (getEngine s p e.val).head + 1#32, halted := true,
      lastError := jobSLOT_STATE, enable := false } ∧ ∃ k, (getPort t p).toHost = (getPort s p).toHost ++ ToHost.write
    (descriptorAddr (getEngine s p e.val) j.number + 24) (le 2 jobSLOT_STATE ++ zeros 2 ++ le 4 (j.count - j.written))
    :: k)

/-- FW commands complete as R526 to R539 say. R522 and R526 to R539: the FW commands. An Ed25519 signature is a free
value (log entry 2). -/
def Obligations.FirmwareCommandsComplete : Prop :=
  (Completes Instr.fwStatus defFwStatus fun s c t => Reports s c t 96 fun p => Field p 0 1 (fwStateNum s.fw.state) ∧
    Field p 2 1 (slotNumber s.fw.running) ∧ Field p 3 1 (slotNumber s.flash.confirmed) ∧ Field p 5 1 s.fw.lastResult ∧
    Field p 6 1 (securityFloor s) ∧ Field p 12 4 s.flash.healthS ∧ Field p 88 8 s.now) ∧
  (Completes Instr.fwInstall defFwInstall fun s c t => t.fm.gen = s.fm.gen + 1 ∧ t.fw.install = some (installSlot s,
    s.fm.gen + 1, stagedPackage s c) ∧ t.fw.state = .installing ∧ (c.await = false → Answered t c stQUEUED (s.fm.gen +
    1) none []) ∧ (c.await = true → Awaits s c t .install)) ∧
  (CompletesWhen Instr.fwActivate defFwActivate (fun _ c => u8 c.p 0 = 1) fun s _ t => t.flash.trial = some (otherSlot
    s) ∧ t.flash.bootOnce = true ∧ t.flash.confirmed = s.flash.confirmed ∧ t.ready = false ∧ t.fm.gen = 0 ∧ t.fuses =
    s.fuses) ∧
  (CompletesWhen Instr.fwActivate defFwActivate (fun s c => u8 c.p 0 = 0 ∧ s.fw.resetDue = false) fun s c t =>
    Answered t c stQUEUED (s.fm.gen + 1) none [] ∧ s.fm.gen < t.fm.gen ∧ t.fw.target = otherSlot s ∧ (t.fw.state =
    .activating ∨ t.fw.state = .updating ∨ t.fw.state = .selfCheck) ∧ t.flash.confirmed = s.flash.confirmed ∧ t.ready
    = s.ready) ∧
  (Completes Instr.fwConfirm defFwConfirm fun s c t => Answered t c stOK (s.fm.gen + 1) (some s.now) [] ∧ s.fm.gen <
    t.fm.gen ∧ t.flash.confirmed = s.fw.running ∧ t.flash.trial = none ∧ t.fw.state = .idle ∧ t.fw.windowEnd = none ∧
    t.fw.lastResult = 1) ∧
  (CompletesWhen Instr.fwRevert defFwRevert (fun s _ => s.fw.resetDue = false ∧ s.fw.cold = false) fun s c t =>
    Answered t c stQUEUED (s.fm.gen + 1) none [] ∧ t.fw.lastResult = 0 ∧ t.fw.fallback = true ∧ t.fw.target =
    s.flash.confirmed.getD 0 ∧ t.flash.confirmed = s.flash.confirmed) ∧
  (CompletesWhen Instr.fwRevert defFwRevert (fun s _ => s.fw.cold = true) fun s _ t => t.ready = false ∧ t.fm.gen = 0
    ∧ t.flash.confirmed = s.flash.confirmed ∧ t.flash.trial = s.flash.trial ∧ t.fuses = s.fuses) ∧
  (Completes Instr.fwLock defFwLock fun s c t => Changes s c t (some s.now) ∧ t.flash.locked = true ∧
    t.flash.lockDigest = sha256 (sub c.p 0 16)) ∧
  (Completes Instr.fwUnlock defFwUnlock fun s c t => Changes s c t (some s.now) ∧ t.flash.locked = false) ∧
  (Completes Instr.fwPolicy defFwPolicy fun s c t => Changes s c t (some s.now) ∧ t.flash.healthS = (if u16 c.p 0 = 0
    then 300 else u16 c.p 0) ∧ t.flash.locked = s.flash.locked) ∧
  (CompletesWhen Instr.fwSave defFwSave (fun s _ => s.fw.saveInterval = false) fun s c t => Answered t c stOK
    (s.fm.gen + 1) (some s.now) [] ∧ s.fm.gen < t.fm.gen ∧ t.fw.lastSave = s.now ∧ t.fw.saveInterval = true) ∧
  (CompletesWhen Instr.fwSave defFwSave (fun s _ => s.fw.saveInterval = true) fun s c t => t.fm.gen = s.fm.gen + 1 ∧
    t.fw.waitingSave.isSome ∧ t.fw.lastSave = s.fw.lastSave ∧ (c.await = false → Answered t c stQUEUED (s.fm.gen + 1)
    none []) ∧ (c.await = true → Awaits s c t .save)) ∧
  (Completes Instr.fwHostData defFwHostData fun s c t => Answered t c stOK s.fm.gen none (le 4 (hostData s).length ++
    zeros 4) ∧ storeRead t (stagingBase c.port + u32 c.p 0) (hostData s).length = hostData s ∧ ∀ a, a < stagingBase
    c.port + u32 c.p 0 ∨ stagingBase c.port + u32 c.p 0 + (hostData s).length ≤ a → Memory.read t.store.mem a =
    Memory.read s.store.mem a)

/-- Installs, stages, self-checks, the health window and the save interval end as R526 to R536 say. R526 to R536: what
follows a firmware command. The signature is a free value (log entry 2), so the clause of INSTALL_DONE holds for both
of its values. -/
def Obligations.FirmwareEventsComplete : Prop :=
  (∀ (ok : Bool) (k : Nat) (g : Nat) (pk : Bytes), Leads (.installDone ok) (fun s => s.fw.install = some (k, g, pk))
    fun s t => t.fw.install = none ∧ t.fw.state = .idle ∧ (signatureOk pk = false → t.fw.lastResult = 2 ∧ getFwSlot t
    k = getFwSlot s k) ∧ (signatureOk pk = true → ok = true → t.fw.lastResult = 1 ∧ (getFwSlot t k).valid = true ∧
    (getFwSlot t k).package = pk ∧ (getFwSlot t k).erases = (getFwSlot s k).erases + 1 ∧ Wakes s t .install (some
    s.now)) ∧ (signatureOk pk = true → ok = false → t.fw.lastResult = 11 ∧ (getFwSlot t k).valid = false)) ∧
  (∀ (k : Nat), Leads .stageDone (fun s => s.fw.stages = [k] ∧ s.fw.plan = .activate) fun s t => t.fw.state =
    .selfCheck ∧ t.flash.trial = some s.fw.target ∧ t.fw.running = some s.fw.target ∧ t.fw.header = s.fw.targetHeader
    ∧ t.fw.stages = [] ∧ t.updating = false) ∧
  (∀ (k : Nat) (j : Nat) (rest : List Nat), Leads .stageDone (fun s => s.fw.stages = k :: j :: rest ∧ 1 ≤ k ∧ 1 ≤ j ∧
    k ≠ j ∧ stageSkipped s j = false) fun s t => t.fw.stages = j :: rest ∧ t.fw.stageAt = s.uptime ∧ t.fw.versions =
    s.fw.versions.set (k - 1) (kindVersion s.fw.targetHeader k) ∧ t.fw.replaced = s.fw.replaced ++ [k] ∧ t.fm.gen =
    s.fm.gen + 1) ∧
  (∀ (k : Nat) (rest : List Nat), Leads .stageTimeout (fun s => s.fw.plan = .activate ∧ s.fw.stages = k :: rest) fun s
    t => t.fw.stages = s.fw.replaced ++ [k] ∧ t.fw.plan = .restore ∧ t.fw.state = .reverting ∧ t.fw.lastResult = 7 ∧
    t.fw.running = s.fw.running) ∧
  (∀ (pass : Bool), Leads (.selfCheckDone pass) (fun s => s.fw.state = .selfCheck ∧ pass = true) fun s t => t.fw.state
    = .awaitConfirm ∧ t.fw.lastResult = 1 ∧ t.fw.windowEnd = some (s.now + s.flash.healthS * 1000000000) ∧
    t.flash.trial = s.flash.trial) ∧
  (∀ (pass : Bool), Leads (.selfCheckDone pass) (fun s => s.fw.state = .selfCheck ∧ pass = false) fun s t =>
    t.fw.lastResult = 8 ∧ t.fw.fallback = true ∧ t.fw.windowEnd = none ∧ t.flash.confirmed = s.flash.confirmed) ∧
  (Leads .healthWindowExpired (fun s => s.fw.state = .awaitConfirm ∧ s.fw.cold = false ∧ s.fw.resetDue = false) fun s
    t => t.fw.lastResult = 9 ∧ t.fw.fallback = true ∧ t.fw.windowEnd = none ∧ t.flash.confirmed = s.flash.confirmed ∧
    t.ready = s.ready) ∧
  (Leads .healthWindowExpired (fun s => s.fw.state = .awaitConfirm ∧ s.fw.cold = true) fun s t => t.ready = false ∧
    t.fm.gen = 0 ∧ (s.fw.install = none → t.flash = s.flash) ∧ t.fuses = s.fuses) ∧
  (Leads .settingsWrite (fun s => s.fw.saveInterval = true ∧ s.fw.waitingSave = none) fun s t => t =
    { s with fw := { s.fw with saveInterval := false } }) ∧
  (∀ (x : Snapshot), Leads .settingsWrite (fun s => s.fw.saveInterval = true ∧ s.fw.waitingSave = some x) fun s t =>
    t.fw.waitingSave = none ∧ t.fw.saveInterval = true ∧ t.fw.lastSave = s.now ∧ ((t.fw.snapshot.map fun y =>
    (y.format, y.host)) = some (x.format, x.host)) ∧ Wakes s t .save (some s.now))

/-- Resets, the loader, booting through a port and READY do what R515 to R519, R546, R547 and R580 say. R515 to R519,
R542, R544, R546, R547, R572, R580 and R81. Whether a loader or a package verifies is the row's operand (log entry
50). -/
def Obligations.ResetAndStartComplete : Prop :=
  (Leads .nresetFall (fun _ => True) fun s t => t.fuses = s.fuses ∧ (s.fw.install = none → t.flash = s.flash) ∧ t.tap
    = s.tap ∧ t.island = s.island ∧ t.fm = State.reset.fm ∧ t.channels = [] ∧ t.sems = [] ∧ t.sources = [] ∧ t.routes
    = [] ∧ t.outputs = [] ∧ t.eventsA = State.reset.eventsA ∧ t.store = State.reset.store ∧ t.ready = false) ∧
  (Leads .mainRailLoss (fun _ => True) fun s t => t.fuses = s.fuses ∧ (s.fw.install = none → t.flash = s.flash) ∧
    t.tap = State.reset.tap ∧ t.island = s.island ∧ t.fm = State.reset.fm ∧ t.channels = [] ∧ t.routes = [] ∧
    t.fw.mainRails = false ∧ t.ready = false) ∧
  (∀ (b : Fin 4) (pA : Bool) (pB : Bool) (quad : Bool) (sense : Bool), Leads (.nresetRise b pA pB quad sense) (fun s
    => s.island.powered = true) fun s t => t.fw.fuseMap = s.fuses ∧ t.fw.straps = strapsInForce (readFuses s)
    { bootSrc := b.val, portA := pA, portB := pB, quad := quad, fuseSense := sense } ∧ t.fw.mainRails = true ∧ t.fuses
    = s.fuses ∧ (s.fw.install = none → t.flash = s.flash) ∧ t.fm = State.reset.fm ∧ t.portA.present =
    t.fw.straps.portA ∧ t.portB.present = t.fw.straps.portB ∧ (t.fw.straps.fuseSense = true → t.fuseSense = true ∧
    t.fw.phase = .fuseSense) ∧ (t.fw.straps.fuseSense = false → bootPort t = none → t.fw.phase = .rom) ∧ ∀ p,
    t.fw.straps.fuseSense = false → bootPort t = some p → t.fw.phase = .portWait p ∧ t.bootWait = true) ∧
  (∀ (b : Fin 4) (pA : Bool) (pB : Bool) (quad : Bool) (sense : Bool), Leads (.nresetRise b pA pB quad sense) (fun s
    => s.island.powered = false) fun s t => t.fw.straps = s.fw.straps ∧ t.fuses = s.fuses ∧ (s.fw.install = none →
    t.flash = s.flash) ∧ t.ready = false ∧ t.fw.phase = State.reset.fw.phase) ∧
  (∀ (ok : Bool) (ok0 : Bool) (ok1 : Bool), Leads (.loaderStart ok ok0 ok1) (fun s => s.fw.phase = .rom ∧ ok = true ∧
    s.flash.trial = none ∧ s.flash.confirmed = some 0 ∧ slotPasses s 0 ok0 = true) fun s t => t.fw.phase = .foreman ∧
    t.fw.running = some 0 ∧ t.fw.remap = true ∧ t.fw.header = sub s.flash.slot0.package 0 256 ∧ t.flash = s.flash ∧
    t.fw.cold = s.fw.cold) ∧
  (∀ (ok : Bool) (ok0 : Bool) (ok1 : Bool), Leads (.loaderStart ok ok0 ok1) (fun s => s.fw.phase = .rom ∧ ok = true ∧
    s.flash.trial = some 1 ∧ s.flash.bootOnce = true ∧ slotPasses s 1 ok1 = true) fun s t => t.fw.phase = .foreman ∧
    t.fw.running = some 1 ∧ t.fw.cold = true ∧ t.flash = { s.flash with bootOnce := false, record := t.flash.record })
    ∧
  (∀ (ok : Bool) (ok0 : Bool) (ok1 : Bool), Leads (.loaderStart ok ok0 ok1) (fun s => s.fw.phase = .rom ∧ ok = true ∧
    s.flash.trial = some 1 ∧ s.flash.bootOnce = false ∧ s.flash.confirmed = some 0 ∧ slotPasses s 0 ok0 = true) fun _
    t => t.fw.phase = .foreman ∧ t.fw.running = some 0 ∧ t.fw.fallback = true ∧ t.fw.lastResult = 0 ∧ t.flash.trial =
    none ∧ t.flash.confirmed = some 0) ∧
  (∀ (ok : Bool) (ok0 : Bool) (ok1 : Bool), Leads (.loaderStart ok ok0 ok1) (fun s => s.fw.phase = .rom ∧ (ok = false
    ∨ (slotPasses s 0 ok0 = false ∧ slotPasses s 1 ok1 = false)) ∧ portBootDisabled s = false ∧ s.fw.straps.portA =
    true) fun s t => t.fw.phase = .portWait .a ∧ t.bootWait = true ∧ (getWindow t .a 0).inForce.enable = true ∧
    t.fuses = s.fuses) ∧
  (∀ (ok : Bool) (ok0 : Bool) (ok1 : Bool) (p : Port), Leads (.startBlockPoll ok ok0 ok1) (fun s => s.fw.phase =
    .portWait p ∧ u32 (storeRead s (startBlockAt p) 32) 0 ≠ 0x5742) fun s t => t = s) ∧
  (∀ (ok : Bool) (ok0 : Bool) (ok1 : Bool) (p : Port), Leads (.startBlockPoll ok ok0 ok1) (fun s => MemoryCanonical s
    ∧ s.fw.phase = .portWait p ∧ u32 (storeRead s (startBlockAt p) 32) 0 = 0x5742) fun s t => storeRead t
    (startBlockAt p) 4 = zeros 4 ∧ storeRead t (startBlockAt p + 16) 4 = le 4 (startResult s p (storeRead s
    (startBlockAt p) 32) ok) ∧ (∀ a, (a < startBlockAt p ∨ startBlockAt p + 4 ≤ a) ∧ (a < startBlockAt p + 16 ∨
    startBlockAt p + 20 ≤ a) → Memory.read t.store.mem a = Memory.read s.store.mem a) ∧ (startResult s p (storeRead s
    (startBlockAt p) 32) ok ≠ 1 → t.fw = s.fw) ∧ (startResult s p (storeRead s (startBlockAt p) 32) ok = 1 →
    blockPackage (storeRead s (startBlockAt p) 32) = true → t.fw.phase = .foreman ∧ t.fw.running = none ∧ t.bootWait =
    false)) ∧
  (∀ (derated : BitVec 32), Leads (.ready derated) (fun s => s.fw.phase = .foreman) fun s t => t.ready = true ∧
    t.readyAt = s.now ∧ t.uptime = 0 ∧ t.fw.phase = .running ∧ t.fm.gen = t.fm.bootGen ∧ t.flash.genFloor = t.fm.gen ∧
    t.fm.gen % 4294967296 = 0 ∧ 0 < t.fm.gen) ∧
  (∀ (derated : BitVec 32), Leads (.ready derated) (fun s => s.fw.phase = .foreman ∧ bootSnapshot s = none ∧ s.spares
    = 0) fun s t => t.fm.gen = (s.flash.genFloor / 4294967296 + 1) * 4294967296 ∧ t.fw.defaulted = true ∧ t.fm.jcount
    = s.fm.jcount + 1) ∧
  (Leads .tapReset (fun _ => True) fun s t => t = { s with tap := tapReset s.tap }) ∧
  (∀ (level : Bool), Leads (.pwrWarnChange level) (fun _ => True) fun s t => t = { s with pwrWarn := level }) ∧
  (∀ (x : Tap) (a b c d e : Bool), tapClock (tapClock (tapClock (tapClock (tapClock x true a) true b) true c) true d)
    true e = tapReset (tapClock (tapClock (tapClock (tapClock (tapClock x true a) true b) true c) true d) true e) ∧
    (tapReset x).state = .testLogicReset ∧ (tapReset x).instruction = .bypass)

/-- FUSE commands, standby and the island's pins do what R543, R544 and R550 to R554 say. R543, R544 and R549 to R554:
the fuses, standby and the island. -/
def Obligations.FuseRowsComplete : Prop :=
  (Completes Instr.fuseRead defFuseRead fun s c t => Reports s c t 528 fun p => Field p 0 1 (flag s.fuseSense) ∧ Field
    p 1 1 (flag (factoryLock s) + 2 * flag (boardLock s)) ∧ Field p 2 1 (securityFloor s) ∧ sub p 16 512 =
    Memory.readBytes s.fuses 0 512) ∧
  (∀ (stuck : Option (Fin 4096)), CompletesWhen (fun ch => .fuseProgram ch stuck) (defFuseProgram (stuck.map (·.val)))
    (fun _ _ => stuck = none) fun s c t => Answered t c stOK s.fm.gen none [] ∧ fieldBurned t (u8 c.p 0) = true ∧ (∀
    a, fieldOff (u8 c.p 0) ≤ a → a < fieldOff (u8 c.p 0) + fieldSize (u8 c.p 0) → Memory.read t.fuses a = (fuseValue
    c).getD (a - fieldOff (u8 c.p 0)) 0) ∧ ∀ a, (a < fieldOff (u8 c.p 0) ∨ fieldOff (u8 c.p 0) + fieldSize (u8 c.p 0)
    ≤ a) → a ≠ 0x1FC + (u8 c.p 0) / 8 → Memory.read t.fuses a = Memory.read s.fuses a) ∧
  (∀ (stuck : Option (Fin 4096)) (k : Fin 4096), CompletesWhen (fun ch => .fuseProgram ch stuck) (defFuseProgram
    (stuck.map (·.val))) (fun s c => stuck = some k ∧ (k.val ∈ bitsOf (fieldOff (u8 c.p 0)) (fuseValue c) ∨ k.val =
    doneBit (u8 c.p 0)) ∧ bit (burnedByte s (k.val / 8)) (k.val % 8) = false) fun s c t => Answered t c
    stINTERNAL_FAULT s.fm.gen none (nackBytes { status := stINTERNAL_FAULT, item := k.val }) ∧ fieldBurned t (u8 c.p
    0) = false ∧ bit (burnedByte t (k.val / 8)) (k.val % 8) = false) ∧
  (Completes Instr.fuseLock defFuseLock fun s c t => Answered t c stOK s.fm.gen none [] ∧ boardLock t = true ∧ ∀ a, a
    ≠ 0x1FF → Memory.read t.fuses a = Memory.read s.fuses a) ∧
  (Completes Instr.fuseStandby defFuseStandby fun s c t => t.fm.gen = s.fm.gen + 1 ∧ t.ready = false ∧
    t.fw.standby.isSome ∧ (t.fw.noteWritten = true → Answered t c stOK (s.fm.gen + 1) (some s.now) []) ∧
    (t.fw.noteWritten = false → (getChan t c.ch).state = .running ∧ ((getChan t c.ch).waiting.map (·.cause)) = some
    .standby)) ∧
  (Completes Instr.fuseNote defFuseNote fun s c t => Unmoved s t c.ch ∧ Answered t c stOK s.fm.gen none (sub
    s.island.note 0 256)) ∧
  (Leads .mainPwrEnFall (fun _ => True) fun s t => (s.fw.noteWritten = true → t =
    { s with island := { s.island with mainPwrEn := false } }) ∧ (s.fw.noteWritten = false → t = s)) ∧
  (∀ (early : Bool), Leads (.nwake early) (fun _ => True) fun s t => (s.island.powered = false ∨ s.island.mainPwrEn =
    true → t = s) ∧ (s.island.powered = true → s.island.mainPwrEn = false → early = true → t =
    { s with island := { s.island with wakePending := true } }) ∧ (s.island.powered = true → s.island.mainPwrEn =
    false → early = false → t = { s with island := { s.island with mainPwrEn := true, wakePending := false } })) ∧
  (∀ (low : Bool), Leads (.standby100MsMark low) (fun _ => True) fun s t => (s.island.powered = true →
    s.island.mainPwrEn = false → s.island.wakePending = true → t =
    { s with island := { s.island with mainPwrEn := low, wakePending := false } }) ∧ (s.island.wakePending = false → t
    = s)) ∧
  (Leads .vstbyApplied (fun _ => True) fun s t => t = { s with island := State.reset.island, tap := tapReset s.tap })
    ∧
  (Leads .vstbyLoss (fun _ => True) fun s t => t =
    { s with island := { State.reset.island with powered := false, mainPwrEn := false } })

/-- A refused command is answered with its refusal record and changes nothing. Every command row of the table is
runCommand of its CommandDef (Sys2Proof.Machine.runCommand), so these hold of each of them. -/
def Obligations.RefusedCommandsChangeNothing : Prop :=
  (∀ (d : CommandDef) (ch : Fin 32) (s : State) (n : Nack), MemoryCanonical s → Refused d ch s n → (∀ x c, d.refused x
    c = x) → Unmoved s (runCommand d ch s) ch ∧ Answered (runCommand d ch s) (readCmd s ch) n.status s.fm.gen none
    (nackBytes (nameObject d (takeDoorbell s ch) (readCmd s ch) n))) ∧
  (∀ (d : CommandDef) (ch : Fin 32) (s : State), MemoryCanonical s → takeable s ch d.opcode = true → (getChan s
    ch).written = true → (s.updating = false ∨ d.exempt = true) → (s.fuseSense = false ∨ d.fuseMode = true) → (128 ≤
    (readCmd s ch).flags ∨ (readCmd s ch).reserved ≠ 0 ∨ 3968 < (readCmd s ch).len ∨ d.lenOk (readCmd s ch) = false ∨
    (readCmd s ch).flags &&& d.flags ≠ (readCmd s ch).flags ∨ ((readCmd s ch).kind = kindNext ∧ (readCmd s ch).target
    ≠ 0)) → Unmoved s (runCommand d ch s) ch ∧ ∃ p, Answered (runCommand d ch s) (readCmd s ch) stBAD_ARGUMENT
    s.fm.gen none p ∧ p.length = 16) ∧
  (∀ n : Nack, (nackBytes n).length = 16)

/-- STALE, VALIDATE and a STRICT target that has passed change nothing. Steps 5 and 8 of R74, VALIDATE (R74) and
STRICT (R85). What a missed STRICT target counts is the row's own (R85). -/
def Obligations.ConditionalCommandsChangeNothing : Prop :=
  (∀ (d : CommandDef) (ch : Fin 32) (s : State), MemoryCanonical s → takeable s ch d.opcode = true → headNack d
    (takeDoorbell s ch) (readCmd s ch) = none → d.check (takeDoorbell s ch) (readCmd s ch) = none → bit (readCmd s
    ch).flags 0 = true → (readCmd s ch).expected ≠ s.fm.gen → (∀ x c, d.refused x c = x) → Unmoved s (runCommand d ch
    s) ch ∧ ∃ p, Answered (runCommand d ch s) (readCmd s ch) stSTALE s.fm.gen none p) ∧
  (∀ (d : CommandDef) (ch : Fin 32) (s : State), MemoryCanonical s → takeable s ch d.opcode = true → verdict d
    (takeDoorbell s ch) (readCmd s ch) = none → (readCmd s ch).validate = true → Unmoved s (runCommand d ch s) ch ∧ ∃
    p, Answered (runCommand d ch s) (readCmd s ch) (if d.timing (takeDoorbell s ch) (readCmd s ch) = .late then stLATE
    else stOK) s.fm.gen none p) ∧
  (∀ (d : CommandDef) (ch : Fin 32) (s : State), MemoryCanonical s → takeable s ch d.opcode = true → verdict d
    (takeDoorbell s ch) (readCmd s ch) = none → (readCmd s ch).validate = false → d.timing (takeDoorbell s ch)
    (readCmd s ch) = .late → (readCmd s ch).strict = true → (∀ x c, d.missed x c = x) → Unmoved s (runCommand d ch s)
    ch ∧ Answered (runCommand d ch s) (readCmd s ch) stLATE s.fm.gen none [])

/-- A completion writes the response, sets DONE, and signals the port that rang while it owns the cell. R54, with the
MSI-X rule of R57. -/
def Obligations.CompletionWritesThenSignals : Prop :=
  (∀ (s : State) (ch : Nat) (r : Reply), MemoryCanonical s → Answered (complete s ch r) (readCmd s ch) r.status r.gen
    r.effect r.payload ∧ OtherChannels s (complete s ch r) ch ∧ (complete s ch r).fm = s.fm) ∧
  (∀ (s : State) (ch : Nat) (r : Reply), (getChan s ch).cplIrq = false ∨ (getChan s ch).handed = true ∨ (getSem s
    ch).owner ≠ some (getChan s ch).rangBy → (complete s ch r).portA = s.portA ∧ (complete s ch r).portB = s.portB) ∧
  (∀ (s : State) (ch : Nat) (r : Reply) (p : Port) (v : Nat), (getChan s ch).cplIrq = true → (getChan s ch).handed =
    false → (getChan s ch).rangBy = p → (getSem s ch).owner = some p → (getChan s ch).cplVector = v → (getMsix s p
    v).masked = false → msixAddr (getMsix s p v) ≠ 0 → (getPort (complete s ch r) p).toHost = (getPort s p).toHost ++
    [ToHost.msix v (msixAddr (getMsix s p v)) (getMsix s p v).data.toNat])

/-- An event is dropped, lost and counted, suppressed, or written to the port's ring. R503 to R508 and R56. An event
that the meanings raise is raiseOn toward both ports. -/
def Obligations.EventsReachThePort : Prop :=
  (∀ (p : Port) (cls inst aux : Nat) (data : Bytes) (s : State), (getPort s p).ring.enable = false ∨ bit (settingOf s
    p (eventSource cls inst)) 0 = false → raiseOn s p cls inst aux data = s) ∧
  (∀ (p : Port) (cls inst aux : Nat) (data : Bytes) (s : State), (getPort s p).ring.enable = true → bit (settingOf s p
    (eventSource cls inst)) 0 = true → (bits (settingOf s p (eventSource cls inst)) 7 2 = 0 ∨ neverCoalesced cls =
    true) → ringFull (getPort s p).ring = true → (getCounts (raiseOn s p cls inst aux data) p).lost = (getCounts s
    p).lost + 1 ∧ (getCounts (raiseOn s p cls inst aux data) p).lostSince = (getCounts s p).lostSince + 1 ∧ (getCounts
    (raiseOn s p cls inst aux data) p).lastLost = s.now ∧ getPort (raiseOn s p cls inst aux data) p = getPort s p) ∧
  (∀ (p : Port) (cls inst aux : Nat) (data : Bytes) (s : State), (getPort s p).ring.enable = true → bit (settingOf s p
    (eventSource cls inst)) 0 = true → (bits (settingOf s p (eventSource cls inst)) 7 2 = 0 ∨ neverCoalesced cls =
    true) → ringFull (getPort s p).ring = false → (getPort (raiseOn s p cls inst aux data) p).ring.producer = (getPort
    s p).ring.producer + 1#32 ∧ (getCounts (raiseOn s p cls inst aux data) p).written = (getCounts s p).written + 1 ∧
    ∃ l, (getPort (raiseOn s p cls inst aux data) p).toHost = (getPort s p).toHost ++ ToHost.write (ringAddr (getPort
    s p).ring (getPort s p).ring.producer) (eventRecord cls inst s.now aux data) :: l) ∧
  (∀ (p : Port) (cls inst aux : Nat) (data : Bytes) (s : State), (getPort s p).ring.enable = true → bit (settingOf s p
    (eventSource cls inst)) 0 = true → bits (settingOf s p (eventSource cls inst)) 7 2 ≠ 0 → neverCoalesced cls =
    false → Tab.has (getCounts s p).windows (eventSource cls inst) = true → getPort (raiseOn s p cls inst aux data) p
    = getPort s p ∧ (getCounts (raiseOn s p cls inst aux data) p).written = (getCounts s p).written ∧ (Tab.get
    (getCounts (raiseOn s p cls inst aux data) p).windows (eventSource cls inst)
    { source := (eventSource cls inst) }).suppressed = (Tab.get (getCounts s p).windows (eventSource cls inst)
    { source := (eventSource cls inst) }).suppressed + 1) ∧
  (∀ (p : Port) (cls inst aux : Nat) (data : Bytes) (s : State), getPort (raiseOn s p cls inst aux data) p.peer =
    getPort s p.peer ∧ getCounts (raiseOn s p cls inst aux data) p.peer = getCounts s p.peer ∧ (raiseOn s p cls inst
    aux data).channels = s.channels ∧ (raiseOn s p cls inst aux data).fm = s.fm)

/-- A committed change advances the generation by one and gets one journal entry. R79 and R510 to R512. The entry's
EFFECT is filled in when the change takes effect (R513). -/
def Obligations.ChangesAreJournalled : Prop :=
  (∀ (s : State) (c : Cmd) (object detail : Nat), (commit s c object detail).fm.gen = s.fm.gen + 1 ∧ (commit s c
    object detail).fm.jcount = s.fm.jcount + 1 ∧ (commit s c object detail).fm.jseq = s.fm.jcount) ∧
  (∀ (s : State) (c : Cmd) (object detail : Nat), ∃ e, (commit s c object detail).fm.journal.getLast? = some e ∧ e.seq
    = s.fm.jcount ∧ e.gen = s.fm.gen + 1 ∧ e.kind = 1 ∧ e.opcode = c.opcode ∧ e.channel = c.ch ∧ e.chSeq = c.seq ∧
    e.time = s.now ∧ e.origin = c.port.num ∧ e.object = object) ∧
  (∀ (s : State) (e : JEntry), s.fm.journal.length ≤ journalKeep → (addEntry s e).fm.journal.length ≤ journalKeep) ∧
  (journalKeep = 1048576)

/-- GEN_LO and JSEQ_LO capture for the port that reads, and GEN_HI and JSEQ_HI return the capture. R45, whole. Stated:
“A read of GEN_LO captures the whole 64-bit state generation. A later read of GEN_HI from the same port returns the
upper half of the captured value.” -/
def Obligations.CaptureRegistersHold : Prop :=
  (∀ (p : Port) (s : State), ∃ t, exec (.captureRead p .gen) s = .next t ∧ (getPort t p).genCapture = s.fm.gen ∧
    (getPort t p).jseqCapture = (getPort s p).jseqCapture ∧ getPort t p.peer = getPort s p.peer ∧ readBar0 t p 0x0024
    = BitVec.ofNat 32 (s.fm.gen / 4294967296)) ∧
  (∀ (p : Port) (s : State), ∃ t, exec (.captureRead p .jseq) s = .next t ∧ (getPort t p).jseqCapture = s.fm.jseq ∧
    (getPort t p).genCapture = (getPort s p).genCapture ∧ getPort t p.peer = getPort s p.peer ∧ readBar0 t p 0x002C =
    BitVec.ofNat 32 (s.fm.jseq / 4294967296)) ∧
  (∀ (p : Port) (s : State), readBar0 s p 0x0020 = BitVec.ofNat 32 s.fm.gen ∧ readBar0 s p 0x0028 = BitVec.ofNat 32
    s.fm.jseq ∧ readBar0 s p 0x0024 = BitVec.ofNat 32 ((getPort s p).genCapture / 4294967296) ∧ readBar0 s p 0x002C =
    BitVec.ofNat 32 ((getPort s p).jseqCapture / 4294967296))

/-- An ACQUIRE succeeds only when the cell is free. R48, with its rule for ties. Stated: “An ACQUIRE succeeds only
when the cell is free. On success, the cell's OWNER becomes the writing port, TAG takes the written tag and ACQ_COUNT
increments.” -/
def Obligations.AcquireTakesAFreeCellOnly : Prop :=
  (∀ (p : Port) (cell : Fin 64) (tag : BitVec 16) (s : State), (getSem s cell.val).owner = none → ∃ t, exec
    (.semAcquire p cell tag none) s = .next t ∧ getSem t cell.val =
    { owner := some p, tag := tag, acqCount := ((getSem s cell.val).acqCount + 1) % 256 } ∧ t.tieFirst = s.tieFirst ∧
    ∀ j, j ≠ cell.val → getSem t j = getSem s j) ∧
  (∀ (p : Port) (cell : Fin 64) (tag r : BitVec 16) (s : State), (getSem s cell.val).owner = none → ∃ t, exec
    (.semAcquire p cell tag (some r)) s = .next t ∧ getSem t cell.val =
    { owner := some s.tieFirst, tag := if s.tieFirst = p then tag else r, acqCount := ((getSem s cell.val).acqCount + 1) % 256 }
    ∧ t.tieFirst = s.tieFirst.peer ∧ ∀ j, j ≠ cell.val → getSem t j = getSem s j) ∧
  (∀ (p : Port) (cell : Fin 64) (tag : BitVec 16) (rival : Option (BitVec 16)) (s : State), (getSem s cell.val).owner
    ≠ none → exec (.semAcquire p cell tag rival) s = .next s) ∧
  (State.reset.tieFirst = .a)

/-- Only the port that owns cell c writes channel c's buffer or CH_CTL or rings its doorbell; both may read. R50,
whole. Stated: “Only the port that owns cell c may write channel c's buffer, write its CH_CTL register or ring its
doorbell.” -/
def Obligations.OnlyTheOwnerUsesAChannel : Prop :=
  (∀ (p : Port) (ch : Fin 32) (off : Nat) (data : Bytes) (s : State), (getSem s ch.val).owner ≠ some p → ∃ t, exec
    (.mailboxBufferWrite p ch off data) s = .next t ∧ (getChan t ch.val).buffer = (getChan s ch.val).buffer ∧ (getChan
    t ch.val).written = (getChan s ch.val).written) ∧
  (∀ (p : Port) (ch : Fin 32) (d : BitVec 32) (full : Bool) (s : State), (getSem s ch.val).owner ≠ some p → ∃ t, exec
    (.registerWrite p (0x2004 + 64 * ch.val) d full) s = .next t ∧ getChan t ch.val = getChan s ch.val) ∧
  (∀ (p : Port) (ch : Fin 32) (epoch : Nat) (s : State), (getSem s ch.val).owner ≠ some p → ∃ t, exec (.doorbell p ch
    epoch) s = .next t ∧ (getChan t ch.val).state = (getChan s ch.val).state ∧ (getChan t ch.val).rangBy = (getChan s
    ch.val).rangBy ∧ t.fm.doorbells = s.fm.doorbells) ∧
  (∀ (s : State) (off : Nat), (0x2000 ≤ off ∧ off < 0x2800) ∨ (0x20000 ≤ off ∧ off < 0x40000) → readBar0 s .a off =
    readBar0 s .b off)

/-- Frame: what the port, mailbox, window, DMA, event and journal rows leave unchanged. What the port, mailbox,
window, DMA, event and journal rows leave alone, row by row. The parts are the fields of the model's State; what a row
may write within them is stated by the completion statements. -/
def Obligations.PortRowsFrame : Prop :=
  (∀ (p : Port) (cell : Fin 64) (tag : BitVec 16) (rival : Option (BitVec 16)) (s t : State), exec (.semAcquire p cell
    tag rival) s = .next t → { t with tieFirst := s.tieFirst, sems := s.sems, channels := s.channels } = s) ∧
  (∀ (p : Port) (cell : Fin 64) (s t : State), exec (.semRelease p cell) s = .next t → { t with
      portA := s.portA, portB := s.portB, eventsA := s.eventsA, eventsB := s.eventsB, sems := s.sems,
      channels := s.channels } = s) ∧
  (∀ (p : Port) (ch : Fin 32) (off : Nat) (data : Bytes) (s t : State), exec (.mailboxBufferWrite p ch off data) s =
    .next t → { t with channels := s.channels } = s) ∧
  (∀ (p : Port) (ch : Fin 32) (epoch : Nat) (s t : State), exec (.doorbell p ch epoch) s = .next t →
    { t with fm := s.fm, portA := s.portA, portB := s.portB, channels := s.channels } = s) ∧
  (∀ (ch : Fin 32) (s t : State), exec (.awaitedCompletion ch) s = .next t →
    { t with portA := s.portA, portB := s.portB, channels := s.channels } = s) ∧
  (∀ (p : Port) (v : BitVec 32) (s t : State), exec (.erCtlWrite p v) s = .next t →
    { t with portA := s.portA, portB := s.portB } = s) ∧
  (∀ (p : Port) (v : BitVec 32) (s t : State), exec (.erConsumerWrite p v) s = .next t →
    { t with portA := s.portA, portB := s.portB, eventsA := s.eventsA, eventsB := s.eventsB } = s) ∧
  (∀ (p : Port) (s t : State), exec (.moderationTimer p) s = .next t → { t with portA := s.portA, portB := s.portB } =
    s) ∧
  (∀ (p : Port) (v : Fin 32) (s t : State), exec (.msixUnmask p v) s = .next t →
    { t with portA := s.portA, portB := s.portB } = s) ∧
  (∀ (p : Port) (reg : CaptureReg) (s t : State), exec (.captureRead p reg) s = .next t →
    { t with portA := s.portA, portB := s.portB } = s) ∧
  (∀ (p : Port) (off : Nat) (d : BitVec 32) (full : Bool) (s t : State), exec (.registerWrite p off d full) s = .next
    t → { t with
      fm := s.fm, portA := s.portA, portB := s.portB, eventsA := s.eventsA, eventsB := s.eventsB, sems := s.sems,
      channels := s.channels, sources := s.sources, store := s.store } = s) ∧
  (∀ (p : Port) (e : Fin 8) (vector : Fin 32) (s t : State), exec (.dmaEnable p e vector) s = .next t → { t with
      fm := s.fm, portA := s.portA, portB := s.portB, channels := s.channels, sources := s.sources, store := s.store }
    = s) ∧
  (∀ (p : Port) (e : Fin 8) (moved : Bytes) (s t : State), exec (.abort p e moved) s = .next t → { t with
      fm := s.fm, portA := s.portA, portB := s.portB, channels := s.channels, sources := s.sources, store := s.store }
    = s) ∧
  (∀ (p : Port) (e : Fin 8) (tail : BitVec 32) (s t : State), exec (.dmaTailWrite p e tail) s = .next t →
    { t with portA := s.portA, portB := s.portB } = s) ∧
  (∀ (p : Port) (e : Fin 8) (descriptor : Bytes) (s t : State), exec (.dmaJobTake p e descriptor) s = .next t →
    { t with
      fm := s.fm, portA := s.portA, portB := s.portB, channels := s.channels, sources := s.sources, store := s.store }
    = s ∧ t.store.mem = s.store.mem) ∧
  (∀ (p : Port) (e : Fin 8) (s t : State), exec (.descriptorFetchFail p e) s = .next t →
    { t with portA := s.portA, portB := s.portB } = s) ∧
  (∀ (p : Port) (e : Fin 8) (ok : Bool) (x : JobEnd) (s t : State), exec (.dmaJobEnd p e ok x) s = .next t → { t with
      fm := s.fm, portA := s.portA, portB := s.portB, eventsA := s.eventsA, eventsB := s.eventsB,
      channels := s.channels, sources := s.sources, store := s.store, captures := s.captures } = s) ∧
  (∀ (p : Port) (cause : ResetCause) (moved : List (Nat × Bytes)) (s t : State), exec (.portReset p cause moved) s =
    .next t → { t with
      fm := s.fm, portA := s.portA, portB := s.portB, eventsA := s.eventsA, eventsB := s.eventsB, sems := s.sems,
      channels := s.channels, sources := s.sources, store := s.store, salvos := s.salvos,
      finishedSalvos := s.finishedSalvos } = s) ∧
  (∀ (p : Port) (s t : State), exec (.perstDeassert p) s = .next t → { t with portA := s.portA, portB := s.portB } =
    s) ∧
  (∀ (p : Port) (speed : Nat) (width : Nat) (s t : State), exec (.linkTrained p speed width) s = .next t →
    { t with portA := s.portA, portB := s.portB, eventsA := s.eventsA, eventsB := s.eventsB } = s) ∧
  (∀ (p : Port) (w : Fin 16) (x : Nat) (n : Nat) (s t : State), exec (.windowRead p w x n) s = .next t →
    { t with portA := s.portA, portB := s.portB } = s) ∧
  (∀ (p : Port) (w : Fin 16) (x : Nat) (data : Bytes) (epoch : Nat) (s t : State), exec (.windowWrite p w x data
    epoch) s = .next t → { t with portA := s.portA, portB := s.portB, store := s.store } = s) ∧
  (∀ (p : Port) (s t : State), exec (.lockedReadRequest p) s = .next t → { t with portA := s.portA, portB := s.portB }
    = s) ∧
  (∀ (p : Port) (w : Fin 16) (s t : State), exec (.apply p w) s = .next t →
    { t with portA := s.portA, portB := s.portB } = s) ∧
  (∀ (p : Port) (w : Fin 16) (s t : State), exec (.applySwitch p w) s = .next t →
    { t with portA := s.portA, portB := s.portB } = s) ∧
  (∀ (p : Port) (w : Fin 16) (s t : State), exec (.applyComplete p w) s = .next t →
    { t with portA := s.portA, portB := s.portB } = s) ∧
  (∀ (ch : Fin 32) (s t : State), exec (.eventEnable ch) s = .next t → { t with
      fm := s.fm, portA := s.portA, portB := s.portB, eventsA := s.eventsA, eventsB := s.eventsB,
      channels := s.channels } = s) ∧
  (∀ (ch : Fin 32) (s t : State), exec (.eventGet ch) s = .next t →
    { t with fm := s.fm, portA := s.portA, portB := s.portB, channels := s.channels } = s) ∧
  (∀ (ch : Fin 32) (s t : State), exec (.eventStatus ch) s = .next t →
    { t with fm := s.fm, portA := s.portA, portB := s.portB, channels := s.channels } = s) ∧
  (∀ (ch : Fin 32) (s t : State), exec (.eventPort ch) s = .next t → { t with
      fm := s.fm, portA := s.portA, portB := s.portB, eventsA := s.eventsA, eventsB := s.eventsB,
      channels := s.channels } = s) ∧
  (∀ (ch : Fin 32) (s t : State), exec (.journalStatus ch) s = .next t →
    { t with fm := s.fm, portA := s.portA, portB := s.portB, channels := s.channels } = s) ∧
  (∀ (ch : Fin 32) (s t : State), exec (.journalRead ch) s = .next t →
    { t with fm := s.fm, portA := s.portA, portB := s.portB, channels := s.channels } = s) ∧
  (∀ (ch : Fin 32) (s t : State), exec (.journalCopy ch) s = .next t → { t with
      fm := s.fm, portA := s.portA, portB := s.portB, channels := s.channels, store := s.store } = s) ∧
  (∀ (p : Port) (src : Fin 1536) (s t : State), exec (.coalesceWindowEnd p src) s = .next t →
    { t with portA := s.portA, portB := s.portB, eventsA := s.eventsA, eventsB := s.eventsB } = s) ∧
  (∀ (s t : State), exec .journalAdvanced s = .next t → { t with
      fm := s.fm, portA := s.portA, portB := s.portB, eventsA := s.eventsA, eventsB := s.eventsB } = s)

/-- Frame: what the SYS, CHANNEL, INPUT, HOSTFRAME and BENCH rows leave unchanged. What the SYS, CHANNEL, INPUT,
HOSTFRAME and BENCH rows leave alone, row by row. The parts are the fields of the model's State; what a row may write
within them is stated by the completion statements. -/
def Obligations.SourceRowsFrame : Prop :=
  (∀ (ch : Fin 32) (s t : State), exec (.sysIdentify ch) s = .next t →
    { t with fm := s.fm, portA := s.portA, portB := s.portB, channels := s.channels } = s) ∧
  (∀ (ch : Fin 32) (s t : State), exec (.sysStatus ch) s = .next t →
    { t with fm := s.fm, portA := s.portA, portB := s.portB, channels := s.channels } = s) ∧
  (∀ (ch : Fin 32) (s t : State), exec (.sysNop ch) s = .next t →
    { t with fm := s.fm, portA := s.portA, portB := s.portB, channels := s.channels } = s) ∧
  (∀ (ch : Fin 32) (s t : State), exec (.sysSupply ch) s = .next t → { t with
      fm := s.fm, portA := s.portA, portB := s.portB, eventsA := s.eventsA, eventsB := s.eventsB,
      channels := s.channels, flash := s.flash } = s) ∧
  (∀ (ch : Fin 32) (s t : State), exec (.channelPending ch) s = .next t →
    { t with fm := s.fm, portA := s.portA, portB := s.portB, channels := s.channels } = s) ∧
  (∀ (ch : Fin 32) (s t : State), exec (.channelCancel ch) s = .next t → { t with
      fm := s.fm, portA := s.portA, portB := s.portB, eventsA := s.eventsA, eventsB := s.eventsB,
      channels := s.channels, store := s.store, routes := s.routes, salvos := s.salvos,
      finishedSalvos := s.finishedSalvos, contexts := s.contexts, conv := s.conv, tables := s.tables,
      profiles := s.profiles, tableChanges := s.tableChanges, outputs := s.outputs, ashlars := s.ashlars,
      audio := s.audio, netPorts := s.netPorts, flows := s.flows, flash := s.flash, domains := s.domains } = s) ∧
  (∀ (ch : Fin 32) (s t : State), exec (.inputContract ch) s = .next t → { t with
      fm := s.fm, portA := s.portA, portB := s.portB, eventsA := s.eventsA, eventsB := s.eventsB,
      channels := s.channels, lanes := s.lanes, sources := s.sources, store := s.store, contexts := s.contexts,
      flash := s.flash, domains := s.domains } = s) ∧
  (∀ (ch : Fin 32) (s t : State), exec (.inputEnable ch) s = .next t → { t with
      free := s.free, fm := s.fm, portA := s.portA, portB := s.portB, eventsA := s.eventsA, eventsB := s.eventsB,
      channels := s.channels, lanes := s.lanes, sources := s.sources, store := s.store, routes := s.routes,
      contexts := s.contexts, tables := s.tables, profiles := s.profiles, tableChanges := s.tableChanges,
      audio := s.audio, refs := s.refs, adit := s.adit, flash := s.flash, domains := s.domains } = s) ∧
  (∀ (ch : Fin 32) (s t : State), exec (.inputStatus ch) s = .next t →
    { t with fm := s.fm, portA := s.portA, portB := s.portB, channels := s.channels } = s) ∧
  (∀ (ch : Fin 32) (s t : State), exec (.inputCounters ch) s = .next t →
    { t with fm := s.fm, portA := s.portA, portB := s.portB, channels := s.channels } = s) ∧
  (∀ (ch : Fin 32) (s t : State), exec (.inputGetContract ch) s = .next t →
    { t with fm := s.fm, portA := s.portA, portB := s.portB, channels := s.channels } = s) ∧
  (∀ (i : BitVec 16) (s t : State), exec (.trsLock i) s = .next t → { t with
      free := s.free, portA := s.portA, portB := s.portB, eventsA := s.eventsA, eventsB := s.eventsB,
      sources := s.sources, routes := s.routes, audio := s.audio, refs := s.refs } = s) ∧
  (∀ (i : BitVec 16) (m : FrameFacts) (s t : State), exec (.sourceFrameStart i m) s = .next t → { t with
      free := s.free, fm := s.fm, portA := s.portA, portB := s.portB, eventsA := s.eventsA, eventsB := s.eventsB,
      channels := s.channels, lanes := s.lanes, sources := s.sources, store := s.store, triggers := s.triggers,
      routes := s.routes, audio := s.audio, refs := s.refs, adit := s.adit, domains := s.domains } = s) ∧
  (∀ (i : BitVec 16) (l : LineFacts) (s t : State), exec (.lineReceived i l) s = .next t → { t with
      portA := s.portA, portB := s.portB, eventsA := s.eventsA, eventsB := s.eventsB, sources := s.sources,
      store := s.store, triggers := s.triggers, routes := s.routes, domains := s.domains } = s) ∧
  (∀ (i : BitVec 16) (p : AncPacket) (s t : State), exec (.ancPacket i p) s = .next t → { t with
      free := s.free, portA := s.portA, portB := s.portB, eventsA := s.eventsA, eventsB := s.eventsB,
      sources := s.sources, store := s.store, audio := s.audio, adit := s.adit } = s) ∧
  (∀ (i : BitVec 16) (s t : State), exec (.trsTimeout i) s = .next t → { t with
      free := s.free, fm := s.fm, portA := s.portA, portB := s.portB, eventsA := s.eventsA, eventsB := s.eventsB,
      channels := s.channels, lanes := s.lanes, sources := s.sources, store := s.store, triggers := s.triggers,
      routes := s.routes, audio := s.audio, refs := s.refs, adit := s.adit, domains := s.domains } = s) ∧
  (∀ (i : BitVec 16) (ppm : Int) (s t : State), exec (.rateUpdate i ppm) s = .next t → { t with
      portA := s.portA, portB := s.portB, eventsA := s.eventsA, eventsB := s.eventsB, lanes := s.lanes,
      sources := s.sources, triggers := s.triggers, routes := s.routes, refs := s.refs } = s) ∧
  (∀ (i : BitVec 16) (s t : State), exec (.lossHoldExpired i) s = .next t → { t with
      portA := s.portA, portB := s.portB, eventsA := s.eventsA, eventsB := s.eventsB, sources := s.sources } = s) ∧
  (∀ (i : BitVec 16) (s t : State), exec (.hostSourceStall i) s = .next t → { t with
      free := s.free, portA := s.portA, portB := s.portB, eventsA := s.eventsA, eventsB := s.eventsB,
      sources := s.sources, routes := s.routes, audio := s.audio, refs := s.refs } = s) ∧
  (∀ (ch : Fin 32) (s t : State), exec (.benchStatus ch) s = .next t → { t with
      free := s.free, fm := s.fm, portA := s.portA, portB := s.portB, channels := s.channels } = s) ∧
  (∀ (ch : Fin 32) (s t : State), exec (.benchSlots ch) s = .next t →
    { t with fm := s.fm, portA := s.portA, portB := s.portB, channels := s.channels } = s) ∧
  (∀ (x : SlotCall) (s t : State), exec (.hostframeOpen x) s = .next t → { t with
      fm := s.fm, portA := s.portA, portB := s.portB, eventsA := s.eventsA, eventsB := s.eventsB,
      channels := s.channels, sources := s.sources, store := s.store } = s) ∧
  (∀ (x : SlotCall) (s t : State), exec (.hostframeClose x) s = .next t → { t with
      fm := s.fm, portA := s.portA, portB := s.portB, eventsA := s.eventsA, eventsB := s.eventsB,
      channels := s.channels, sources := s.sources, store := s.store } = s) ∧
  (∀ (ch : Fin 32) (s t : State), exec (.benchFenceQuery ch) s = .next t →
    { t with fm := s.fm, portA := s.portA, portB := s.portB, channels := s.channels } = s) ∧
  (∀ (ch : Fin 32) (s t : State), exec (.benchFenceNotify ch) s = .next t → { t with
      fm := s.fm, portA := s.portA, portB := s.portB, eventsA := s.eventsA, eventsB := s.eventsB,
      channels := s.channels, store := s.store } = s ∧ t.store.mem = s.store.mem) ∧
  (∀ (ch : Fin 32) (s t : State), exec (.benchStoreStatus ch) s = .next t → { t with
      free := s.free, fm := s.fm, portA := s.portA, portB := s.portB, channels := s.channels } = s) ∧
  (∀ (ch : Fin 32) (s t : State), exec (.benchStoreConfig ch) s = .next t → { t with
      fm := s.fm, portA := s.portA, portB := s.portB, channels := s.channels, store := s.store, flash := s.flash } = s
    ∧ t.store.mem = s.store.mem) ∧
  (∀ (stack : Fin 2) (temp0 : Int) (temp1 : Int) (s t : State), exec (.memRefreshDoubled stack temp0 temp1) s = .next
    t → { t with
      portA := s.portA, portB := s.portB, eventsA := s.eventsA, eventsB := s.eventsB, store := s.store } = s ∧
    t.store.mem = s.store.mem) ∧
  (∀ (facts : PeriodFacts) (s t : State), exec (.schedulerPeriod facts) s = .next t → { t with store := s.store } = s
    ∧ t.store.mem = s.store.mem) ∧
  (∀ (key : BitVec 16) (s t : State), exec (.benchShrinkDone key) s = .next t →
    { t with fm := s.fm, channels := s.channels, sources := s.sources, store := s.store } = s ∧ t.store.mem =
    s.store.mem)

/-- Frame: what the LANE and ADIT rows leave unchanged. What the LANE and ADIT rows leave alone, row by row. The parts
are the fields of the model's State; what a row may write within them is stated by the completion statements. -/
def Obligations.LaneAndAditRowsFrame : Prop :=
  (∀ (ch : Fin 32) (s t : State), exec (.laneStatus ch) s = .next t → { t with
      free := s.free, fm := s.fm, portA := s.portA, portB := s.portB, channels := s.channels } = s) ∧
  (∀ (ch : Fin 32) (s t : State), exec (.laneRxConfig ch) s = .next t → { t with
      free := s.free, fm := s.fm, portA := s.portA, portB := s.portB, eventsA := s.eventsA, eventsB := s.eventsB,
      channels := s.channels, lanes := s.lanes, sources := s.sources, store := s.store, triggers := s.triggers,
      routes := s.routes, audio := s.audio, refs := s.refs, adit := s.adit, flash := s.flash, domains := s.domains } =
    s) ∧
  (∀ (ch : Fin 32) (s t : State), exec (.laneTxConfig ch) s = .next t → { t with
      fm := s.fm, portA := s.portA, portB := s.portB, channels := s.channels, lanes := s.lanes, flash := s.flash } =
    s) ∧
  (∀ (ch : Fin 32) (s t : State), exec (.laneGroupFamily ch) s = .next t → { t with
      fm := s.fm, portA := s.portA, portB := s.portB, channels := s.channels, groups := s.groups, flash := s.flash } =
    s) ∧
  (∀ (g : Fin 16) (s t : State), exec (.groupPllLocked g) s = .next t →
    { t with fm := s.fm, channels := s.channels, groups := s.groups } = s) ∧
  (∀ (ch : Fin 32) (s t : State), exec (.lanePrbs ch) s = .next t → { t with
      free := s.free, fm := s.fm, portA := s.portA, portB := s.portB, eventsA := s.eventsA, eventsB := s.eventsB,
      channels := s.channels, lanes := s.lanes, flash := s.flash, domains := s.domains } = s) ∧
  (∀ (ch : Fin 32) (n : Nat) (errors : Nat) (s t : State), exec (.lanePrbsRead ch n errors) s = .next t → { t with
      fm := s.fm, portA := s.portA, portB := s.portB, channels := s.channels, lanes := s.lanes } = s) ∧
  (∀ (ch : Fin 32) (s t : State), exec (.laneSlip ch) s = .next t → { t with
      free := s.free, fm := s.fm, portA := s.portA, portB := s.portB, eventsA := s.eventsA, eventsB := s.eventsB,
      channels := s.channels, lanes := s.lanes, sources := s.sources, store := s.store, triggers := s.triggers,
      routes := s.routes, audio := s.audio, refs := s.refs, adit := s.adit, flash := s.flash, domains := s.domains } =
    s) ∧
  (∀ (ch : Fin 32) (s t : State), exec (.laneAdapt ch) s = .next t → { t with
      free := s.free, fm := s.fm, portA := s.portA, portB := s.portB, eventsA := s.eventsA, eventsB := s.eventsB,
      channels := s.channels, lanes := s.lanes, sources := s.sources, store := s.store, triggers := s.triggers,
      routes := s.routes, audio := s.audio, refs := s.refs, adit := s.adit, flash := s.flash, domains := s.domains } =
    s) ∧
  (∀ (id : BitVec 16) (s t : State), exec (.signalDetected id) s = .next t → { t with
      free := s.free, portA := s.portA, portB := s.portB, eventsA := s.eventsA, eventsB := s.eventsB,
      lanes := s.lanes, sources := s.sources, routes := s.routes, audio := s.audio, refs := s.refs } = s) ∧
  (∀ (id : BitVec 16) (s t : State), exec (.signalLost id) s = .next t → { t with
      free := s.free, fm := s.fm, portA := s.portA, portB := s.portB, eventsA := s.eventsA, eventsB := s.eventsB,
      channels := s.channels, lanes := s.lanes, sources := s.sources, store := s.store, triggers := s.triggers,
      routes := s.routes, audio := s.audio, refs := s.refs, adit := s.adit, domains := s.domains } = s) ∧
  (∀ (id : BitVec 16) (s t : State), exec (.rateHuntStep id) s = .next t → { t with lanes := s.lanes } = s) ∧
  (∀ (id : BitVec 16) (family : Fin 2) (ppm : Int) (s t : State), exec (.cdrLock id family ppm) s = .next t →
    { t with lanes := s.lanes } = s) ∧
  (∀ (id : BitVec 16) (s t : State), exec (.cdrLockLoss id) s = .next t → { t with
      free := s.free, fm := s.fm, portA := s.portA, portB := s.portB, eventsA := s.eventsA, eventsB := s.eventsB,
      channels := s.channels, lanes := s.lanes, sources := s.sources, store := s.store, triggers := s.triggers,
      routes := s.routes, audio := s.audio, refs := s.refs, adit := s.adit, domains := s.domains } = s) ∧
  (∀ (id : BitVec 16) (sig : BitVec 16) (s t : State), exec (.signatureMeasured id sig) s = .next t → { t with
      free := s.free, portA := s.portA, portB := s.portB, eventsA := s.eventsA, eventsB := s.eventsB,
      lanes := s.lanes, sources := s.sources, routes := s.routes, audio := s.audio, refs := s.refs } = s) ∧
  (∀ (id : BitVec 16) (code : Fin 41) (margin : Byte) (s t : State), exec (.adaptationDone id code margin) s = .next t
    → { t with
      free := s.free, portA := s.portA, portB := s.portB, eventsA := s.eventsA, eventsB := s.eventsB,
      lanes := s.lanes, sources := s.sources, routes := s.routes, audio := s.audio, refs := s.refs } = s) ∧
  (∀ (id : BitVec 16) (step : Option Bool) (margin : Byte) (s t : State), exec (.trackingStep id step margin) s =
    .next t → { t with
      free := s.free, now := s.now, uptime := s.uptime, fm := s.fm, portA := s.portA, portB := s.portB,
      eventsA := s.eventsA, eventsB := s.eventsB, channels := s.channels, lanes := s.lanes, sources := s.sources,
      outputs := s.outputs, audio := s.audio, refs := s.refs } = s) ∧
  (∀ (n : Fin 128) (limit : Bool) (ppm : Int) (s t : State), exec (.piLimit n limit ppm) s = .next t → { t with
      portA := s.portA, portB := s.portB, eventsA := s.eventsA, eventsB := s.eventsB, lanes := s.lanes,
      sources := s.sources, triggers := s.triggers, routes := s.routes } = s) ∧
  (∀ (n : Fin 128) (level : Fin 65) (s t : State), exec (.laneRecentre n level) s = .next t → { t with
      portA := s.portA, portB := s.portB, eventsA := s.eventsA, eventsB := s.eventsB, lanes := s.lanes } = s) ∧
  (∀ (id : BitVec 16) (s t : State), exec (.prbsSync id) s = .next t → { t with lanes := s.lanes } = s) ∧
  (∀ (id : BitVec 16) (n : Nat) (errors : Nat) (s t : State), exec (.lanePrbsSyncLost id n errors) s = .next t →
    { t with
      portA := s.portA, portB := s.portB, eventsA := s.eventsA, eventsB := s.eventsB, lanes := s.lanes } = s) ∧
  (∀ (i : Fin 8) (s t : State), exec (.alignFound i) s = .next t → { t with lanes := s.lanes } = s) ∧
  (∀ (i : Fin 8) (s t : State), exec (.alignLost i) s = .next t → { t with
      free := s.free, fm := s.fm, portA := s.portA, portB := s.portB, eventsA := s.eventsA, eventsB := s.eventsB,
      channels := s.channels, lanes := s.lanes, sources := s.sources, store := s.store, triggers := s.triggers,
      routes := s.routes, audio := s.audio, refs := s.refs, adit := s.adit, domains := s.domains } = s) ∧
  (∀ (ch : Fin 32) (s t : State), exec (.aditConfig ch) s = .next t → { t with
      free := s.free, fm := s.fm, portA := s.portA, portB := s.portB, eventsA := s.eventsA, eventsB := s.eventsB,
      channels := s.channels, lanes := s.lanes, sources := s.sources, store := s.store, triggers := s.triggers,
      routes := s.routes, audio := s.audio, refs := s.refs, adit := s.adit, flash := s.flash, domains := s.domains } =
    s) ∧
  (∀ (ch : Fin 32) (s t : State), exec (.aditStatus ch) s = .next t →
    { t with fm := s.fm, portA := s.portA, portB := s.portB, channels := s.channels } = s) ∧
  (∀ (ch : Fin 32) (s t : State), exec (.aditTie ch) s = .next t → { t with
      free := s.free, fm := s.fm, portA := s.portA, portB := s.portB, eventsA := s.eventsA, eventsB := s.eventsB,
      channels := s.channels, lanes := s.lanes, sources := s.sources, store := s.store, triggers := s.triggers,
      routes := s.routes, audio := s.audio, refs := s.refs, adit := s.adit, flash := s.flash, domains := s.domains } =
    s) ∧
  (∀ (ch : Fin 32) (s t : State), exec (.aditTieStatus ch) s = .next t →
    { t with fm := s.fm, portA := s.portA, portB := s.portB, channels := s.channels } = s) ∧
  (∀ (i : Fin 8) (seed : BitVec 31) (epoch : BitVec 8) (aligned : Bool) (s t : State), exec (.aditMarker i seed epoch
    aligned) s = .next t → { t with adit := s.adit } = s) ∧
  (∀ (f : AditPeriod) (s t : State), exec (.aditPeriod f) s = .next t → { t with
      free := s.free, fm := s.fm, portA := s.portA, portB := s.portB, eventsA := s.eventsA, eventsB := s.eventsB,
      channels := s.channels, lanes := s.lanes, sources := s.sources, store := s.store, triggers := s.triggers,
      routes := s.routes, audio := s.audio, refs := s.refs, adit := s.adit, domains := s.domains } = s) ∧
  (∀ (i : Fin 8) (s t : State), exec (.autoAlignSlip i) s = .next t → { t with
      free := s.free, fm := s.fm, portA := s.portA, portB := s.portB, eventsA := s.eventsA, eventsB := s.eventsB,
      channels := s.channels, lanes := s.lanes, sources := s.sources, store := s.store, triggers := s.triggers,
      routes := s.routes, audio := s.audio, refs := s.refs, adit := s.adit, flash := s.flash, domains := s.domains } =
    s)

/-- Frame: what the ROUTE, SALVO, OUTPUT and ASHLAR rows leave unchanged. What the ROUTE, SALVO, OUTPUT and ASHLAR
rows leave alone, row by row. The parts are the fields of the model's State; what a row may write within them is
stated by the completion statements. -/
def Obligations.RouteAndOutputRowsFrame : Prop :=
  (∀ (g : Fin 64) (level : Bool) (s t : State), exec (.gpiEdge g level) s = .next t →
    { t with gpioEdge := s.gpioEdge, gpioIn := s.gpioIn } = s) ∧
  (∀ (g : Fin 64) (s t : State), exec (.gpiQualified g) s = .next t →
    { t with fm := s.fm, gpioEdge := s.gpioEdge, flash := s.flash } = s) ∧
  (∀ (ch : Fin 32) (s t : State), exec (.routeSet ch) s = .next t → { t with
      fm := s.fm, portA := s.portA, portB := s.portB, eventsA := s.eventsA, eventsB := s.eventsB,
      channels := s.channels, store := s.store, routes := s.routes, contexts := s.contexts, outputs := s.outputs,
      flash := s.flash, domains := s.domains } = s) ∧
  (∀ (ch : Fin 32) (s t : State), exec (.routeGet ch) s = .next t → { t with
      free := s.free, fm := s.fm, portA := s.portA, portB := s.portB, channels := s.channels } = s) ∧
  (∀ (ch : Fin 32) (s t : State), exec (.routeList ch) s = .next t →
    { t with fm := s.fm, portA := s.portA, portB := s.portB, channels := s.channels } = s) ∧
  (∀ (ch : Fin 32) (s t : State), exec (.routeCounters ch) s = .next t →
    { t with fm := s.fm, portA := s.portA, portB := s.portB, channels := s.channels } = s) ∧
  (∀ (ch : Fin 32) (s t : State), exec (.routeTallyGpio ch) s = .next t → { t with
      fm := s.fm, portA := s.portA, portB := s.portB, channels := s.channels, tally := s.tally, gpioOut := s.gpioOut,
      flash := s.flash } = s) ∧
  (∀ (ch : Fin 32) (s t : State), exec (.salvoCreate ch) s = .next t → { t with
      fm := s.fm, portA := s.portA, portB := s.portB, channels := s.channels, salvos := s.salvos,
      finishedSalvos := s.finishedSalvos, nextSalvo := s.nextSalvo } = s) ∧
  (∀ (ch : Fin 32) (s t : State), exec (.salvoAdd ch) s = .next t → { t with
      fm := s.fm, portA := s.portA, portB := s.portB, channels := s.channels, salvos := s.salvos } = s) ∧
  (∀ (ch : Fin 32) (s t : State), exec (.salvoRemove ch) s = .next t → { t with
      fm := s.fm, portA := s.portA, portB := s.portB, channels := s.channels, salvos := s.salvos } = s) ∧
  (∀ (ch : Fin 32) (s t : State), exec (.salvoCommit ch) s = .next t → { t with
      fm := s.fm, portA := s.portA, portB := s.portB, eventsA := s.eventsA, eventsB := s.eventsB,
      channels := s.channels, store := s.store, routes := s.routes, salvos := s.salvos, contexts := s.contexts,
      outputs := s.outputs, flash := s.flash, domains := s.domains } = s) ∧
  (∀ (ch : Fin 32) (s t : State), exec (.salvoDiscard ch) s = .next t → { t with
      fm := s.fm, portA := s.portA, portB := s.portB, eventsA := s.eventsA, eventsB := s.eventsB,
      channels := s.channels, salvos := s.salvos, finishedSalvos := s.finishedSalvos } = s) ∧
  (∀ (ch : Fin 32) (s t : State), exec (.salvoStatus ch) s = .next t →
    { t with fm := s.fm, portA := s.portA, portB := s.portB, channels := s.channels } = s) ∧
  (∀ (ch : Fin 32) (s t : State), exec (.salvoResult ch) s = .next t →
    { t with fm := s.fm, portA := s.portA, portB := s.portB, channels := s.channels } = s) ∧
  (∀ (i : BitVec 16) (s t : State), exec (.salvoTimeout i) s = .next t → { t with
      portA := s.portA, portB := s.portB, eventsA := s.eventsA, eventsB := s.eventsB, salvos := s.salvos,
      finishedSalvos := s.finishedSalvos } = s) ∧
  (∀ (d : BitVec 16) (s t : State), exec (.classChange d) s = .next t → { t with
      fm := s.fm, portA := s.portA, portB := s.portB, eventsA := s.eventsA, eventsB := s.eventsB,
      channels := s.channels, store := s.store, triggers := s.triggers, routes := s.routes, contexts := s.contexts,
      tables := s.tables, profiles := s.profiles, tableChanges := s.tableChanges, flash := s.flash,
      domains := s.domains } = s) ∧
  (∀ (d : BitVec 16) (s t : State), exec (.restoreTimer d) s = .next t → { t with
      fm := s.fm, portA := s.portA, portB := s.portB, eventsA := s.eventsA, eventsB := s.eventsB,
      channels := s.channels, contexts := s.contexts, flash := s.flash, domains := s.domains } = s) ∧
  (∀ (d : BitVec 16) (s t : State), exec (.heldLossHoldExpired d) s = .next t → { t with routes := s.routes } = s) ∧
  (∀ (owner : BitVec 16) (dest : Bool) (facts : CloseFacts) (s t : State), exec (.frameClose owner dest facts) s =
    .next t → { t with
      free := s.free, portA := s.portA, portB := s.portB, eventsA := s.eventsA, eventsB := s.eventsB,
      channels := s.channels, sources := s.sources, store := s.store, triggers := s.triggers, routes := s.routes,
      contexts := s.contexts, conv := s.conv, outputs := s.outputs, adit := s.adit } = s) ∧
  (∀ (gen : Nat) (s t : State), exec (.shadowWrite gen) s = .next t → { t with
      free := s.free, fm := s.fm, portA := s.portA, portB := s.portB, eventsA := s.eventsA, eventsB := s.eventsB,
      channels := s.channels, lanes := s.lanes, store := s.store, routes := s.routes, salvos := s.salvos,
      finishedSalvos := s.finishedSalvos, gpioOut := s.gpioOut, contexts := s.contexts, tables := s.tables,
      profiles := s.profiles, tableChanges := s.tableChanges, outputs := s.outputs, audio := s.audio,
      flash := s.flash, domains := s.domains } = s) ∧
  (∀ (x : LeftOut) (s t : State), exec (.switchInstant x) s = .next t → { t with
      free := s.free, fm := s.fm, portA := s.portA, portB := s.portB, eventsA := s.eventsA, eventsB := s.eventsB,
      channels := s.channels, lanes := s.lanes, store := s.store, routes := s.routes, salvos := s.salvos,
      finishedSalvos := s.finishedSalvos, gpioOut := s.gpioOut, contexts := s.contexts, tables := s.tables,
      profiles := s.profiles, tableChanges := s.tableChanges, outputs := s.outputs, ashlars := s.ashlars,
      audio := s.audio, flash := s.flash, domains := s.domains } = s) ∧
  (∀ (d : BitVec 16) (s t : State), exec (.latchCycle d) s = .next t → t.pending = s.pending ∧ t.now = s.now ∧
    t.readyAt = s.readyAt ∧ t.uptime = s.uptime ∧ t.product = s.product ∧ t.ready = s.ready ∧ t.updating = s.updating
    ∧ t.pwrWarn = s.pwrWarn ∧ t.bootWait = s.bootWait ∧ t.fuseSense = s.fuseSense ∧ t.tieFirst = s.tieFirst ∧ t.sems =
    s.sems ∧ t.groups = s.groups ∧ t.sources = s.sources ∧ t.captures = s.captures ∧ t.triggers = s.triggers ∧
    t.gpioEdge = s.gpioEdge ∧ t.nextSalvo = s.nextSalvo ∧ t.gpioIn = s.gpioIn ∧ t.spares = s.spares ∧ t.aports =
    s.aports ∧ t.refs = s.refs ∧ t.adit = s.adit ∧ t.island = s.island ∧ t.fw = s.fw ∧ t.rails = s.rails ∧ t.fuses =
    s.fuses ∧ t.tap = s.tap) ∧
  (∀ (x : LeftOut) (s t : State), exec (.outputFrameStart x) s = .next t → { t with
      free := s.free, fm := s.fm, portA := s.portA, portB := s.portB, eventsA := s.eventsA, eventsB := s.eventsB,
      channels := s.channels, outputs := s.outputs, audio := s.audio } = s) ∧
  (∀ (ch : Fin 32) (s t : State), exec (.outputConfig ch) s = .next t → { t with
      fm := s.fm, portA := s.portA, portB := s.portB, eventsA := s.eventsA, eventsB := s.eventsB,
      channels := s.channels, store := s.store, routes := s.routes, contexts := s.contexts, outputs := s.outputs,
      flash := s.flash, domains := s.domains } = s ∧ t.store.mem = s.store.mem) ∧
  (∀ (ch : Fin 32) (s t : State), exec (.outputGetConfig ch) s = .next t →
    { t with fm := s.fm, portA := s.portA, portB := s.portB, channels := s.channels } = s) ∧
  (∀ (ch : Fin 32) (s t : State), exec (.outputStatus ch) s = .next t →
    { t with fm := s.fm, portA := s.portA, portB := s.portB, channels := s.channels } = s) ∧
  (∀ (ch : Fin 32) (s t : State), exec (.outputCounters ch) s = .next t →
    { t with fm := s.fm, portA := s.portA, portB := s.portB, channels := s.channels } = s) ∧
  (∀ (d : BitVec 16) (field2 : Bool) (s t : State), exec (.outputBlank d field2) s = .next t →
    { t with portA := s.portA, portB := s.portB, eventsA := s.eventsA, eventsB := s.eventsB } = s) ∧
  (∀ (d : BitVec 16) (s t : State), exec (.outputLine d) s = .next t →
    { t with portA := s.portA, portB := s.portB, eventsA := s.eventsA, eventsB := s.eventsB } = s) ∧
  (∀ (ch : Fin 32) (s t : State), exec (.ashlarConfig ch) s = .next t → { t with
      fm := s.fm, portA := s.portA, portB := s.portB, eventsA := s.eventsA, eventsB := s.eventsB,
      channels := s.channels, store := s.store, routes := s.routes, ashlars := s.ashlars, flash := s.flash,
      domains := s.domains } = s) ∧
  (∀ (ch : Fin 32) (s t : State), exec (.ashlarGetConfig ch) s = .next t →
    { t with fm := s.fm, portA := s.portA, portB := s.portB, channels := s.channels } = s) ∧
  (∀ (ch : Fin 32) (s t : State), exec (.ashlarLayers ch) s = .next t → { t with
      fm := s.fm, portA := s.portA, portB := s.portB, eventsA := s.eventsA, eventsB := s.eventsB,
      channels := s.channels, store := s.store, outputs := s.outputs, ashlars := s.ashlars, flash := s.flash } = s) ∧
  (∀ (ch : Fin 32) (s t : State), exec (.ashlarGetLayers ch) s = .next t →
    { t with fm := s.fm, portA := s.portA, portB := s.portB, channels := s.channels } = s) ∧
  (∀ (ch : Fin 32) (s t : State), exec (.ashlarStatus ch) s = .next t →
    { t with fm := s.fm, portA := s.portA, portB := s.portB, channels := s.channels } = s) ∧
  (∀ (d : BitVec 16) (line : Nat) (chased : Bool) (layer : Fin 64) (s t : State), exec (.outputUnderrun d line chased
    layer) s = .next t → { t with
      free := s.free, portA := s.portA, portB := s.portB, eventsA := s.eventsA, eventsB := s.eventsB,
      store := s.store, outputs := s.outputs, ashlars := s.ashlars } = s)

/-- Frame: what the CRUSHER rows leave unchanged. What the CRUSHER rows leave alone, row by row. The parts are the
fields of the model's State; what a row may write within them is stated by the completion statements. -/
def Obligations.CrusherRowsFrame : Prop :=
  (∀ (s t : State), exec .heldRetry s = .next t → { t with
      fm := s.fm, portA := s.portA, portB := s.portB, eventsA := s.eventsA, eventsB := s.eventsB,
      channels := s.channels, store := s.store, crushers := s.crushers, contexts := s.contexts, conv := s.conv,
      flash := s.flash, domains := s.domains } = s ∧ t.store.mem = s.store.mem) ∧
  (∀ (ch : Fin 32) (s t : State), exec (.crusherPoolStatus ch) s = .next t →
    { t with fm := s.fm, portA := s.portA, portB := s.portB, channels := s.channels } = s) ∧
  (∀ (ch : Fin 32) (s t : State), exec (.crusherStatus ch) s = .next t →
    { t with fm := s.fm, portA := s.portA, portB := s.portB, channels := s.channels } = s) ∧
  (∀ (ch : Fin 32) (s t : State), exec (.crusherCounters ch) s = .next t →
    { t with fm := s.fm, portA := s.portA, portB := s.portB, channels := s.channels } = s) ∧
  (∀ (ch : Fin 32) (s t : State), exec (.crusherPolicy ch) s = .next t → { t with
      fm := s.fm, portA := s.portA, portB := s.portB, eventsA := s.eventsA, eventsB := s.eventsB,
      channels := s.channels, spares := s.spares, crushers := s.crushers, flash := s.flash, domains := s.domains } =
    s) ∧
  (∀ (ch : Fin 32) (s t : State), exec (.crusherMigrate ch) s = .next t → { t with
      fm := s.fm, portA := s.portA, portB := s.portB, eventsA := s.eventsA, eventsB := s.eventsB,
      channels := s.channels, crushers := s.crushers, contexts := s.contexts, flash := s.flash, domains := s.domains }
    = s) ∧
  (∀ (ch : Fin 32) (s t : State), exec (.crusherService ch) s = .next t → { t with
      fm := s.fm, portA := s.portA, portB := s.portB, eventsA := s.eventsA, eventsB := s.eventsB,
      channels := s.channels, crushers := s.crushers, contexts := s.contexts, flash := s.flash, domains := s.domains }
    = s) ∧
  (∀ (k : Fin 32) (s t : State), exec (.crusherIdleTimeout k) s = .next t → { t with
      fm := s.fm, portA := s.portA, portB := s.portB, eventsA := s.eventsA, eventsB := s.eventsB, flash := s.flash,
      domains := s.domains } = s) ∧
  (∀ (ch : Fin 32) (s t : State), exec (.crusherTableLoad ch) s = .next t → { t with
      fm := s.fm, portA := s.portA, portB := s.portB, channels := s.channels, tables := s.tables,
      profiles := s.profiles, tableChanges := s.tableChanges, flash := s.flash } = s) ∧
  (∀ (ch : Fin 32) (s t : State), exec (.crusherTableRead ch) s = .next t → { t with
      fm := s.fm, portA := s.portA, portB := s.portB, channels := s.channels, store := s.store } = s) ∧
  (∀ (ch : Fin 32) (s t : State), exec (.crusherProfileSet ch) s = .next t → { t with
      fm := s.fm, portA := s.portA, portB := s.portB, channels := s.channels, tables := s.tables,
      profiles := s.profiles, tableChanges := s.tableChanges, flash := s.flash } = s) ∧
  (∀ (ch : Fin 32) (s t : State), exec (.crusherProfileGet ch) s = .next t →
    { t with fm := s.fm, portA := s.portA, portB := s.portB, channels := s.channels } = s) ∧
  (∀ (ch : Fin 32) (s t : State), exec (.crusherProcStatus ch) s = .next t →
    { t with fm := s.fm, portA := s.portA, portB := s.portB, channels := s.channels } = s) ∧
  (∀ (d : BitVec 16) (s t : State), exec (.tableSwitch d) s = .next t → { t with
      fm := s.fm, channels := s.channels, tables := s.tables, profiles := s.profiles, tableChanges := s.tableChanges }
    = s)

/-- Frame: what the AUDIO and AUDIOPORT rows leave unchanged. What the AUDIO and AUDIOPORT rows leave alone, row by
row. The parts are the fields of the model's State; what a row may write within them is stated by the completion
statements. -/
def Obligations.AudioRowsFrame : Prop :=
  (∀ (ch : Fin 32) (s t : State), exec (.audioMap ch) s = .next t → { t with
      fm := s.fm, portA := s.portA, portB := s.portB, eventsA := s.eventsA, eventsB := s.eventsB,
      channels := s.channels, outputs := s.outputs, audio := s.audio, flash := s.flash, domains := s.domains } = s) ∧
  (∀ (ch : Fin 32) (s t : State), exec (.audioGetMap ch) s = .next t →
    { t with fm := s.fm, portA := s.portA, portB := s.portB, channels := s.channels } = s) ∧
  (∀ (ch : Fin 32) (s t : State), exec (.audioLevel ch) s = .next t → { t with
      fm := s.fm, portA := s.portA, portB := s.portB, channels := s.channels, audio := s.audio, flash := s.flash } =
    s) ∧
  (∀ (ch : Fin 32) (s t : State), exec (.audioEmbed ch) s = .next t → { t with
      free := s.free, fm := s.fm, portA := s.portA, portB := s.portB, eventsA := s.eventsA, eventsB := s.eventsB,
      channels := s.channels, audio := s.audio, flash := s.flash, domains := s.domains } = s) ∧
  (∀ (ch : Fin 32) (s t : State), exec (.audioCompanion ch) s = .next t → { t with
      fm := s.fm, portA := s.portA, portB := s.portB, channels := s.channels, audio := s.audio, flash := s.flash } =
    s) ∧
  (∀ (ch : Fin 32) (s t : State), exec (.audioFlowMap ch) s = .next t → { t with
      free := s.free, fm := s.fm, portA := s.portA, portB := s.portB, channels := s.channels, sources := s.sources,
      audio := s.audio, flash := s.flash } = s) ∧
  (∀ (ch : Fin 32) (s t : State), exec (.audioTone ch) s = .next t → { t with
      fm := s.fm, portA := s.portA, portB := s.portB, channels := s.channels, audio := s.audio, flash := s.flash } =
    s) ∧
  (∀ (ch : Fin 32) (s t : State), exec (.audioMeters ch) s = .next t →
    { t with fm := s.fm, portA := s.portA, portB := s.portB, channels := s.channels } = s) ∧
  (∀ (ch : Fin 32) (s t : State), exec (.audioDestStatus ch) s = .next t →
    { t with fm := s.fm, portA := s.portA, portB := s.portB, channels := s.channels } = s) ∧
  (∀ (ch : Fin 32) (s t : State), exec (.audioSourceStatus ch) s = .next t →
    { t with fm := s.fm, portA := s.portA, portB := s.portB, channels := s.channels } = s) ∧
  (∀ (ch : Fin 32) (s t : State), exec (.audioEngineStatus ch) s = .next t →
    { t with fm := s.fm, portA := s.portA, portB := s.portB, channels := s.channels } = s) ∧
  (∀ (facts : List MeterFact) (s t : State), exec (.meterBlock facts) s = .next t →
    { t with sources := s.sources, audio := s.audio } = s) ∧
  (∀ (c : BitVec 16) (s t : State), exec (.crossfadeEnd c) s = .next t → { t with audio := s.audio } = s) ∧
  (∀ (c : BitVec 16) (clocks : List Nat) (ppm : Int) (s t : State), exec (.sourceLockQualified c clocks ppm) s = .next
    t → { t with
      free := s.free, portA := s.portA, portB := s.portB, eventsA := s.eventsA, eventsB := s.eventsB,
      sources := s.sources, audio := s.audio } = s) ∧
  (∀ (k : Fin 512) (s t : State), exec (.asrcRelease k) s = .next t → { t with
      free := s.free, portA := s.portA, portB := s.portB, eventsA := s.eventsA, eventsB := s.eventsB,
      audio := s.audio } = s) ∧
  (∀ (c : BitVec 16) (s t : State), exec (.sampleSlip c) s = .next t → { t with
      free := s.free, portA := s.portA, portB := s.portB, eventsA := s.eventsA, eventsB := s.eventsB,
      audio := s.audio } = s) ∧
  (∀ (c : BitVec 16) (fast : Bool) (s t : State), exec (.burstSlip c fast) s = .next t → { t with
      portA := s.portA, portB := s.portB, eventsA := s.eventsA, eventsB := s.eventsB, audio := s.audio } = s) ∧
  (∀ (c : BitVec 16) (out : Bool) (s t : State), exec (.rateRange c out) s = .next t → { t with
      portA := s.portA, portB := s.portB, eventsA := s.eventsA, eventsB := s.eventsB, audio := s.audio } = s) ∧
  (∀ (c : BitVec 16) (burst : BitVec 16) (both : Bool) (s t : State), exec (.preambleFound c burst both) s = .next t →
    { t with
      portA := s.portA, portB := s.portB, eventsA := s.eventsA, eventsB := s.eventsB, sources := s.sources,
      audio := s.audio } = s) ∧
  (∀ (c : BitVec 16) (s t : State), exec (.nonpcmTimeout c) s = .next t → { t with
      portA := s.portA, portB := s.portB, eventsA := s.eventsA, eventsB := s.eventsB, sources := s.sources,
      audio := s.audio } = s) ∧
  (∀ (h : Fin 2) (s t : State), exec (.audioHalfIdleTimeout h) s = .next t → { t with
      fm := s.fm, portA := s.portA, portB := s.portB, eventsA := s.eventsA, eventsB := s.eventsB, flash := s.flash,
      domains := s.domains } = s) ∧
  (∀ (ch : Fin 32) (s t : State), exec (.audioportConfig ch) s = .next t → { t with
      free := s.free, now := s.now, uptime := s.uptime, fm := s.fm, portA := s.portA, portB := s.portB,
      eventsA := s.eventsA, eventsB := s.eventsB, channels := s.channels, sources := s.sources, outputs := s.outputs,
      audio := s.audio, aports := s.aports, refs := s.refs, flash := s.flash } = s) ∧
  (∀ (ch : Fin 32) (s t : State), exec (.audioportGetConfig ch) s = .next t →
    { t with fm := s.fm, portA := s.portA, portB := s.portB, channels := s.channels } = s) ∧
  (∀ (ch : Fin 32) (s t : State), exec (.audioportStatus ch) s = .next t →
    { t with fm := s.fm, portA := s.portA, portB := s.portB, channels := s.channels } = s) ∧
  (∀ (ch : Fin 32) (s t : State), exec (.audioportShare ch) s = .next t → { t with
      fm := s.fm, portA := s.portA, portB := s.portB, channels := s.channels, refs := s.refs, flash := s.flash } = s)
    ∧
  (∀ (ch : Fin 32) (s t : State), exec (.audioportCapture ch) s = .next t → { t with
      fm := s.fm, portA := s.portA, portB := s.portB, channels := s.channels, sources := s.sources,
      captures := s.captures, flash := s.flash } = s) ∧
  (∀ (ch : Fin 32) (s t : State), exec (.audioportCaptureStatus ch) s = .next t →
    { t with fm := s.fm, portA := s.portA, portB := s.portB, channels := s.channels } = s) ∧
  (∀ (p : Fin 16) (bclks : Nat) (frame : List (BitVec 24)) (s t : State), exec (.audioPortFrame p bclks frame) s =
    .next t → { t with
      free := s.free, now := s.now, uptime := s.uptime, fm := s.fm, portA := s.portA, portB := s.portB,
      eventsA := s.eventsA, eventsB := s.eventsB, channels := s.channels, sources := s.sources, outputs := s.outputs,
      audio := s.audio, aports := s.aports, refs := s.refs } = s) ∧
  (∀ (p : Fin 16) (s t : State), exec (.portClockLoss p) s = .next t → { t with
      free := s.free, now := s.now, uptime := s.uptime, fm := s.fm, portA := s.portA, portB := s.portB,
      eventsA := s.eventsA, eventsB := s.eventsB, channels := s.channels, sources := s.sources, outputs := s.outputs,
      audio := s.audio, aports := s.aports, refs := s.refs } = s) ∧
  (∀ (p : Fin 16) (ppm : Int) (bclkKhz : Nat) (whole : Bool) (s t : State), exec (.portRateUpdate p ppm bclkKhz whole)
    s = .next t → { t with
      portA := s.portA, portB := s.portB, eventsA := s.eventsA, eventsB := s.eventsB, sources := s.sources,
      audio := s.audio, aports := s.aports } = s) ∧
  (∀ (p : Fin 16) (ps : Int) (s t : State), exec (.alignMeasure p ps) s = .next t → { t with aports := s.aports } = s)
    ∧
  (∀ (p : Fin 16) (s t : State), exec (.afsAbsent p) s = .next t → { t with aports := s.aports } = s) ∧
  (∀ (i : Fin 16) (start : Nat) (samples : List (BitVec 24)) (s t : State), exec (.captureBlock i start samples) s =
    .next t → { t with
      portA := s.portA, portB := s.portB, eventsA := s.eventsA, eventsB := s.eventsB, captures := s.captures } = s)

/-- Frame: what the REFERENCE and NET rows leave unchanged. What the REFERENCE and NET rows leave alone, row by row.
The parts are the fields of the model's State; what a row may write within them is stated by the completion
statements. -/
def Obligations.ReferenceAndNetRowsFrame : Prop :=
  (∀ (ch : Fin 32) (s t : State), exec (.referenceConfig ch) s = .next t → { t with
      free := s.free, now := s.now, uptime := s.uptime, fm := s.fm, portA := s.portA, portB := s.portB,
      eventsA := s.eventsA, eventsB := s.eventsB, channels := s.channels, sources := s.sources, outputs := s.outputs,
      audio := s.audio, aports := s.aports, refs := s.refs, netPorts := s.netPorts, flash := s.flash } = s) ∧
  (∀ (ch : Fin 32) (s t : State), exec (.referenceGetConfig ch) s = .next t →
    { t with fm := s.fm, portA := s.portA, portB := s.portB, channels := s.channels } = s) ∧
  (∀ (ch : Fin 32) (s t : State), exec (.referenceStatus ch) s = .next t →
    { t with fm := s.fm, portA := s.portA, portB := s.portB, channels := s.channels } = s) ∧
  (∀ (ch : Fin 32) (s t : State), exec (.referenceInput ch) s = .next t → { t with
      free := s.free, now := s.now, uptime := s.uptime, fm := s.fm, portA := s.portA, portB := s.portB,
      eventsA := s.eventsA, eventsB := s.eventsB, channels := s.channels, sources := s.sources, outputs := s.outputs,
      audio := s.audio, aports := s.aports, refs := s.refs, netPorts := s.netPorts, flash := s.flash } = s) ∧
  (∀ (ch : Fin 32) (s t : State), exec (.referenceInputStatus ch) s = .next t →
    { t with fm := s.fm, portA := s.portA, portB := s.portB, channels := s.channels } = s) ∧
  (∀ (ch : Fin 32) (s t : State), exec (.referenceTimeSource ch) s = .next t → { t with
      free := s.free, now := s.now, uptime := s.uptime, fm := s.fm, portA := s.portA, portB := s.portB,
      eventsA := s.eventsA, eventsB := s.eventsB, channels := s.channels, sources := s.sources, outputs := s.outputs,
      audio := s.audio, aports := s.aports, refs := s.refs, netPorts := s.netPorts, flash := s.flash } = s) ∧
  (∀ (ch : Fin 32) (s t : State), exec (.referenceClkout ch) s = .next t → { t with
      fm := s.fm, portA := s.portA, portB := s.portB, channels := s.channels, refs := s.refs, flash := s.flash } = s)
    ∧
  (∀ (k : Fin 2) (s t : State), exec (.clkoutStarted k) s = .next t →
    { t with fm := s.fm, channels := s.channels, refs := s.refs } = s) ∧
  (∀ (facts : List LoopFact) (s t : State), exec (.servoTick facts) s = .next t → { t with
      free := s.free, now := s.now, uptime := s.uptime, fm := s.fm, portA := s.portA, portB := s.portB,
      eventsA := s.eventsA, eventsB := s.eventsB, channels := s.channels, sources := s.sources, outputs := s.outputs,
      audio := s.audio, aports := s.aports, refs := s.refs, netPorts := s.netPorts } = s) ∧
  (∀ (f : CandidateFacts) (s t : State), exec (.candidateQualityChange f) s = .next t → { t with
      portA := s.portA, portB := s.portB, eventsA := s.eventsA, eventsB := s.eventsB, refs := s.refs } = s) ∧
  (∀ (p : Fin 4) (f : CandidateFacts) (s t : State), exec (.ptpMessage p f) s = .next t →
    { t with refs := s.refs, netPorts := s.netPorts } = s) ∧
  (∀ (e : Fin 8) (k : Fin 8) (s t : State), exec (.wtrExpired e k) s = .next t → { t with
      free := s.free, portA := s.portA, portB := s.portB, eventsA := s.eventsA, eventsB := s.eventsB,
      outputs := s.outputs, audio := s.audio, aports := s.aports, refs := s.refs } = s) ∧
  (∀ (e : Fin 8) (s t : State), exec (.holdoverExpired e) s = .next t → { t with
      portA := s.portA, portB := s.portB, eventsA := s.eventsA, eventsB := s.eventsB, refs := s.refs } = s) ∧
  (∀ (ch : Fin 32) (s t : State), exec (.netPortConfig ch) s = .next t → { t with
      free := s.free, fm := s.fm, portA := s.portA, portB := s.portB, eventsA := s.eventsA, eventsB := s.eventsB,
      channels := s.channels, lanes := s.lanes, sources := s.sources, store := s.store, routes := s.routes,
      contexts := s.contexts, tables := s.tables, profiles := s.profiles, tableChanges := s.tableChanges,
      audio := s.audio, refs := s.refs, netPorts := s.netPorts, flows := s.flows, adit := s.adit, flash := s.flash,
      domains := s.domains } = s) ∧
  (∀ (ch : Fin 32) (s t : State), exec (.netPortGetConfig ch) s = .next t →
    { t with fm := s.fm, portA := s.portA, portB := s.portB, channels := s.channels } = s) ∧
  (∀ (ch : Fin 32) (s t : State), exec (.netPortStatus ch) s = .next t →
    { t with fm := s.fm, portA := s.portA, portB := s.portB, channels := s.channels } = s) ∧
  (∀ (ch : Fin 32) (s t : State), exec (.netRxFlow ch) s = .next t → { t with
      free := s.free, fm := s.fm, portA := s.portA, portB := s.portB, eventsA := s.eventsA, eventsB := s.eventsB,
      channels := s.channels, lanes := s.lanes, sources := s.sources, store := s.store, routes := s.routes,
      contexts := s.contexts, tables := s.tables, profiles := s.profiles, tableChanges := s.tableChanges,
      audio := s.audio, refs := s.refs, netPorts := s.netPorts, flows := s.flows, adit := s.adit, flash := s.flash,
      domains := s.domains } = s) ∧
  (∀ (ch : Fin 32) (s t : State), exec (.netTxFlow ch) s = .next t → { t with
      free := s.free, fm := s.fm, portA := s.portA, portB := s.portB, eventsA := s.eventsA, eventsB := s.eventsB,
      channels := s.channels, lanes := s.lanes, sources := s.sources, store := s.store, routes := s.routes,
      contexts := s.contexts, tables := s.tables, profiles := s.profiles, tableChanges := s.tableChanges,
      audio := s.audio, refs := s.refs, netPorts := s.netPorts, flows := s.flows, adit := s.adit, flash := s.flash,
      domains := s.domains } = s) ∧
  (∀ (ch : Fin 32) (s t : State), exec (.netFlowGet ch) s = .next t →
    { t with fm := s.fm, portA := s.portA, portB := s.portB, channels := s.channels } = s) ∧
  (∀ (ch : Fin 32) (s t : State), exec (.netFlowStatus ch) s = .next t →
    { t with fm := s.fm, portA := s.portA, portB := s.portB, channels := s.channels } = s) ∧
  (∀ (ch : Fin 32) (acked : Bool) (data : Bytes) (s t : State), exec (.netModuleIo ch acked data) s = .next t →
    { t with fm := s.fm, portA := s.portA, portB := s.portB, channels := s.channels } = s) ∧
  (∀ (i : Fin 64) (s t : State), exec (.flowSilent i) s = .next t → { t with
      free := s.free, fm := s.fm, portA := s.portA, portB := s.portB, eventsA := s.eventsA, eventsB := s.eventsB,
      channels := s.channels, lanes := s.lanes, sources := s.sources, store := s.store, triggers := s.triggers,
      routes := s.routes, audio := s.audio, refs := s.refs, netPorts := s.netPorts, flows := s.flows, adit := s.adit,
      domains := s.domains } = s) ∧
  (∀ (p : Fin 4) (goal : Fin 6) (fecCorrected : Nat) (fecUncorrected : Nat) (s t : State), exec (.netLink p goal
    fecCorrected fecUncorrected) s = .next t → { t with
      portA := s.portA, portB := s.portB, eventsA := s.eventsA, eventsB := s.eventsB, refs := s.refs,
      netPorts := s.netPorts } = s) ∧
  (∀ (p : Fin 4) (present : Bool) (int : Bool) (s t : State), exec (.qsfpPresentChange p present int) s = .next t →
    { t with
      portA := s.portA, portB := s.portB, eventsA := s.eventsA, eventsB := s.eventsB, refs := s.refs,
      netPorts := s.netPorts } = s) ∧
  (∀ (p : Fin 4) (m : NetPacket) (s t : State), exec (.packetReceived p m) s = .next t → { t with
      free := s.free, fm := s.fm, portA := s.portA, portB := s.portB, eventsA := s.eventsA, eventsB := s.eventsB,
      channels := s.channels, sources := s.sources, store := s.store, routes := s.routes, audio := s.audio,
      refs := s.refs, netPorts := s.netPorts, flows := s.flows, adit := s.adit, domains := s.domains } = s) ∧
  (∀ (i : Fin 64) (e : Nat) (row : Nat) (field2 : Bool) (supplied : Bool) (l : LineFacts) (s t : State), exec
    (.lineRelease i e row field2 supplied l) s = .next t → { t with
      free := s.free, fm := s.fm, portA := s.portA, portB := s.portB, eventsA := s.eventsA, eventsB := s.eventsB,
      channels := s.channels, lanes := s.lanes, sources := s.sources, store := s.store, triggers := s.triggers,
      routes := s.routes, audio := s.audio, refs := s.refs, netPorts := s.netPorts, flows := s.flows, adit := s.adit,
      domains := s.domains } = s) ∧
  (∀ (i : BitVec 8) (e : Nat) (s t : State), exec (.audioSampleWrite i e) s = .next t →
    { t with free := s.free, sources := s.sources, audio := s.audio, flows := s.flows } = s) ∧
  (∀ (kind : Fin 3) (i : BitVec 8) (leg : Fin 2) (live : Bool) (s t : State), exec (.netLeg kind i leg live) s = .next
    t → { t with
      free := s.free, portA := s.portA, portB := s.portB, eventsA := s.eventsA, eventsB := s.eventsB,
      sources := s.sources, audio := s.audio, flows := s.flows } = s) ∧
  (∀ (kind : Fin 3) (i : BitVec 8) (field2 : Bool) (late : Bool) (s t : State), exec (.packetSend kind i field2 late)
    s = .next t → { t with
      ready := s.ready, fm := s.fm, portA := s.portA, portB := s.portB, eventsA := s.eventsA, eventsB := s.eventsB,
      channels := s.channels, netPorts := s.netPorts, flows := s.flows } = s) ∧
  (∀ (p : Fin 4) (hop : BitVec 32) (s t : State), exec (.arpTimer p hop) s = .next t →
    { t with netPorts := s.netPorts } = s) ∧
  (∀ (p : Fin 4) (group : BitVec 32) (s t : State), exec (.igmpReportTimer p group) s = .next t →
    { t with netPorts := s.netPorts } = s) ∧
  (∀ (p : Fin 4) (m : OffloadPacket) (s t : State), exec (.offloadPacket p m) s = .next t →
    { t with netPorts := s.netPorts, domains := s.domains } = s) ∧
  (∀ (p : Fin 4) (addr : BitVec 32) (conflict : Bool) (s t : State), exec (.netAddress p addr conflict) s = .next t →
    { t with
      portA := s.portA, portB := s.portB, eventsA := s.eventsA, eventsB := s.eventsB, netPorts := s.netPorts } = s) ∧
  (∀ (p : Fin 4) (s t : State), exec (.netDrop p) s = .next t → { t with
      portA := s.portA, portB := s.portB, eventsA := s.eventsA, eventsB := s.eventsB, netPorts := s.netPorts,
      flows := s.flows } = s)

/-- Frame: what the LEDGER and POWER rows leave unchanged. What the LEDGER and POWER rows leave alone, row by row. The
parts are the fields of the model's State; what a row may write within them is stated by the completion statements. -/
def Obligations.PowerRowsFrame : Prop :=
  (∀ (ch : Fin 32) (s t : State), exec (.ledgerStatus ch) s = .next t → { t with
      fm := s.fm, portA := s.portA, portB := s.portB, channels := s.channels, rails := s.rails } = s) ∧
  (∀ (ch : Fin 32) (s t : State), exec (.ledgerCeiling ch) s = .next t → { t with
      fm := s.fm, portA := s.portA, portB := s.portB, channels := s.channels, flash := s.flash, rails := s.rails } =
    s) ∧
  (∀ (ch : Fin 32) (s t : State), exec (.ledgerDelta ch) s = .next t →
    { t with fm := s.fm, portA := s.portA, portB := s.portB, channels := s.channels } = s) ∧
  (∀ (ch : Fin 32) (s t : State), exec (.powerStatus ch) s = .next t →
    { t with fm := s.fm, portA := s.portA, portB := s.portB, channels := s.channels } = s) ∧
  (∀ (ch : Fin 32) (s t : State), exec (.powerDomain ch) s = .next t → { t with
      free := s.free, fm := s.fm, portA := s.portA, portB := s.portB, eventsA := s.eventsA, eventsB := s.eventsB,
      channels := s.channels, lanes := s.lanes, sources := s.sources, store := s.store, triggers := s.triggers,
      routes := s.routes, contexts := s.contexts, tables := s.tables, profiles := s.profiles,
      tableChanges := s.tableChanges, audio := s.audio, refs := s.refs, netPorts := s.netPorts, flows := s.flows,
      adit := s.adit, flash := s.flash, domains := s.domains } = s) ∧
  (∀ (ch : Fin 32) (s t : State), exec (.powerList ch) s = .next t →
    { t with fm := s.fm, portA := s.portA, portB := s.portB, channels := s.channels } = s) ∧
  (∀ (r : Fin 10) (sample : Nat) (s t : State), exec (.railSample r sample) s = .next t → { t with
      fm := s.fm, portA := s.portA, portB := s.portB, eventsA := s.eventsA, eventsB := s.eventsB,
      channels := s.channels, flash := s.flash, rails := s.rails } = s) ∧
  (∀ (d : BitVec 8) (s t : State), exec (.cut d) s = .next t → { t with
      free := s.free, fm := s.fm, portA := s.portA, portB := s.portB, eventsA := s.eventsA, eventsB := s.eventsB,
      channels := s.channels, lanes := s.lanes, sources := s.sources, store := s.store, triggers := s.triggers,
      routes := s.routes, ashlars := s.ashlars, audio := s.audio, refs := s.refs, netPorts := s.netPorts,
      adit := s.adit, island := s.island, fw := s.fw, domains := s.domains } = s) ∧
  (∀ (d : BitVec 8) (s t : State), exec (.domainOff d) s = .next t → { t with
      fm := s.fm, portA := s.portA, portB := s.portB, eventsA := s.eventsA, eventsB := s.eventsB,
      channels := s.channels, domains := s.domains } = s) ∧
  (∀ (d : BitVec 8) (s t : State), exec (.domainWake d) s = .next t → { t with
      free := s.free, fm := s.fm, portA := s.portA, portB := s.portB, eventsA := s.eventsA, eventsB := s.eventsB,
      channels := s.channels, lanes := s.lanes, sources := s.sources, store := s.store, triggers := s.triggers,
      routes := s.routes, outputs := s.outputs, ashlars := s.ashlars, audio := s.audio, refs := s.refs,
      netPorts := s.netPorts, adit := s.adit, domains := s.domains } = s) ∧
  (∀ (d : BitVec 8) (s t : State), exec (.quietCleared d) s = .next t → { t with
      free := s.free, fm := s.fm, portA := s.portA, portB := s.portB, eventsA := s.eventsA, eventsB := s.eventsB,
      channels := s.channels, sources := s.sources, audio := s.audio, domains := s.domains } = s)

/-- Frame: what the FW, reset, start-up and FUSE rows leave unchanged. What the FW, reset, start-up and FUSE rows
leave alone, row by row. The parts are the fields of the model's State; what a row may write within them is stated by
the completion statements. -/
def Obligations.FirmwareAndBootRowsFrame : Prop :=
  (∀ (ch : Fin 32) (s t : State), exec (.fwStatus ch) s = .next t →
    { t with fm := s.fm, portA := s.portA, portB := s.portB, channels := s.channels } = s) ∧
  (∀ (ch : Fin 32) (s t : State), exec (.fwInstall ch) s = .next t → { t with
      fm := s.fm, portA := s.portA, portB := s.portB, channels := s.channels, fw := s.fw, flash := s.flash } = s) ∧
  (∀ (flashOk : Bool) (s t : State), exec (.installDone flashOk) s = .next t → { t with
      fm := s.fm, portA := s.portA, portB := s.portB, eventsA := s.eventsA, eventsB := s.eventsB,
      channels := s.channels, fw := s.fw, flash := s.flash } = s) ∧
  (∀ (ch : Fin 32) (s t : State), exec (.fwActivate ch) s = .next t → t.fuses = s.fuses ∧ t.island = s.island ∧
    t.pwrWarn = s.pwrWarn ∧ t.gpioIn = s.gpioIn ∧ t.product = s.product ∧ t.pending = s.pending ∧ t.tap = s.tap) ∧
  (∀ (s t : State), exec .stageDone s = .next t → { t with
      free := s.free, updating := s.updating, fm := s.fm, portA := s.portA, portB := s.portB, eventsA := s.eventsA,
      eventsB := s.eventsB, crushers := s.crushers, contexts := s.contexts, conv := s.conv, audio := s.audio,
      fw := s.fw, flash := s.flash, domains := s.domains } = s) ∧
  (∀ (s t : State), exec .stageTimeout s = .next t → { t with
      free := s.free, updating := s.updating, fm := s.fm, portA := s.portA, portB := s.portB, eventsA := s.eventsA,
      eventsB := s.eventsB, crushers := s.crushers, contexts := s.contexts, conv := s.conv, audio := s.audio,
      fw := s.fw, flash := s.flash, domains := s.domains } = s) ∧
  (∀ (pass : Bool) (s t : State), exec (.selfCheckDone pass) s = .next t → { t with
      free := s.free, updating := s.updating, fm := s.fm, portA := s.portA, portB := s.portB, eventsA := s.eventsA,
      eventsB := s.eventsB, crushers := s.crushers, contexts := s.contexts, conv := s.conv, audio := s.audio,
      fw := s.fw, flash := s.flash, domains := s.domains } = s) ∧
  (∀ (s t : State), exec .healthWindowExpired s = .next t → t.fuses = s.fuses ∧ t.island = s.island ∧ t.pwrWarn =
    s.pwrWarn ∧ t.gpioIn = s.gpioIn ∧ t.product = s.product ∧ t.pending = s.pending ∧ t.tap = s.tap) ∧
  (∀ (ch : Fin 32) (s t : State), exec (.fwConfirm ch) s = .next t → { t with
      fm := s.fm, portA := s.portA, portB := s.portB, channels := s.channels, fw := s.fw, flash := s.flash,
      fuses := s.fuses } = s) ∧
  (∀ (ch : Fin 32) (s t : State), exec (.fwRevert ch) s = .next t → t.fuses = s.fuses ∧ t.island = s.island ∧
    t.pwrWarn = s.pwrWarn ∧ t.gpioIn = s.gpioIn ∧ t.product = s.product ∧ t.pending = s.pending ∧ t.tap = s.tap) ∧
  (∀ (ch : Fin 32) (s t : State), exec (.fwLock ch) s = .next t → { t with
      fm := s.fm, portA := s.portA, portB := s.portB, channels := s.channels, flash := s.flash } = s) ∧
  (∀ (ch : Fin 32) (s t : State), exec (.fwUnlock ch) s = .next t → { t with
      fm := s.fm, portA := s.portA, portB := s.portB, channels := s.channels, flash := s.flash } = s) ∧
  (∀ (ch : Fin 32) (s t : State), exec (.fwPolicy ch) s = .next t → { t with
      fm := s.fm, portA := s.portA, portB := s.portB, channels := s.channels, flash := s.flash } = s) ∧
  (∀ (ch : Fin 32) (s t : State), exec (.fwSave ch) s = .next t → { t with
      fm := s.fm, portA := s.portA, portB := s.portB, channels := s.channels, fw := s.fw, flash := s.flash } = s) ∧
  (∀ (s t : State), exec .settingsWrite s = .next t →
    { t with fm := s.fm, channels := s.channels, fw := s.fw, flash := s.flash } = s) ∧
  (∀ (ch : Fin 32) (s t : State), exec (.fwHostData ch) s = .next t → { t with
      fm := s.fm, portA := s.portA, portB := s.portB, channels := s.channels, store := s.store } = s) ∧
  (∀ (s t : State), exec .nresetFall s = .next t → t.fuses = s.fuses ∧ t.island = s.island ∧ t.pwrWarn = s.pwrWarn ∧
    t.gpioIn = s.gpioIn ∧ t.product = s.product ∧ t.pending = s.pending ∧ t.tap = s.tap ∧ (s.fw.install = none →
    t.flash = s.flash ∧ t.free = s.free)) ∧
  (∀ (bootSrc : Fin 4) (portA : Bool) (portB : Bool) (quad : Bool) (fuseSense : Bool) (s t : State), exec (.nresetRise
    bootSrc portA portB quad fuseSense) s = .next t → t.fuses = s.fuses ∧ t.island = s.island ∧ t.pwrWarn = s.pwrWarn
    ∧ t.gpioIn = s.gpioIn ∧ t.product = s.product ∧ t.pending = s.pending ∧ t.tap = s.tap ∧ (s.fw.install = none →
    t.flash = s.flash ∧ t.free = s.free)) ∧
  (∀ (loaderOk : Bool) (ok0 : Bool) (ok1 : Bool) (s t : State), exec (.loaderStart loaderOk ok0 ok1) s = .next t →
    { t with
      bootWait := s.bootWait, portA := s.portA, portB := s.portB, fw := s.fw, flash := s.flash } = s) ∧
  (∀ (derated : BitVec 32) (s t : State), exec (.ready derated) s = .next t → { t with
      readyAt := s.readyAt, uptime := s.uptime, ready := s.ready, fm := s.fm, portA := s.portA, portB := s.portB,
      eventsA := s.eventsA, eventsB := s.eventsB, channels := s.channels, store := s.store, routes := s.routes,
      crushers := s.crushers, contexts := s.contexts, tables := s.tables, profiles := s.profiles,
      tableChanges := s.tableChanges, outputs := s.outputs, island := s.island, fw := s.fw, flash := s.flash,
      rails := s.rails, domains := s.domains } = s) ∧
  (∀ (loaderOk : Bool) (ok0 : Bool) (ok1 : Bool) (s t : State), exec (.startBlockPoll loaderOk ok0 ok1) s = .next t →
    { t with
      bootWait := s.bootWait, portA := s.portA, portB := s.portB, store := s.store, fw := s.fw, flash := s.flash } =
    s) ∧
  (∀ (s t : State), exec .mainRailLoss s = .next t → t.fuses = s.fuses ∧ t.island = s.island ∧ t.pwrWarn = s.pwrWarn ∧
    t.gpioIn = s.gpioIn ∧ t.product = s.product ∧ t.pending = s.pending ∧ (s.fw.install = none → t.flash = s.flash ∧
    t.free = s.free)) ∧
  (∀ (s t : State), exec .tapReset s = .next t → { t with tap := s.tap } = s) ∧
  (∀ (level : Bool) (s t : State), exec (.pwrWarnChange level) s = .next t → { t with pwrWarn := s.pwrWarn } = s) ∧
  (∀ (ch : Fin 32) (s t : State), exec (.fuseRead ch) s = .next t →
    { t with fm := s.fm, portA := s.portA, portB := s.portB, channels := s.channels } = s) ∧
  (∀ (ch : Fin 32) (stuck : Option (Fin 4096)) (s t : State), exec (.fuseProgram ch stuck) s = .next t → { t with
      fm := s.fm, portA := s.portA, portB := s.portB, channels := s.channels, fuses := s.fuses } = s) ∧
  (∀ (ch : Fin 32) (s t : State), exec (.fuseLock ch) s = .next t → { t with
      fm := s.fm, portA := s.portA, portB := s.portB, channels := s.channels, fuses := s.fuses } = s) ∧
  (∀ (ch : Fin 32) (s t : State), exec (.fuseStandby ch) s = .next t → { t with
      ready := s.ready, fm := s.fm, portA := s.portA, portB := s.portB, eventsA := s.eventsA, eventsB := s.eventsB,
      channels := s.channels, island := s.island, fw := s.fw, flash := s.flash, domains := s.domains } = s) ∧
  (∀ (ch : Fin 32) (s t : State), exec (.fuseNote ch) s = .next t →
    { t with fm := s.fm, portA := s.portA, portB := s.portB, channels := s.channels } = s) ∧
  (∀ (s t : State), exec .mainPwrEnFall s = .next t → { t with island := s.island } = s) ∧
  (∀ (early : Bool) (s t : State), exec (.nwake early) s = .next t → { t with island := s.island } = s) ∧
  (∀ (s t : State), exec .vstbyApplied s = .next t → { t with island := s.island, tap := s.tap } = s) ∧
  (∀ (low : Bool) (s t : State), exec (.standby100MsMark low) s = .next t → { t with island := s.island } = s) ∧
  (∀ (s t : State), exec .vstbyLoss s = .next t → { t with island := s.island } = s)
end

