-- ==== Sys2Proof/Laws/Memory.lean ====
section
/-! SUPPORT. What tables and byte memories answer after a write, and that a write keeps the canonical form. -/

namespace Sys2Proof.Machine

/-! ### Tables -/

@[simp] theorem Tab.get_nil {α : Type} (k : Nat) (d : α) : Tab.get ([] : Tab α) k d = d := rfl

@[simp] theorem Tab.get_set_self {α : Type} (t : Tab α) (k : Nat) (v d : α) : Tab.get (Tab.set t k v) k d = v := by
  induction t with
  | nil => simp [Tab.set, Tab.get]
  | cons x t ih =>
    obtain ⟨j, w⟩ := x
    simp only [Tab.set]
    split
    · simp [Tab.get]
    · split
      · simp [Tab.get]
      · simp [Tab.get, *]

theorem Tab.get_set_other {α : Type} (t : Tab α) (k j : Nat) (v d : α) (h : j ≠ k) :
    Tab.get (Tab.set t k v) j d = Tab.get t j d := by
  induction t with
  | nil => simp only [Tab.set, Tab.get]; split <;> grind
  | cons x t ih => obtain ⟨i, w⟩ := x; grind [Tab.set, Tab.get]

theorem Tab.get_set {α : Type} (t : Tab α) (k j : Nat) (v d : α) :
    Tab.get (Tab.set t k v) j d = if j = k then v else Tab.get t j d := by
  split
  · next h => rw [h, Tab.get_set_self]
  · next h => exact Tab.get_set_other t k j v d h

/-! ### Byte memories -/

@[simp] theorem Memory.read_nil (a : Nat) : Memory.read [] a = memDefault := rfl

theorem Memory.wfFrom_mono (m : List Host.Cell) (a b : Nat) (h : a ≤ b) (w : Memory.wfFrom b m = true) :
    Memory.wfFrom a m = true := by
  cases m with
  | nil => rfl
  | cons x m => simp only [Memory.wfFrom, Bool.and_eq_true, decide_eq_true_eq] at w ⊢; exact ⟨⟨by omega, w.1.2⟩, w.2⟩

/-- Below the first listed address every byte is the default. -/
theorem Memory.read_below (m : List Host.Cell) (a lo : Nat) (w : Memory.wfFrom lo m = true) (h : a < lo) :
    Memory.read m a = memDefault := by
  cases m with
  | nil => rfl
  | cons x m =>
    simp only [Memory.wfFrom, Bool.and_eq_true, decide_eq_true_eq] at w
    simp only [Memory.read]
    split
    · omega
    · split
      · rfl
      · omega

theorem Memory.write_wfFrom (m : List Host.Cell) (a lo : Nat) (v : BitVec 8) (h : lo ≤ a)
    (w : Memory.wfFrom lo m = true) : Memory.wfFrom lo (Memory.write m a v) = true := by
  induction m generalizing lo with
  | nil => simp only [Memory.write]; split <;> simp_all [Memory.wfFrom]
  | cons x m ih =>
    obtain ⟨b, u⟩ := x
    simp only [Memory.wfFrom, Bool.and_eq_true, decide_eq_true_eq] at w
    simp only [Memory.write]
    split
    · split
      · exact Memory.wfFrom_mono _ _ _ (by omega) w.2
      · simp_all [Memory.wfFrom]
    · split
      · split
        · simp_all [Memory.wfFrom]
        · simp_all [Memory.wfFrom] <;> omega
      · have := ih (b + 1) (by omega) w.2
        simp_all [Memory.wfFrom]

theorem Memory.read_write_from (m : List Host.Cell) (a b lo : Nat) (v : BitVec 8) (w : Memory.wfFrom lo m = true) :
    Memory.read (Memory.write m a v) b = if b = a then v else Memory.read m b := by
  induction m generalizing lo with
  | nil => grind [Memory.write, Memory.read]
  | cons x m ih =>
    obtain ⟨c, u⟩ := x
    simp only [Memory.wfFrom, Bool.and_eq_true, decide_eq_true_eq] at w
    have k := ih (c + 1) w.2
    have e := fun i => Memory.read_below m i (c + 1) w.2
    grind [Memory.write, Memory.read]

/-- A write keeps the canonical form. -/
theorem Memory.write_wf (m : List Host.Cell) (a : Nat) (v : BitVec 8) (w : Memory.wf m = true) :
    Memory.wf (Memory.write m a v) = true := Memory.write_wfFrom m a 0 v (Nat.zero_le a) w

/-- A read after a write. -/
theorem Memory.read_write (m : List Host.Cell) (a b : Nat) (v : BitVec 8) (w : Memory.wf m = true) :
    Memory.read (Memory.write m a v) b = if b = a then v else Memory.read m b := Memory.read_write_from m a b 0 v w

theorem Memory.writeBytes_wf (m : List Host.Cell) (a : Nat) (l : Bytes) (w : Memory.wf m = true) :
    Memory.wf (Memory.writeBytes m a l) = true := by
  induction l generalizing m a with
  | nil => exact w
  | cons v l ih => exact ih _ _ (Memory.write_wf m a v w)

theorem Memory.read_writeBytes (m : List Host.Cell) (a b : Nat) (l : Bytes) (w : Memory.wf m = true) :
    Memory.read (Memory.writeBytes m a l) b = if a ≤ b ∧ b < a + l.length then l.getD (b - a) 0 else Memory.read m b := by
  induction l generalizing m a with
  | nil => simp only [Memory.writeBytes, List.length_nil]; rw [if_neg (by omega)]
  | cons v l ih =>
    simp only [Memory.writeBytes, List.length_cons]
    rw [ih _ _ (Memory.write_wf m a v w), Memory.read_write m a b v w]
    by_cases h : b = a
    · subst h; rw [if_neg (by omega), if_pos rfl, if_pos (by omega)]; simp
    · rw [if_neg h]
      by_cases k : a + 1 ≤ b ∧ b < a + 1 + l.length
      · rw [if_pos k, if_pos (by omega)]
        obtain ⟨n, rfl⟩ : ∃ n, b = a + 1 + n := ⟨b - (a + 1), by omega⟩
        rw [show a + 1 + n - a = n + 1 from by omega, show a + 1 + n - (a + 1) = n from by omega]; rfl
      · rw [if_neg k, if_neg (by omega)]

@[simp] theorem Memory.readBytes_length (m : List Host.Cell) (a n : Nat) : (Memory.readBytes m a n).length = n := by
  induction n generalizing a with
  | zero => rfl
  | succ n ih => simp [Memory.readBytes, ih]

theorem Memory.readBytes_congr (m m' : List Host.Cell) (a n : Nat)
    (h : ∀ i, a ≤ i → i < a + n → Memory.read m i = Memory.read m' i) : Memory.readBytes m a n = Memory.readBytes m' a n := by
  induction n generalizing a with
  | zero => rfl
  | succ n ih =>
    simp only [Memory.readBytes]
    rw [h a (by omega) (by omega), ih (a + 1) fun i h1 h2 => h i (by omega) (by omega)]

/-- A string of a memory, byte by byte. -/
theorem Memory.readBytes_eq (m : List Host.Cell) (a : Nat) (l : Bytes)
    (h : ∀ i, i < l.length → Memory.read m (a + i) = l.getD i 0) : Memory.readBytes m a l.length = l := by
  induction l generalizing a with
  | nil => rfl
  | cons v l ih =>
    simp only [List.length_cons, Memory.readBytes]
    rw [ih (a + 1) fun i hi => by
      have := h (i + 1) (by simpa using hi)
      rw [show a + 1 + i = a + (i + 1) from by omega, this]; rfl]
    rw [show Memory.read m a = v from by simpa using h 0 (by simp)]

/-- The string just written reads back. -/
theorem Memory.readBytes_writeBytes (m : List Host.Cell) (a : Nat) (l : Bytes) (w : Memory.wf m = true) :
    Memory.readBytes (Memory.writeBytes m a l) a l.length = l := by
  apply Memory.readBytes_eq
  intro i hi
  rw [Memory.read_writeBytes m a (a + i) l w, if_pos (by omega)]
  simp

/-- A string outside the bytes written reads as before. -/
theorem Memory.readBytes_writeBytes_apart (m : List Host.Cell) (a b n : Nat) (l : Bytes) (w : Memory.wf m = true)
    (h : b + n ≤ a ∨ a + l.length ≤ b) : Memory.readBytes (Memory.writeBytes m a l) b n = Memory.readBytes m b n := by
  apply Memory.readBytes_congr
  intro i h1 h2
  rw [Memory.read_writeBytes m a i l w, if_neg (by omega)]

/-! ### Byte strings -/

@[simp] theorem le_length (n v : Nat) : (le n v).length = n := by
  induction n generalizing v with
  | zero => rfl
  | succ n ih => simp [le, ih]

@[simp] theorem leInt_length (n : Nat) (v : Int) : (leInt n v).length = n := by simp [leInt]

@[simp] theorem zeros_length (n : Nat) : (zeros n).length = n := by simp [zeros]

@[simp] theorem sub_length (b : Bytes) (i n : Nat) : (sub b i n).length = n := by
  induction n generalizing i with
  | zero => rfl
  | succ n ih => simp [sub, ih]

/-- A field of the first part of a string. -/
theorem sub_append_left (a b : Bytes) (i n : Nat) (h : i + n ≤ a.length) : sub (a ++ b) i n = sub a i n := by
  induction n generalizing i with
  | zero => rfl
  | succ n ih =>
    simp only [sub]
    rw [ih (i + 1) (by omega), List.getD_eq_getElem?_getD, List.getD_eq_getElem?_getD, List.getElem?_append_left (by omega)]

/-- A field of the second part of a string. -/
theorem sub_append_right (a b : Bytes) (i n : Nat) (h : a.length ≤ i) : sub (a ++ b) i n = sub b (i - a.length) n := by
  induction n generalizing i with
  | zero => rfl
  | succ n ih =>
    simp only [sub]
    rw [ih (i + 1) (by omega), List.getD_eq_getElem?_getD, List.getD_eq_getElem?_getD, List.getElem?_append_right h,
      show i + 1 - a.length = i - a.length + 1 from by omega]

/-- A whole string. -/
theorem sub_self (a : Bytes) : sub a 0 a.length = a := by
  have h : ∀ (l p : Bytes), sub (p ++ l) p.length l.length = l := by
    intro l
    induction l with
    | nil => intro p; rfl
    | cons v l ih =>
      intro p
      simp only [List.length_cons, sub]
      have e := ih (p ++ [v])
      simp only [List.append_assoc, List.cons_append, List.nil_append, List.length_append, List.length_cons,
        List.length_nil, Nat.zero_add] at e
      rw [e]; simp
  simpa using h a []

theorem sub_prefix (a b : Bytes) (n : Nat) (h : a.length = n) : sub (a ++ b) 0 n = a := by
  subst h; rw [sub_append_left _ _ _ _ (by omega), sub_self]

end Sys2Proof.Machine
end

