-- ==== Sys2Proof/Laws/Command.lean ====
section
/-! SUPPORT. What the shared operations of a command's life do: taking its doorbell, its verdict, its response. -/

namespace Sys2Proof.Machine

@[simp] theorem getChan_setChan_self (s : State) (c : Nat) (v : Channel) : getChan (setChan s c v) c = v := by
  simp [getChan, setChan]

theorem getChan_setChan_other (s : State) (c k : Nat) (v : Channel) (h : k ≠ c) :
    getChan (setChan s c v) k = getChan s k := Tab.get_set_other _ _ _ _ _ h

theorem getChan_of_channels {s t : State} (h : t.channels = s.channels) (k : Nat) : getChan t k = getChan s k := by
  simp [getChan, h]

@[simp] theorem setPort_channels (s : State) (p : Port) (v : PortState) : (setPort s p v).channels = s.channels := by
  cases p <;> rfl

@[simp] theorem setPort_fm (s : State) (p : Port) (v : PortState) : (setPort s p v).fm = s.fm := by cases p <;> rfl

@[simp] theorem setMsix_channels (s : State) (p : Port) (v : Nat) (e : MsixEntry) :
    (setMsix s p v e).channels = s.channels := by simp [setMsix]

@[simp] theorem emit_channels (s : State) (p : Port) (x : ToHost) : (emit s p x).channels = s.channels := by simp [emit]

@[simp] theorem sendMsix_channels (s : State) (p : Port) (v : Nat) : (sendMsix s p v).channels = s.channels := by
  unfold sendMsix; simp only; split
  · rfl
  · split <;> simp

@[simp] theorem setMsix_fm (s : State) (p : Port) (v : Nat) (e : MsixEntry) : (setMsix s p v e).fm = s.fm := by
  simp [setMsix]

@[simp] theorem emit_fm (s : State) (p : Port) (x : ToHost) : (emit s p x).fm = s.fm := by simp [emit]

@[simp] theorem sendMsix_fm (s : State) (p : Port) (v : Nat) : (sendMsix s p v).fm = s.fm := by
  unfold sendMsix; simp only; split
  · rfl
  · split <;> simp

@[simp] theorem takeDoorbell_channels (s : State) (ch : Nat) : (takeDoorbell s ch).channels = s.channels := rfl

/-- Writing a port's state. -/
theorem setPort_shape (s : State) (p : Port) (v : PortState) :
    ∃ a b, setPort s p v = { s with portA := a, portB := b } := by
  cases p
  · exact ⟨v, s.portB, rfl⟩
  · exact ⟨s.portA, v, rfl⟩

/-- Signalling a vector changes the ports alone. -/
theorem sendMsix_shape (s : State) (p : Port) (v : Nat) :
    ∃ a b, sendMsix s p v = { s with portA := a, portB := b } := by
  unfold sendMsix setMsix emit; simp only; split
  · exact ⟨s.portA, s.portB, rfl⟩
  · split <;> exact setPort_shape _ _ _

/-! ### The verdict -/

/-- An admitted command runs. -/
theorem runCommand_admitted (d : CommandDef) (ch : Fin 32) (s : State) (h : Admitted d ch s) :
    runCommand d ch s = respond (takeDoorbell s ch) (readCmd s ch) (d.run (takeDoorbell s ch) (readCmd s ch)) := by
  obtain ⟨h1, h2, h3, h4⟩ := h
  unfold runCommand
  rw [if_neg (by simp [h1])]
  simp only [h2, h3, h4]
  simp

/-- A refused command is answered with its refusal record. -/
theorem runCommand_refused (d : CommandDef) (ch : Fin 32) (s : State) (n : Nack) (h : Refused d ch s n) :
    runCommand d ch s =
      complete (refusalMark d (takeDoorbell s ch) (readCmd s ch)) ch
        (nackReply (takeDoorbell s ch) (nameObject d (takeDoorbell s ch) (readCmd s ch) n)) := by
  obtain ⟨h1, h2⟩ := h
  unfold runCommand
  rw [if_neg (by simp [h1])]
  simp only [h2]

/-- A row does nothing to a channel that does not hold its command, or whose turn has not come. -/
theorem runCommand_idle (d : CommandDef) (ch : Nat) (s : State) (h : takeable s ch d.opcode = false) :
    runCommand d ch s = s := by
  unfold runCommand; rw [if_pos (by simp [h])]

/-! ### The response -/

theorem replyBytes_length (o q : Nat) (r : Reply) : (replyBytes o q r).length = 32 + r.payload.length := by
  simp [replyBytes]; omega

theorem complete_chan (s : State) (ch : Nat) (r : Reply) :
    getChan (complete s ch r) ch =
      { bufWrite (getChan s ch) 0
          (replyBytes (u16 (bufRead (getChan s ch) 0 32) 0) (u32 (bufRead (getChan s ch) 0 32) 4) r) with
        lastSeq := u32 (bufRead (getChan s ch) 0 32) 4, state := .done, written := false, waiting := none } := by
  unfold complete
  simp only
  split
  · rw [getChan_of_channels (sendMsix_channels _ _ _)]; simp
  · simp

theorem complete_other (s : State) (ch k : Nat) (r : Reply) (h : k ≠ ch) :
    getChan (complete s ch r) k = getChan s k := by
  unfold complete
  simp only
  split
  · rw [getChan_of_channels (sendMsix_channels _ _ _)]; simp [getChan_setChan_other _ _ _ _ h]
  · simp [getChan_setChan_other _ _ _ _ h]

/-- Completing a command changes its channel and what the ports sent, and nothing else. -/
theorem complete_shape (s : State) (ch : Nat) (r : Reply) :
    ∃ c a b, complete s ch r = { s with channels := c, portA := a, portB := b } := by
  unfold complete
  simp only
  split
  · obtain ⟨a, b, h⟩ := sendMsix_shape _ _ _
    rw [h]; exact ⟨_, a, b, rfl⟩
  · exact ⟨_, s.portA, s.portB, rfl⟩

@[simp] theorem complete_fm (s : State) (ch : Nat) (r : Reply) : (complete s ch r).fm = s.fm := by
  unfold complete
  simp only
  split <;> simp [setChan]

/-- The response of a command whose channel still holds its header. -/
theorem complete_answered (s t : State) (ch : Nat) (r : Reply) (w : Memory.wf (getChan s ch).buffer = true)
    (hb : (getChan t ch).buffer = (getChan s ch).buffer) :
    Answered (complete t ch r) (readCmd s ch) r.status r.gen r.effect r.payload := by
  refine ⟨?_, ?_, ?_, ?_⟩
  · simp [readCmd, complete_chan]
  · simp [readCmd, complete_chan]
  · simp [readCmd, complete_chan, bufRead, hb]
  · have e : bufRead (getChan t ch) 0 32 = bufRead (getChan s ch) 0 32 := by simp [bufRead, hb]
    have := Memory.readBytes_writeBytes (getChan s ch).buffer 0
      (replyBytes (u16 (bufRead (getChan s ch) 0 32) 0) (u32 (bufRead (getChan s ch) 0 32) 4) r) w
    rw [replyBytes_length] at this
    simp only [readCmd, complete_chan, e]
    simpa [bufRead, bufWrite, hb, replyBytes] using this

theorem recordDelta_same (s : State) : recordDelta s s = s := by simp [recordDelta]

theorem getChan_wf (s : State) (h : MemoryCanonical s) (ch : Nat) : Memory.wf (getChan s ch).buffer = true := by
  have key : ∀ (t : Tab Channel), (∀ p ∈ t, Memory.wf p.2.buffer = true) → Memory.wf (Tab.get t ch {}).buffer = true := by
    intro t
    induction t with
    | nil => intro _; rfl
    | cons x t ih =>
      obtain ⟨j, v⟩ := x
      intro ht
      have hv : Memory.wf v.buffer = true := ht (j, v) (by simp)
      have hd : Memory.wf ({} : Channel).buffer = true := rfl
      have hr := ih fun q hq => ht q (by simp [hq])
      simp only [Tab.get]
      split
      · exact hv
      · split
        · exact hd
        · exact hr
  exact key s.channels h.2.2.2

/-- A command that only reads is answered with its payload, and nothing else changes. -/
theorem reads_report (d : CommandDef) (ch : Fin 32) (s : State) (p : Bytes) (w : MemoryCanonical s)
    (h : Admitted d ch s) (r : d.run (takeDoorbell s ch) (readCmd s ch) = readDone (takeDoorbell s ch) p) :
    Unmoved s (runCommand d ch s) ch ∧ Answered (runCommand d ch s) (readCmd s ch) stOK s.fm.gen none p := by
  rw [runCommand_admitted d ch s h, r]
  simp only [respond, readDone, recordDelta_same, readCmd, Nat.min_eq_left (Nat.le_succ _)]
  refine ⟨⟨fun k hk => ?_, ?_⟩, ?_⟩
  · rw [complete_other _ _ _ _ hk]; rfl
  · generalize hx : complete (takeDoorbell s ch) ch _ = x
    obtain ⟨c, a, b, e⟩ := hx ▸ complete_shape (takeDoorbell s ch) ch _
    rw [e]; rfl
  · exact complete_answered s _ ch { status := stOK, gen := (takeDoorbell s ch).fm.gen, effect := none, payload := p }
      (getChan_wf s w ch) rfl

end Sys2Proof.Machine
end

