-- ==== Sys2Proof/Machine/Electrical.lean ====
section
/-! DEFINITION. Figures of the electrical and thermal chapter (23) that say when the block stays inside its operating conditions:
rails and their sequence, input levels, jitter, and cooling. The block checks none of them (the chapter's opening words), and
no command reads them; voltages are in millivolts (log entry 95). -/

namespace Sys2Proof.Machine

/-- The rails of R577: the ten of the ledger in RAIL order, and VSTBY. -/
inductive Supply where
  | vddCore | vddSram | avddLane | avttLane | vddMem | vppMem | vddio18 | vddio33 | avddPll | avddRef | vstby
  deriving DecidableEq, Repr

def supplies : List Supply :=
  [.vddCore, .vddSram, .avddLane, .avttLane, .vddMem, .vppMem, .vddio18, .vddio33, .avddPll, .avddRef, .vstby]

/-- RAIL number of a rail of the ledger. -/
def supplyRail : Supply → Option Nat
  | .vddCore => some 0
  | .vddSram => some 1
  | .avddLane => some 2
  | .avttLane => some 3
  | .vddMem => some 4
  | .vppMem => some 5
  | .vddio18 => some 6
  | .vddio33 => some 7
  | .avddPll => some 8
  | .avddRef => some 9
  | .vstby => none

/-- Nominal voltage, tolerance in per cent, and ripple pk-pk (R577). -/
def supplyFigures : Supply → Nat × Nat × Nat
  | .vddCore => (750, 3, 15)
  | .vddSram => (800, 3, 15)
  | .avddLane => (900, 3, 10)
  | .avttLane => (1200, 5, 20)
  | .vddMem => (1100, 3, 20)
  | .vppMem => (1800, 5, 40)
  | .vddio18 => (1800, 5, 50)
  | .vddio33 => (3300, 5, 80)
  | .avddPll => (900, 3, 5)
  | .avddRef => (1800, 3, 5)
  | .vstby => (1800, 5, 50)

/-- Whether a voltage at the sense point lies within tolerance (R577). -/
def withinTolerance (x : Supply) (v : Nat) : Bool :=
  let n := (supplyFigures x).1
  let t := (supplyFigures x).2.1
  decide (n * (100 - t) ≤ 100 * v) && decide (100 * v ≤ n * (100 + t))

/-- Highest voltage a rail may ever see (R575). -/
def absoluteMax : Supply → Nat
  | .vddCore => 900
  | .vddSram => 950
  | .avddLane => 1050
  | .avddPll => 1050
  | .avttLane => 1400
  | .vddMem => 1300
  | .vddio33 => 3800
  | _ => 2100

/-- The group a rail is applied in (R578). -/
def supplyGroup : Supply → Nat
  | .vstby => 1
  | .vddCore => 2
  | .vddSram => 2
  | .avddPll => 2
  | .avddLane => 3
  | .avttLane => 3
  | .vddMem => 3
  | .vppMem => 3
  | _ => 4

/-- Whether a rail may start with the voltages as they are (R578): every rail of an earlier group has reached 90 % of nominal. -/
def mayStart (v : Supply → Nat) (x : Supply) : Bool :=
  supplies.all fun y => decide (supplyGroup x ≤ supplyGroup y) || decide (9 * (supplyFigures y).1 ≤ 10 * v y)

/-- VPP_MEM is never below VDD_MEM − 0.1 V (R578). -/
def memoryRailsOk (v : Supply → Nat) : Bool := decide (v .vddMem ≤ v .vppMem + 100)

/-- Whether a rail may be removed with the voltages as they are (R579): every rail of a later group has fallen below 10 %. -/
def mayFall (v : Supply → Nat) (x : Supply) : Bool :=
  supplies.all fun y => decide (supplyGroup y ≤ supplyGroup x) || decide (10 * v y < (supplyFigures y).1)

/-- Whether nRESET may rise (R578): every rail within tolerance. -/
def mayRelease (v : Supply → Nat) : Bool := supplies.all fun x => withinTolerance x (v x)

/-- The logic level of an input on VDDIO18 (R582); none between the thresholds, where the level is not specified. -/
def lvcmosLevel (v : Nat) : Option Bool := if 1170 ≤ v then some true else if v ≤ 630 then some false else none

/-- The level of a QSFP input and of an I²C ball, on VDDIO33 (R582). -/
def qsfpLevel (v : Nat) : Option Bool := if 2000 ≤ v then some true else if v ≤ 800 then some false else none
def i2cLevel (v : Nat) : Option Bool := if 2310 ≤ v then some true else if v ≤ 990 then some false else none

/-- Whether a swing at an enabled SDI receiver counts as a signal (R586): above 80 mV it does, below 40 mV it does not, and
between them the figure leaves it open. -/
def signalPresent (mv : Nat) : Option Bool := if 80 < mv then some true else if mv < 40 then some false else none

/-- Unit interval of a rate code in tenths of a picosecond (R584). -/
def unitInterval : Nat → Nat
  | 1 => 37040
  | 2 => 6734
  | 3 => 3367
  | 4 => 1684
  | 5 => 842
  | _ => 0

/-- A1 in tenths of a unit interval, and f_c in hertz, of the tolerated jitter (R587); A2 is 0.4 UI at every code. -/
def jitterFigures : Nat → Nat × Nat
  | 1 => (100, 5000)
  | 2 => (100, 250000)
  | 3 => (200, 500000)
  | 4 => (400, 1000000)
  | 5 => (800, 2000000)
  | _ => (0, 0)

/-- Whether a receive lane tolerates sinusoidal jitter of `j` tenths of a unit interval at `f` hertz (R587): j is at most
min(A1, A2 max(1, f_c / f)), for f from 10 Hz to a 150th of the rate. -/
def jitterTolerated (code f j : Nat) : Bool :=
  decide (10 ≤ f) && decide (150 * f * unitInterval code ≤ 10000000000000) && decide (j ≤ (jitterFigures code).1) &&
  decide (j * f ≤ 4 * max f (jitterFigures code).2)

/-- Swing of a transmitter in millivolts and de-emphasis in tenths of a decibel, by their codes (R114, R584). -/
def swingMv (code : Nat) : Nat := 400 + 40 * code
def deemphasis (code : Nat) : Nat := 5 * code

/-- Highest and lowest junction temperature of a grade in degrees (R576). -/
def junctionRange (extended : Bool) : Int × Int := if extended then (-40, 105) else (0, 100)

/-- Whether a heatsink of `theta` thousandths of a degree a watt holds the junction at 100 degrees or below (R592, R593): `mw` is the
worst-case power, `air` the intake and `tim` the interface, and the lid-to-junction figure is 50 thousandths. -/
def coolingOk (mw air tim theta : Nat) : Bool := decide (mw * (50 + tim + theta) ≤ (100 - air) * 1000000)

/-- Power by which a card that carries any configuration is designed, in milliwatts (R581). -/
def designPower : Nat := 98000

/-- The ball grid against the body, in hundredths of a millimetre (R594): distance of a row or a column from the body's centre. -/
def ballOffset (i : Nat) : Int := 80 * ((i : Int) - 31)

end Sys2Proof.Machine
end

