-- ==== Sys2Proof/Machine/Links.lean ====
section
/-! DEFINITION. Clocks, lanes and links as the manual fixes them: the core clocks and the edge domains (R28, R29), the rates of
the lane sets (R104, R119, R120), the Haul Road's ports (R209), what a control port supports and how its engines share the link
(R39, R599), the line coding of the Adit (R444, R445), and the figures of clocks and interfaces (R381, R583, R589, R591). No
command reads them (log entry 95). -/

namespace Sys2Proof.Machine

/-! ### Clocks (R28, R29) -/

/-- The core clocks, all divided from the root PLL. -/
inductive CoreClock where
  | ctl | pix | mem | haul | per | slow
  deriving DecidableEq, Repr

def coreClocks : List CoreClock := [.ctl, .pix, .mem, .haul, .per, .slow]

/-- The root PLL in megahertz: 48 times the 50 MHz oscillator. -/
def rootMHz : Nat := 48 * 50

/-- Division from the root. -/
def coreDivider : CoreClock → Nat
  | .ctl => 2
  | .pix => 3
  | .mem => 3
  | .haul => 6
  | .per => 12
  | .slow => 48

def coreMHz (c : CoreClock) : Nat := rootMHz / coreDivider c

/-- Whether a core clock has a rising edge in root cycle `n`; at every multiple of 48, each 20 ns, all of them have. -/
def risesAt (c : CoreClock) (n : Nat) : Bool := n % coreDivider c == 0

/-- The edge domains, each crossed into the core inside its own block. -/
inductive EdgeDomain where
  | sdiReceive | sdiTransmit | netReceive | netTransmit | aditReceive | aditTransmit | pcie | memoryPhy | audioPort | reference
  | jtag
  deriving DecidableEq, Repr

def edgeDomains : List EdgeDomain :=
  [.sdiReceive, .sdiTransmit, .netReceive, .netTransmit, .aditReceive, .aditTransmit, .pcie, .memoryPhy, .audioPort, .reference,
    .jtag]

def edgeCount : EdgeDomain → Nat
  | .sdiReceive => 128
  | .sdiTransmit => 16
  | .netReceive => 16
  | .netTransmit => 4
  | .aditReceive => 8
  | .aditTransmit => 1
  | .pcie => 2
  | .memoryPhy => 2
  | .audioPort => 16
  | .reference => 4
  | .jtag => 1

/-- The clock domains of the device: the core's and those at its edge. -/
def clockDomains : Nat := coreClocks.length + (edgeDomains.map edgeCount).foldl (· + ·) 0

/-! ### Rates of the lanes (R104, R105, R119, R120) -/

/-- Nominal bit rate of an SDI rate code in bit/s of the integer family, 0 where there is none. -/
def sdiBitRate : Nat → Nat
  | 1 => 270000000
  | 2 => 1485000000
  | 3 => 2970000000
  | 4 => 5940000000
  | 5 => 11880000000
  | _ => 0

/-- The rate of a code in a family, as a fraction of bit/s; 270 Mb/s has no /1.001 family. -/
def familyBitRate (code : Nat) (fractional : Bool) : Nat × Nat :=
  if fractional && code != 1 then (1000 * sdiBitRate code, 1001) else (sdiBitRate code, 1)

/-- The rate at which the lane's serialiser runs: 270 Mb/s goes at 2.97 Gb/s with each bit repeated eleven times. -/
def serialBitRate (code : Nat) : Nat := if code = 1 then 11 * sdiBitRate 1 else sdiBitRate code

/-- Network and Adit lanes, in bit/s. -/
def netBitRate : Nat := 25781250000
def aditBitRate : Nat := 28125000000

/-- Greatest loss of a channel in tenths of a decibel: a board's SDI trace at 5.94 GHz, a passive copper cable with its board at
12.89 GHz, and a channel between two devices at 14.0625 GHz. -/
def sdiChannelLoss : Nat := 100
def copperChannelLoss : Nat := 180
def aditChannelLoss : Nat := 160

/-! ### The Haul Road (R209) -/

/-- The port that carries an object: an SDI input or output, or a tie line in its direction; no other port carries routes. -/
def haulPort (i : Nat) : Option Nat :=
  if isSdi i then some i else if isTie i then some (128 + (i - 0x100)) else none

/-- The links of a gang routed whole: link m of the source feeds link m of the destination. -/
def gangLinks (src d : Nat) : List (Nat × Nat) := (List.range 4).map fun m => (src + m, d + m)

/-! ### A control port's link (R39, R599) -/

/-- What each port supports. -/
structure LinkSupport where
  speeds : List Nat := [2500, 5000, 8000, 16000]
  widths : List Nat := [1, 2]
  laneReversal : Bool := true
  payloads : List Nat := [128, 256, 512]
  readRequest : Nat := 4096
  outstanding : Nat := 128
  msixVectors : Nat := 32
  msi : Bool := false
  intx : Bool := false
  aspmL1 : Bool := true
  aspmL0s : Bool := false
  noSoftReset : Bool := false
  errorReporting : Bool := true
  functionReset : Bool := true
  sriov : Bool := false
  ats : Bool := false
  pasid : Bool := false
  tenBitTags : Bool := false
  atomics : Bool := false
  deriving DecidableEq, Repr

/-- Bytes of the next transfer of a job with `rest` bytes to go: a memory write of at most the negotiated payload toward the host,
a read request of at most the greatest read request from it. -/
def transferBytes (toHost : Bool) (payload request rest : Nat) : Nat := min rest (if toHost then payload else request)

/-- The engine whose transfer is next in one direction, round robin from the one after `last`, among those that `run` there. -/
def nextEngine (last : Nat) (run : Nat → Bool) : Option Nat :=
  ((List.range 8).map fun i => (last + 1 + i) % 8).find? run

/-- Whether an engine of a port runs a job in a direction. -/
def runsToward (s : State) (p : Port) (toHost : Bool) (e : Nat) : Bool :=
  (getEngine s p e).job.any fun j => jobToHost j == toHost

/-! ### The Adit's line coding (R444, R445) -/

/-- Line bits of a period, its data blocks of 64 bits, and the bit positions left for stuffing and fill. -/
def periodBits : Nat := 1065600
def periodBlocks : Nat := 16384
def stuffRoom : Nat := 16960

/-- The alignment marker of a lane. -/
def markerWord (lane logical epoch : Nat) (aligned : Bool) (seed : BitVec 31) : Nat :=
  0xADE7 * 2 ^ 48 + lane % 8 * 2 ^ 45 + logical % 8 * 2 ^ 42 + epoch % 256 * 2 ^ 34 + flag aligned * 2 ^ 33 + seed.toNat

/-- One step of the scrambler x³¹ + x²⁸ + 1: the bit it adds, and its next state (PRESUMED, log entry 132). -/
def scramblerStep (seed : BitVec 31) : Bool × BitVec 31 :=
  let b := seed.getLsbD 30 ^^ seed.getLsbD 27
  (b, (seed <<< 1) ||| (if b then 1 else 0))

/-- Scrambled bits of a period's data; the receiver's descrambler is the same. -/
def scramble (seed : BitVec 31) : List Bool → List Bool
  | [] => []
  | x :: t => (x ^^ (scramblerStep seed).1) :: scramble (scramblerStep seed).2 t

/-- Line bits of scrambled data: after any run of 63 equal line bits one bit of the complement. `last` is the line bit before, and
`run` how many equal bits end with it. -/
def stuff (last : Bool) (run : Nat) : List Bool → List Bool
  | [] => []
  | x :: t =>
    let n := if x = last then run + 1 else 1
    if n = 63 then x :: (!x) :: stuff (!x) 1 t else x :: stuff x n t

/-- What the receiver makes of line bits: the bit after a run of 63 is removed. -/
def unstuff (last : Bool) (run : Nat) : List Bool → List Bool
  | [] => []
  | x :: t => if run = 63 then unstuff x 1 t else x :: unstuff x (if x = last then run + 1 else 1) t

/-- Fill bits alternate, starting with the complement of the last data bit. -/
def fill (last : Bool) : Nat → List Bool
  | 0 => []
  | n + 1 => (!last) :: fill (!last) n

/-- The line bits of a period after its marker. -/
def periodLine (seed : BitVec 31) (data : List Bool) : List Bool :=
  let body := stuff false 0 (scramble seed data)
  body ++ fill (body.getLastD false) (64 * periodBlocks + stuffRoom - body.length)

/-! ### Figures (R381, R583, R589, R591) -/

/-- A figure with its least and greatest value; none where the table gives none. -/
structure Limits where
  least : Option Int := none
  greatest : Option Int := none
  deriving DecidableEq, Repr

def Limits.holds (l : Limits) (v : Int) : Bool := l.least.all (decide <| · ≤ v) && l.greatest.all (decide <| v ≤ ·)

/-- Serial audio at the balls (R381): kilohertz for the clock, tenths of a nanosecond for times, per cent for duty cycles. -/
inductive AudioFigure where
  | bclkSlave | bclkHalf | setup | hold | valid | bclkDuty | bclkJitter | fsShare
  deriving DecidableEq, Repr

def audioLimits : AudioFigure → Limits
  | .bclkSlave => { greatest := some 25000 }
  | .bclkHalf => { least := some 180 }
  | .setup => { least := some 40 }
  | .hold => { least := some 40 }
  | .valid => { least := some (-20), greatest := some 80 }
  | .bclkDuty => { least := some 45, greatest := some 55 }
  | .bclkJitter => { greatest := some 5 }
  | .fsShare => { least := some (-20), greatest := some 20 }

/-- Clock inputs and outputs (R583): parts per million, femtoseconds of jitter, per cent of duty, picoseconds of transition,
nanoseconds of a word clock's half, millivolts. -/
inductive ClockFigure where
  | oscError | oscJitter | oscDuty | oscEdge | extDuty | wordHalf | clkoutSwing | clkoutOffset | clkoutEdge | clkoutDuty
  | clkoutJitterVideo | clkoutJitterOther
  deriving DecidableEq, Repr

def clockLimits : ClockFigure → Limits
  | .oscError => { least := some (-20), greatest := some 20 }
  | .oscJitter => { greatest := some 500 }
  | .oscDuty => { least := some 45, greatest := some 55 }
  | .oscEdge => { greatest := some 2000 }
  | .extDuty => { least := some 40, greatest := some 60 }
  | .wordHalf => { least := some 5000 }
  | .clkoutSwing => { least := some 250, greatest := some 450 }
  | .clkoutOffset => { least := some 1125, greatest := some 1375 }
  | .clkoutEdge => { greatest := some 400 }
  | .clkoutDuty => { least := some 45, greatest := some 55 }
  | .clkoutJitterVideo => { greatest := some 800 }
  | .clkoutJitterOther => { greatest := some 2000 }

/-- Adit lanes (R589): hundredths of a unit interval, picoseconds, millivolts, tenths of a decibel, nanoseconds. -/
inductive AditFigure where
  | txJitter | txDeterministic | txEdge | eyeHeight | sineTolerance | jitterTolerance | channelLoss | returnLoss | skew
  deriving DecidableEq, Repr

def aditLimits : AditFigure → Limits
  | .txJitter => { greatest := some 30 }
  | .txDeterministic => { greatest := some 15 }
  | .txEdge => { greatest := some 14 }
  | .eyeHeight => { least := some 30 }
  | .sineTolerance => { least := some 10 }
  | .jitterTolerance => { least := some 55 }
  | .channelLoss => { greatest := some 160 }
  | .returnLoss => { least := some 80 }
  | .skew => { greatest := some 200 }

/-- Analog reference inputs (R591): millivolts, hundredths of an effective bit, kilohertz, hundredths of an ohm, tenths of a decibel,
per cent of amplitude, picoseconds. -/
inductive ReferenceFigure where
  | inputRange | effectiveBits | bandwidth | termination | returnLoss | syncAmplitude | dcOffset | noiseTriLevel | noiseBiLevel
  | delay
  deriving DecidableEq, Repr

def referenceLimits : ReferenceFigure → Limits
  | .inputRange => { least := some (-1000), greatest := some 1000 }
  | .effectiveBits => { least := some 1020 }
  | .bandwidth => { least := some 40000 }
  | .termination => { least := some 7425, greatest := some 7575 }
  | .returnLoss => { least := some 300 }
  | .syncAmplitude => { least := some 50, greatest := some 150 }
  | .dcOffset => { least := some (-500), greatest := some 500 }
  | .noiseTriLevel => { greatest := some 800 }
  | .noiseBiLevel => { greatest := some 1500 }
  | .delay => { least := some (-2000), greatest := some 2000 }

end Sys2Proof.Machine
end

