-- ==== Sys2Proof/Laws/Links.lean ====
section
/-! SUPPORT. The line coding of the Adit (R444): what the receiver makes of a line is what the transmitter put on it. -/

namespace Sys2Proof.Machine

theorem scramble_scramble (seed : BitVec 31) (l : List Bool) : scramble seed (scramble seed l) = l := by
  induction l generalizing seed with
  | nil => rfl
  | cons x t ih => simp [scramble, ih]

theorem unstuff_stuff (last : Bool) (run : Nat) (l : List Bool) (h : run < 63) : unstuff last run (stuff last run l) = l := by
  induction l generalizing last run with
  | nil => rfl
  | cons x t ih =>
    have hr : run ≠ 63 := Nat.ne_of_lt h
    by_cases hx : x = last
    · subst hx
      by_cases hn : run = 62
      · subst hn
        simp [stuff, unstuff, ih (!x) 1 (by omega)]
      · simp [stuff, unstuff, hr, hn, ih x (run + 1) (by omega)]
    · simp [stuff, unstuff, hr, hx, ih x 1 (by omega)]

/-- Fill bits fill the place they are given (R444). -/
theorem fill_length (last : Bool) (n : Nat) : (fill last n).length = n := by
  induction n generalizing last with
  | zero => rfl
  | succ n ih => simp [fill, ih]

end Sys2Proof.Machine
end

