-- ==== Sys2Proof/Laws/State.lean ====
section
/-! SUPPORT. What each update of the state leaves: the fields it does not name, and the other units of the table it writes.
One lemma per update lists its fields; simp takes the parts one by one. -/

namespace Sys2Proof.Machine

/-! ### The fields an update leaves alone -/

@[simp] theorem setSem_frame (s : State) (c : Nat) (v : SemCell) :
    (setSem s c v).pending = s.pending ∧ (setSem s c v).free = s.free ∧ (setSem s c v).now = s.now ∧
    (setSem s c v).readyAt = s.readyAt ∧ (setSem s c v).uptime = s.uptime ∧ (setSem s c v).product = s.product ∧
    (setSem s c v).ready = s.ready ∧ (setSem s c v).updating = s.updating ∧ (setSem s c v).pwrWarn = s.pwrWarn ∧
    (setSem s c v).bootWait = s.bootWait ∧ (setSem s c v).fuseSense = s.fuseSense ∧ (setSem s c v).fm = s.fm ∧
    (setSem s c v).portA = s.portA ∧ (setSem s c v).portB = s.portB ∧ (setSem s c v).eventsA = s.eventsA ∧
    (setSem s c v).eventsB = s.eventsB ∧ (setSem s c v).tieFirst = s.tieFirst ∧
    (setSem s c v).channels = s.channels ∧ (setSem s c v).lanes = s.lanes ∧ (setSem s c v).groups = s.groups ∧
    (setSem s c v).sources = s.sources ∧ (setSem s c v).store = s.store ∧ (setSem s c v).captures = s.captures ∧
    (setSem s c v).triggers = s.triggers ∧ (setSem s c v).gpioEdge = s.gpioEdge ∧ (setSem s c v).routes = s.routes ∧
    (setSem s c v).salvos = s.salvos ∧ (setSem s c v).finishedSalvos = s.finishedSalvos ∧
    (setSem s c v).nextSalvo = s.nextSalvo ∧ (setSem s c v).tally = s.tally ∧ (setSem s c v).gpioIn = s.gpioIn ∧
    (setSem s c v).gpioOut = s.gpioOut ∧ (setSem s c v).spares = s.spares ∧ (setSem s c v).crushers = s.crushers ∧
    (setSem s c v).contexts = s.contexts ∧ (setSem s c v).conv = s.conv ∧ (setSem s c v).tables = s.tables ∧
    (setSem s c v).profiles = s.profiles ∧ (setSem s c v).tableChanges = s.tableChanges ∧
    (setSem s c v).outputs = s.outputs ∧ (setSem s c v).ashlars = s.ashlars ∧ (setSem s c v).audio = s.audio ∧
    (setSem s c v).aports = s.aports ∧ (setSem s c v).refs = s.refs ∧ (setSem s c v).netPorts = s.netPorts ∧
    (setSem s c v).flows = s.flows ∧ (setSem s c v).adit = s.adit ∧ (setSem s c v).island = s.island ∧
    (setSem s c v).fw = s.fw ∧ (setSem s c v).flash = s.flash ∧ (setSem s c v).rails = s.rails ∧
    (setSem s c v).domains = s.domains ∧ (setSem s c v).fuses = s.fuses ∧ (setSem s c v).tap = s.tap := by
  repeat' (first | rfl | constructor)

@[simp] theorem setChan_frame (s : State) (c : Nat) (v : Channel) :
    (setChan s c v).pending = s.pending ∧ (setChan s c v).free = s.free ∧ (setChan s c v).now = s.now ∧
    (setChan s c v).readyAt = s.readyAt ∧ (setChan s c v).uptime = s.uptime ∧ (setChan s c v).product = s.product ∧
    (setChan s c v).ready = s.ready ∧ (setChan s c v).updating = s.updating ∧ (setChan s c v).pwrWarn = s.pwrWarn ∧
    (setChan s c v).bootWait = s.bootWait ∧ (setChan s c v).fuseSense = s.fuseSense ∧ (setChan s c v).fm = s.fm ∧
    (setChan s c v).portA = s.portA ∧ (setChan s c v).portB = s.portB ∧ (setChan s c v).eventsA = s.eventsA ∧
    (setChan s c v).eventsB = s.eventsB ∧ (setChan s c v).tieFirst = s.tieFirst ∧ (setChan s c v).sems = s.sems ∧
    (setChan s c v).lanes = s.lanes ∧ (setChan s c v).groups = s.groups ∧ (setChan s c v).sources = s.sources ∧
    (setChan s c v).store = s.store ∧ (setChan s c v).captures = s.captures ∧ (setChan s c v).triggers = s.triggers ∧
    (setChan s c v).gpioEdge = s.gpioEdge ∧ (setChan s c v).routes = s.routes ∧ (setChan s c v).salvos = s.salvos ∧
    (setChan s c v).finishedSalvos = s.finishedSalvos ∧ (setChan s c v).nextSalvo = s.nextSalvo ∧
    (setChan s c v).tally = s.tally ∧ (setChan s c v).gpioIn = s.gpioIn ∧ (setChan s c v).gpioOut = s.gpioOut ∧
    (setChan s c v).spares = s.spares ∧ (setChan s c v).crushers = s.crushers ∧
    (setChan s c v).contexts = s.contexts ∧ (setChan s c v).conv = s.conv ∧ (setChan s c v).tables = s.tables ∧
    (setChan s c v).profiles = s.profiles ∧ (setChan s c v).tableChanges = s.tableChanges ∧
    (setChan s c v).outputs = s.outputs ∧ (setChan s c v).ashlars = s.ashlars ∧ (setChan s c v).audio = s.audio ∧
    (setChan s c v).aports = s.aports ∧ (setChan s c v).refs = s.refs ∧ (setChan s c v).netPorts = s.netPorts ∧
    (setChan s c v).flows = s.flows ∧ (setChan s c v).adit = s.adit ∧ (setChan s c v).island = s.island ∧
    (setChan s c v).fw = s.fw ∧ (setChan s c v).flash = s.flash ∧ (setChan s c v).rails = s.rails ∧
    (setChan s c v).domains = s.domains ∧ (setChan s c v).fuses = s.fuses ∧ (setChan s c v).tap = s.tap := by
  repeat' (first | rfl | constructor)

@[simp] theorem setLane_frame (s : State) (i : Nat) (v : Lane) :
    (setLane s i v).pending = s.pending ∧ (setLane s i v).free = s.free ∧ (setLane s i v).now = s.now ∧
    (setLane s i v).readyAt = s.readyAt ∧ (setLane s i v).uptime = s.uptime ∧ (setLane s i v).product = s.product ∧
    (setLane s i v).ready = s.ready ∧ (setLane s i v).updating = s.updating ∧ (setLane s i v).pwrWarn = s.pwrWarn ∧
    (setLane s i v).bootWait = s.bootWait ∧ (setLane s i v).fuseSense = s.fuseSense ∧ (setLane s i v).fm = s.fm ∧
    (setLane s i v).portA = s.portA ∧ (setLane s i v).portB = s.portB ∧ (setLane s i v).eventsA = s.eventsA ∧
    (setLane s i v).eventsB = s.eventsB ∧ (setLane s i v).tieFirst = s.tieFirst ∧ (setLane s i v).sems = s.sems ∧
    (setLane s i v).channels = s.channels ∧ (setLane s i v).groups = s.groups ∧ (setLane s i v).sources = s.sources ∧
    (setLane s i v).store = s.store ∧ (setLane s i v).captures = s.captures ∧ (setLane s i v).triggers = s.triggers ∧
    (setLane s i v).gpioEdge = s.gpioEdge ∧ (setLane s i v).routes = s.routes ∧ (setLane s i v).salvos = s.salvos ∧
    (setLane s i v).finishedSalvos = s.finishedSalvos ∧ (setLane s i v).nextSalvo = s.nextSalvo ∧
    (setLane s i v).tally = s.tally ∧ (setLane s i v).gpioIn = s.gpioIn ∧ (setLane s i v).gpioOut = s.gpioOut ∧
    (setLane s i v).spares = s.spares ∧ (setLane s i v).crushers = s.crushers ∧
    (setLane s i v).contexts = s.contexts ∧ (setLane s i v).conv = s.conv ∧ (setLane s i v).tables = s.tables ∧
    (setLane s i v).profiles = s.profiles ∧ (setLane s i v).tableChanges = s.tableChanges ∧
    (setLane s i v).outputs = s.outputs ∧ (setLane s i v).ashlars = s.ashlars ∧ (setLane s i v).audio = s.audio ∧
    (setLane s i v).aports = s.aports ∧ (setLane s i v).refs = s.refs ∧ (setLane s i v).netPorts = s.netPorts ∧
    (setLane s i v).flows = s.flows ∧ (setLane s i v).adit = s.adit ∧ (setLane s i v).island = s.island ∧
    (setLane s i v).fw = s.fw ∧ (setLane s i v).flash = s.flash ∧ (setLane s i v).rails = s.rails ∧
    (setLane s i v).domains = s.domains ∧ (setLane s i v).fuses = s.fuses ∧ (setLane s i v).tap = s.tap := by
  repeat' (first | rfl | constructor)

@[simp] theorem setGroup_frame (s : State) (i : Nat) (v : TxGroup) :
    (setGroup s i v).pending = s.pending ∧ (setGroup s i v).free = s.free ∧ (setGroup s i v).now = s.now ∧
    (setGroup s i v).readyAt = s.readyAt ∧ (setGroup s i v).uptime = s.uptime ∧
    (setGroup s i v).product = s.product ∧ (setGroup s i v).ready = s.ready ∧
    (setGroup s i v).updating = s.updating ∧ (setGroup s i v).pwrWarn = s.pwrWarn ∧
    (setGroup s i v).bootWait = s.bootWait ∧ (setGroup s i v).fuseSense = s.fuseSense ∧ (setGroup s i v).fm = s.fm ∧
    (setGroup s i v).portA = s.portA ∧ (setGroup s i v).portB = s.portB ∧ (setGroup s i v).eventsA = s.eventsA ∧
    (setGroup s i v).eventsB = s.eventsB ∧ (setGroup s i v).tieFirst = s.tieFirst ∧ (setGroup s i v).sems = s.sems ∧
    (setGroup s i v).channels = s.channels ∧ (setGroup s i v).lanes = s.lanes ∧
    (setGroup s i v).sources = s.sources ∧ (setGroup s i v).store = s.store ∧
    (setGroup s i v).captures = s.captures ∧ (setGroup s i v).triggers = s.triggers ∧
    (setGroup s i v).gpioEdge = s.gpioEdge ∧ (setGroup s i v).routes = s.routes ∧
    (setGroup s i v).salvos = s.salvos ∧ (setGroup s i v).finishedSalvos = s.finishedSalvos ∧
    (setGroup s i v).nextSalvo = s.nextSalvo ∧ (setGroup s i v).tally = s.tally ∧
    (setGroup s i v).gpioIn = s.gpioIn ∧ (setGroup s i v).gpioOut = s.gpioOut ∧ (setGroup s i v).spares = s.spares ∧
    (setGroup s i v).crushers = s.crushers ∧ (setGroup s i v).contexts = s.contexts ∧
    (setGroup s i v).conv = s.conv ∧ (setGroup s i v).tables = s.tables ∧ (setGroup s i v).profiles = s.profiles ∧
    (setGroup s i v).tableChanges = s.tableChanges ∧ (setGroup s i v).outputs = s.outputs ∧
    (setGroup s i v).ashlars = s.ashlars ∧ (setGroup s i v).audio = s.audio ∧ (setGroup s i v).aports = s.aports ∧
    (setGroup s i v).refs = s.refs ∧ (setGroup s i v).netPorts = s.netPorts ∧ (setGroup s i v).flows = s.flows ∧
    (setGroup s i v).adit = s.adit ∧ (setGroup s i v).island = s.island ∧ (setGroup s i v).fw = s.fw ∧
    (setGroup s i v).flash = s.flash ∧ (setGroup s i v).rails = s.rails ∧ (setGroup s i v).domains = s.domains ∧
    (setGroup s i v).fuses = s.fuses ∧ (setGroup s i v).tap = s.tap := by
  repeat' (first | rfl | constructor)

@[simp] theorem setSource_frame (s : State) (i : Nat) (v : Source) :
    (setSource s i v).pending = s.pending ∧ (setSource s i v).free = s.free ∧ (setSource s i v).now = s.now ∧
    (setSource s i v).readyAt = s.readyAt ∧ (setSource s i v).uptime = s.uptime ∧
    (setSource s i v).product = s.product ∧ (setSource s i v).ready = s.ready ∧
    (setSource s i v).updating = s.updating ∧ (setSource s i v).pwrWarn = s.pwrWarn ∧
    (setSource s i v).bootWait = s.bootWait ∧ (setSource s i v).fuseSense = s.fuseSense ∧
    (setSource s i v).fm = s.fm ∧ (setSource s i v).portA = s.portA ∧ (setSource s i v).portB = s.portB ∧
    (setSource s i v).eventsA = s.eventsA ∧ (setSource s i v).eventsB = s.eventsB ∧
    (setSource s i v).tieFirst = s.tieFirst ∧ (setSource s i v).sems = s.sems ∧
    (setSource s i v).channels = s.channels ∧ (setSource s i v).lanes = s.lanes ∧
    (setSource s i v).groups = s.groups ∧ (setSource s i v).store = s.store ∧
    (setSource s i v).captures = s.captures ∧ (setSource s i v).triggers = s.triggers ∧
    (setSource s i v).gpioEdge = s.gpioEdge ∧ (setSource s i v).routes = s.routes ∧
    (setSource s i v).salvos = s.salvos ∧ (setSource s i v).finishedSalvos = s.finishedSalvos ∧
    (setSource s i v).nextSalvo = s.nextSalvo ∧ (setSource s i v).tally = s.tally ∧
    (setSource s i v).gpioIn = s.gpioIn ∧ (setSource s i v).gpioOut = s.gpioOut ∧
    (setSource s i v).spares = s.spares ∧ (setSource s i v).crushers = s.crushers ∧
    (setSource s i v).contexts = s.contexts ∧ (setSource s i v).conv = s.conv ∧ (setSource s i v).tables = s.tables ∧
    (setSource s i v).profiles = s.profiles ∧ (setSource s i v).tableChanges = s.tableChanges ∧
    (setSource s i v).outputs = s.outputs ∧ (setSource s i v).ashlars = s.ashlars ∧
    (setSource s i v).audio = s.audio ∧ (setSource s i v).aports = s.aports ∧ (setSource s i v).refs = s.refs ∧
    (setSource s i v).netPorts = s.netPorts ∧ (setSource s i v).flows = s.flows ∧ (setSource s i v).adit = s.adit ∧
    (setSource s i v).island = s.island ∧ (setSource s i v).fw = s.fw ∧ (setSource s i v).flash = s.flash ∧
    (setSource s i v).rails = s.rails ∧ (setSource s i v).domains = s.domains ∧ (setSource s i v).fuses = s.fuses ∧
    (setSource s i v).tap = s.tap := by
  repeat' (first | rfl | constructor)

@[simp] theorem setRoute_frame (s : State) (d : Nat) (v : Route) :
    (setRoute s d v).pending = s.pending ∧ (setRoute s d v).free = s.free ∧ (setRoute s d v).now = s.now ∧
    (setRoute s d v).readyAt = s.readyAt ∧ (setRoute s d v).uptime = s.uptime ∧
    (setRoute s d v).product = s.product ∧ (setRoute s d v).ready = s.ready ∧
    (setRoute s d v).updating = s.updating ∧ (setRoute s d v).pwrWarn = s.pwrWarn ∧
    (setRoute s d v).bootWait = s.bootWait ∧ (setRoute s d v).fuseSense = s.fuseSense ∧ (setRoute s d v).fm = s.fm ∧
    (setRoute s d v).portA = s.portA ∧ (setRoute s d v).portB = s.portB ∧ (setRoute s d v).eventsA = s.eventsA ∧
    (setRoute s d v).eventsB = s.eventsB ∧ (setRoute s d v).tieFirst = s.tieFirst ∧ (setRoute s d v).sems = s.sems ∧
    (setRoute s d v).channels = s.channels ∧ (setRoute s d v).lanes = s.lanes ∧ (setRoute s d v).groups = s.groups ∧
    (setRoute s d v).sources = s.sources ∧ (setRoute s d v).store = s.store ∧
    (setRoute s d v).captures = s.captures ∧ (setRoute s d v).triggers = s.triggers ∧
    (setRoute s d v).gpioEdge = s.gpioEdge ∧ (setRoute s d v).salvos = s.salvos ∧
    (setRoute s d v).finishedSalvos = s.finishedSalvos ∧ (setRoute s d v).nextSalvo = s.nextSalvo ∧
    (setRoute s d v).tally = s.tally ∧ (setRoute s d v).gpioIn = s.gpioIn ∧ (setRoute s d v).gpioOut = s.gpioOut ∧
    (setRoute s d v).spares = s.spares ∧ (setRoute s d v).crushers = s.crushers ∧
    (setRoute s d v).contexts = s.contexts ∧ (setRoute s d v).conv = s.conv ∧ (setRoute s d v).tables = s.tables ∧
    (setRoute s d v).profiles = s.profiles ∧ (setRoute s d v).tableChanges = s.tableChanges ∧
    (setRoute s d v).outputs = s.outputs ∧ (setRoute s d v).ashlars = s.ashlars ∧ (setRoute s d v).audio = s.audio ∧
    (setRoute s d v).aports = s.aports ∧ (setRoute s d v).refs = s.refs ∧ (setRoute s d v).netPorts = s.netPorts ∧
    (setRoute s d v).flows = s.flows ∧ (setRoute s d v).adit = s.adit ∧ (setRoute s d v).island = s.island ∧
    (setRoute s d v).fw = s.fw ∧ (setRoute s d v).flash = s.flash ∧ (setRoute s d v).rails = s.rails ∧
    (setRoute s d v).domains = s.domains ∧ (setRoute s d v).fuses = s.fuses ∧ (setRoute s d v).tap = s.tap := by
  repeat' (first | rfl | constructor)

@[simp] theorem setSalvo_frame (s : State) (i : Nat) (v : Salvo) :
    (setSalvo s i v).pending = s.pending ∧ (setSalvo s i v).free = s.free ∧ (setSalvo s i v).now = s.now ∧
    (setSalvo s i v).readyAt = s.readyAt ∧ (setSalvo s i v).uptime = s.uptime ∧
    (setSalvo s i v).product = s.product ∧ (setSalvo s i v).ready = s.ready ∧
    (setSalvo s i v).updating = s.updating ∧ (setSalvo s i v).pwrWarn = s.pwrWarn ∧
    (setSalvo s i v).bootWait = s.bootWait ∧ (setSalvo s i v).fuseSense = s.fuseSense ∧ (setSalvo s i v).fm = s.fm ∧
    (setSalvo s i v).portA = s.portA ∧ (setSalvo s i v).portB = s.portB ∧ (setSalvo s i v).eventsA = s.eventsA ∧
    (setSalvo s i v).eventsB = s.eventsB ∧ (setSalvo s i v).tieFirst = s.tieFirst ∧ (setSalvo s i v).sems = s.sems ∧
    (setSalvo s i v).channels = s.channels ∧ (setSalvo s i v).lanes = s.lanes ∧ (setSalvo s i v).groups = s.groups ∧
    (setSalvo s i v).sources = s.sources ∧ (setSalvo s i v).store = s.store ∧
    (setSalvo s i v).captures = s.captures ∧ (setSalvo s i v).triggers = s.triggers ∧
    (setSalvo s i v).gpioEdge = s.gpioEdge ∧ (setSalvo s i v).routes = s.routes ∧
    (setSalvo s i v).finishedSalvos = s.finishedSalvos ∧ (setSalvo s i v).nextSalvo = s.nextSalvo ∧
    (setSalvo s i v).tally = s.tally ∧ (setSalvo s i v).gpioIn = s.gpioIn ∧ (setSalvo s i v).gpioOut = s.gpioOut ∧
    (setSalvo s i v).spares = s.spares ∧ (setSalvo s i v).crushers = s.crushers ∧
    (setSalvo s i v).contexts = s.contexts ∧ (setSalvo s i v).conv = s.conv ∧ (setSalvo s i v).tables = s.tables ∧
    (setSalvo s i v).profiles = s.profiles ∧ (setSalvo s i v).tableChanges = s.tableChanges ∧
    (setSalvo s i v).outputs = s.outputs ∧ (setSalvo s i v).ashlars = s.ashlars ∧ (setSalvo s i v).audio = s.audio ∧
    (setSalvo s i v).aports = s.aports ∧ (setSalvo s i v).refs = s.refs ∧ (setSalvo s i v).netPorts = s.netPorts ∧
    (setSalvo s i v).flows = s.flows ∧ (setSalvo s i v).adit = s.adit ∧ (setSalvo s i v).island = s.island ∧
    (setSalvo s i v).fw = s.fw ∧ (setSalvo s i v).flash = s.flash ∧ (setSalvo s i v).rails = s.rails ∧
    (setSalvo s i v).domains = s.domains ∧ (setSalvo s i v).fuses = s.fuses ∧ (setSalvo s i v).tap = s.tap := by
  repeat' (first | rfl | constructor)

@[simp] theorem setCrusher_frame (s : State) (k : Nat) (v : Crusher) :
    (setCrusher s k v).pending = s.pending ∧ (setCrusher s k v).free = s.free ∧ (setCrusher s k v).now = s.now ∧
    (setCrusher s k v).readyAt = s.readyAt ∧ (setCrusher s k v).uptime = s.uptime ∧
    (setCrusher s k v).product = s.product ∧ (setCrusher s k v).ready = s.ready ∧
    (setCrusher s k v).updating = s.updating ∧ (setCrusher s k v).pwrWarn = s.pwrWarn ∧
    (setCrusher s k v).bootWait = s.bootWait ∧ (setCrusher s k v).fuseSense = s.fuseSense ∧
    (setCrusher s k v).fm = s.fm ∧ (setCrusher s k v).portA = s.portA ∧ (setCrusher s k v).portB = s.portB ∧
    (setCrusher s k v).eventsA = s.eventsA ∧ (setCrusher s k v).eventsB = s.eventsB ∧
    (setCrusher s k v).tieFirst = s.tieFirst ∧ (setCrusher s k v).sems = s.sems ∧
    (setCrusher s k v).channels = s.channels ∧ (setCrusher s k v).lanes = s.lanes ∧
    (setCrusher s k v).groups = s.groups ∧ (setCrusher s k v).sources = s.sources ∧
    (setCrusher s k v).store = s.store ∧ (setCrusher s k v).captures = s.captures ∧
    (setCrusher s k v).triggers = s.triggers ∧ (setCrusher s k v).gpioEdge = s.gpioEdge ∧
    (setCrusher s k v).routes = s.routes ∧ (setCrusher s k v).salvos = s.salvos ∧
    (setCrusher s k v).finishedSalvos = s.finishedSalvos ∧ (setCrusher s k v).nextSalvo = s.nextSalvo ∧
    (setCrusher s k v).tally = s.tally ∧ (setCrusher s k v).gpioIn = s.gpioIn ∧
    (setCrusher s k v).gpioOut = s.gpioOut ∧ (setCrusher s k v).spares = s.spares ∧
    (setCrusher s k v).contexts = s.contexts ∧ (setCrusher s k v).conv = s.conv ∧
    (setCrusher s k v).tables = s.tables ∧ (setCrusher s k v).profiles = s.profiles ∧
    (setCrusher s k v).tableChanges = s.tableChanges ∧ (setCrusher s k v).outputs = s.outputs ∧
    (setCrusher s k v).ashlars = s.ashlars ∧ (setCrusher s k v).audio = s.audio ∧
    (setCrusher s k v).aports = s.aports ∧ (setCrusher s k v).refs = s.refs ∧
    (setCrusher s k v).netPorts = s.netPorts ∧ (setCrusher s k v).flows = s.flows ∧
    (setCrusher s k v).adit = s.adit ∧ (setCrusher s k v).island = s.island ∧ (setCrusher s k v).fw = s.fw ∧
    (setCrusher s k v).flash = s.flash ∧ (setCrusher s k v).rails = s.rails ∧
    (setCrusher s k v).domains = s.domains ∧ (setCrusher s k v).fuses = s.fuses ∧
    (setCrusher s k v).tap = s.tap := by
  repeat' (first | rfl | constructor)

@[simp] theorem setConv_frame (s : State) (d : Nat) (v : ConvCounts) :
    (setConv s d v).pending = s.pending ∧ (setConv s d v).free = s.free ∧ (setConv s d v).now = s.now ∧
    (setConv s d v).readyAt = s.readyAt ∧ (setConv s d v).uptime = s.uptime ∧ (setConv s d v).product = s.product ∧
    (setConv s d v).ready = s.ready ∧ (setConv s d v).updating = s.updating ∧ (setConv s d v).pwrWarn = s.pwrWarn ∧
    (setConv s d v).bootWait = s.bootWait ∧ (setConv s d v).fuseSense = s.fuseSense ∧ (setConv s d v).fm = s.fm ∧
    (setConv s d v).portA = s.portA ∧ (setConv s d v).portB = s.portB ∧ (setConv s d v).eventsA = s.eventsA ∧
    (setConv s d v).eventsB = s.eventsB ∧ (setConv s d v).tieFirst = s.tieFirst ∧ (setConv s d v).sems = s.sems ∧
    (setConv s d v).channels = s.channels ∧ (setConv s d v).lanes = s.lanes ∧ (setConv s d v).groups = s.groups ∧
    (setConv s d v).sources = s.sources ∧ (setConv s d v).store = s.store ∧ (setConv s d v).captures = s.captures ∧
    (setConv s d v).triggers = s.triggers ∧ (setConv s d v).gpioEdge = s.gpioEdge ∧
    (setConv s d v).routes = s.routes ∧ (setConv s d v).salvos = s.salvos ∧
    (setConv s d v).finishedSalvos = s.finishedSalvos ∧ (setConv s d v).nextSalvo = s.nextSalvo ∧
    (setConv s d v).tally = s.tally ∧ (setConv s d v).gpioIn = s.gpioIn ∧ (setConv s d v).gpioOut = s.gpioOut ∧
    (setConv s d v).spares = s.spares ∧ (setConv s d v).crushers = s.crushers ∧
    (setConv s d v).contexts = s.contexts ∧ (setConv s d v).tables = s.tables ∧
    (setConv s d v).profiles = s.profiles ∧ (setConv s d v).tableChanges = s.tableChanges ∧
    (setConv s d v).outputs = s.outputs ∧ (setConv s d v).ashlars = s.ashlars ∧ (setConv s d v).audio = s.audio ∧
    (setConv s d v).aports = s.aports ∧ (setConv s d v).refs = s.refs ∧ (setConv s d v).netPorts = s.netPorts ∧
    (setConv s d v).flows = s.flows ∧ (setConv s d v).adit = s.adit ∧ (setConv s d v).island = s.island ∧
    (setConv s d v).fw = s.fw ∧ (setConv s d v).flash = s.flash ∧ (setConv s d v).rails = s.rails ∧
    (setConv s d v).domains = s.domains ∧ (setConv s d v).fuses = s.fuses ∧ (setConv s d v).tap = s.tap := by
  repeat' (first | rfl | constructor)

@[simp] theorem setContext_frame (s : State) (d : Nat) (v : Context) :
    (setContext s d v).pending = s.pending ∧ (setContext s d v).free = s.free ∧ (setContext s d v).now = s.now ∧
    (setContext s d v).readyAt = s.readyAt ∧ (setContext s d v).uptime = s.uptime ∧
    (setContext s d v).product = s.product ∧ (setContext s d v).ready = s.ready ∧
    (setContext s d v).updating = s.updating ∧ (setContext s d v).pwrWarn = s.pwrWarn ∧
    (setContext s d v).bootWait = s.bootWait ∧ (setContext s d v).fuseSense = s.fuseSense ∧
    (setContext s d v).fm = s.fm ∧ (setContext s d v).portA = s.portA ∧ (setContext s d v).portB = s.portB ∧
    (setContext s d v).eventsA = s.eventsA ∧ (setContext s d v).eventsB = s.eventsB ∧
    (setContext s d v).tieFirst = s.tieFirst ∧ (setContext s d v).sems = s.sems ∧
    (setContext s d v).channels = s.channels ∧ (setContext s d v).lanes = s.lanes ∧
    (setContext s d v).groups = s.groups ∧ (setContext s d v).sources = s.sources ∧
    (setContext s d v).store = s.store ∧ (setContext s d v).captures = s.captures ∧
    (setContext s d v).triggers = s.triggers ∧ (setContext s d v).gpioEdge = s.gpioEdge ∧
    (setContext s d v).routes = s.routes ∧ (setContext s d v).salvos = s.salvos ∧
    (setContext s d v).finishedSalvos = s.finishedSalvos ∧ (setContext s d v).nextSalvo = s.nextSalvo ∧
    (setContext s d v).tally = s.tally ∧ (setContext s d v).gpioIn = s.gpioIn ∧
    (setContext s d v).gpioOut = s.gpioOut ∧ (setContext s d v).spares = s.spares ∧
    (setContext s d v).crushers = s.crushers ∧ (setContext s d v).conv = s.conv ∧
    (setContext s d v).tables = s.tables ∧ (setContext s d v).profiles = s.profiles ∧
    (setContext s d v).tableChanges = s.tableChanges ∧ (setContext s d v).outputs = s.outputs ∧
    (setContext s d v).ashlars = s.ashlars ∧ (setContext s d v).audio = s.audio ∧
    (setContext s d v).aports = s.aports ∧ (setContext s d v).refs = s.refs ∧
    (setContext s d v).netPorts = s.netPorts ∧ (setContext s d v).flows = s.flows ∧
    (setContext s d v).adit = s.adit ∧ (setContext s d v).island = s.island ∧ (setContext s d v).fw = s.fw ∧
    (setContext s d v).flash = s.flash ∧ (setContext s d v).rails = s.rails ∧
    (setContext s d v).domains = s.domains ∧ (setContext s d v).fuses = s.fuses ∧
    (setContext s d v).tap = s.tap := by
  repeat' (first | rfl | constructor)

@[simp] theorem setOutput_frame (s : State) (d : Nat) (v : Output) :
    (setOutput s d v).pending = s.pending ∧ (setOutput s d v).free = s.free ∧ (setOutput s d v).now = s.now ∧
    (setOutput s d v).readyAt = s.readyAt ∧ (setOutput s d v).uptime = s.uptime ∧
    (setOutput s d v).product = s.product ∧ (setOutput s d v).ready = s.ready ∧
    (setOutput s d v).updating = s.updating ∧ (setOutput s d v).pwrWarn = s.pwrWarn ∧
    (setOutput s d v).bootWait = s.bootWait ∧ (setOutput s d v).fuseSense = s.fuseSense ∧
    (setOutput s d v).fm = s.fm ∧ (setOutput s d v).portA = s.portA ∧ (setOutput s d v).portB = s.portB ∧
    (setOutput s d v).eventsA = s.eventsA ∧ (setOutput s d v).eventsB = s.eventsB ∧
    (setOutput s d v).tieFirst = s.tieFirst ∧ (setOutput s d v).sems = s.sems ∧
    (setOutput s d v).channels = s.channels ∧ (setOutput s d v).lanes = s.lanes ∧
    (setOutput s d v).groups = s.groups ∧ (setOutput s d v).sources = s.sources ∧ (setOutput s d v).store = s.store ∧
    (setOutput s d v).captures = s.captures ∧ (setOutput s d v).triggers = s.triggers ∧
    (setOutput s d v).gpioEdge = s.gpioEdge ∧ (setOutput s d v).routes = s.routes ∧
    (setOutput s d v).salvos = s.salvos ∧ (setOutput s d v).finishedSalvos = s.finishedSalvos ∧
    (setOutput s d v).nextSalvo = s.nextSalvo ∧ (setOutput s d v).tally = s.tally ∧
    (setOutput s d v).gpioIn = s.gpioIn ∧ (setOutput s d v).gpioOut = s.gpioOut ∧
    (setOutput s d v).spares = s.spares ∧ (setOutput s d v).crushers = s.crushers ∧
    (setOutput s d v).contexts = s.contexts ∧ (setOutput s d v).conv = s.conv ∧ (setOutput s d v).tables = s.tables ∧
    (setOutput s d v).profiles = s.profiles ∧ (setOutput s d v).tableChanges = s.tableChanges ∧
    (setOutput s d v).ashlars = s.ashlars ∧ (setOutput s d v).audio = s.audio ∧ (setOutput s d v).aports = s.aports ∧
    (setOutput s d v).refs = s.refs ∧ (setOutput s d v).netPorts = s.netPorts ∧ (setOutput s d v).flows = s.flows ∧
    (setOutput s d v).adit = s.adit ∧ (setOutput s d v).island = s.island ∧ (setOutput s d v).fw = s.fw ∧
    (setOutput s d v).flash = s.flash ∧ (setOutput s d v).rails = s.rails ∧ (setOutput s d v).domains = s.domains ∧
    (setOutput s d v).fuses = s.fuses ∧ (setOutput s d v).tap = s.tap := by
  repeat' (first | rfl | constructor)

@[simp] theorem setAshlar_frame (s : State) (k : Nat) (v : Ashlar) :
    (setAshlar s k v).pending = s.pending ∧ (setAshlar s k v).free = s.free ∧ (setAshlar s k v).now = s.now ∧
    (setAshlar s k v).readyAt = s.readyAt ∧ (setAshlar s k v).uptime = s.uptime ∧
    (setAshlar s k v).product = s.product ∧ (setAshlar s k v).ready = s.ready ∧
    (setAshlar s k v).updating = s.updating ∧ (setAshlar s k v).pwrWarn = s.pwrWarn ∧
    (setAshlar s k v).bootWait = s.bootWait ∧ (setAshlar s k v).fuseSense = s.fuseSense ∧
    (setAshlar s k v).fm = s.fm ∧ (setAshlar s k v).portA = s.portA ∧ (setAshlar s k v).portB = s.portB ∧
    (setAshlar s k v).eventsA = s.eventsA ∧ (setAshlar s k v).eventsB = s.eventsB ∧
    (setAshlar s k v).tieFirst = s.tieFirst ∧ (setAshlar s k v).sems = s.sems ∧
    (setAshlar s k v).channels = s.channels ∧ (setAshlar s k v).lanes = s.lanes ∧
    (setAshlar s k v).groups = s.groups ∧ (setAshlar s k v).sources = s.sources ∧ (setAshlar s k v).store = s.store ∧
    (setAshlar s k v).captures = s.captures ∧ (setAshlar s k v).triggers = s.triggers ∧
    (setAshlar s k v).gpioEdge = s.gpioEdge ∧ (setAshlar s k v).routes = s.routes ∧
    (setAshlar s k v).salvos = s.salvos ∧ (setAshlar s k v).finishedSalvos = s.finishedSalvos ∧
    (setAshlar s k v).nextSalvo = s.nextSalvo ∧ (setAshlar s k v).tally = s.tally ∧
    (setAshlar s k v).gpioIn = s.gpioIn ∧ (setAshlar s k v).gpioOut = s.gpioOut ∧
    (setAshlar s k v).spares = s.spares ∧ (setAshlar s k v).crushers = s.crushers ∧
    (setAshlar s k v).contexts = s.contexts ∧ (setAshlar s k v).conv = s.conv ∧ (setAshlar s k v).tables = s.tables ∧
    (setAshlar s k v).profiles = s.profiles ∧ (setAshlar s k v).tableChanges = s.tableChanges ∧
    (setAshlar s k v).outputs = s.outputs ∧ (setAshlar s k v).audio = s.audio ∧ (setAshlar s k v).aports = s.aports ∧
    (setAshlar s k v).refs = s.refs ∧ (setAshlar s k v).netPorts = s.netPorts ∧ (setAshlar s k v).flows = s.flows ∧
    (setAshlar s k v).adit = s.adit ∧ (setAshlar s k v).island = s.island ∧ (setAshlar s k v).fw = s.fw ∧
    (setAshlar s k v).flash = s.flash ∧ (setAshlar s k v).rails = s.rails ∧ (setAshlar s k v).domains = s.domains ∧
    (setAshlar s k v).fuses = s.fuses ∧ (setAshlar s k v).tap = s.tap := by
  repeat' (first | rfl | constructor)

@[simp] theorem setAsrc_frame (s : State) (c : Nat) (v : AudioSource) :
    (setAsrc s c v).pending = s.pending ∧ (setAsrc s c v).free = s.free ∧ (setAsrc s c v).now = s.now ∧
    (setAsrc s c v).readyAt = s.readyAt ∧ (setAsrc s c v).uptime = s.uptime ∧ (setAsrc s c v).product = s.product ∧
    (setAsrc s c v).ready = s.ready ∧ (setAsrc s c v).updating = s.updating ∧ (setAsrc s c v).pwrWarn = s.pwrWarn ∧
    (setAsrc s c v).bootWait = s.bootWait ∧ (setAsrc s c v).fuseSense = s.fuseSense ∧ (setAsrc s c v).fm = s.fm ∧
    (setAsrc s c v).portA = s.portA ∧ (setAsrc s c v).portB = s.portB ∧ (setAsrc s c v).eventsA = s.eventsA ∧
    (setAsrc s c v).eventsB = s.eventsB ∧ (setAsrc s c v).tieFirst = s.tieFirst ∧ (setAsrc s c v).sems = s.sems ∧
    (setAsrc s c v).channels = s.channels ∧ (setAsrc s c v).lanes = s.lanes ∧ (setAsrc s c v).groups = s.groups ∧
    (setAsrc s c v).sources = s.sources ∧ (setAsrc s c v).store = s.store ∧ (setAsrc s c v).captures = s.captures ∧
    (setAsrc s c v).triggers = s.triggers ∧ (setAsrc s c v).gpioEdge = s.gpioEdge ∧
    (setAsrc s c v).routes = s.routes ∧ (setAsrc s c v).salvos = s.salvos ∧
    (setAsrc s c v).finishedSalvos = s.finishedSalvos ∧ (setAsrc s c v).nextSalvo = s.nextSalvo ∧
    (setAsrc s c v).tally = s.tally ∧ (setAsrc s c v).gpioIn = s.gpioIn ∧ (setAsrc s c v).gpioOut = s.gpioOut ∧
    (setAsrc s c v).spares = s.spares ∧ (setAsrc s c v).crushers = s.crushers ∧
    (setAsrc s c v).contexts = s.contexts ∧ (setAsrc s c v).conv = s.conv ∧ (setAsrc s c v).tables = s.tables ∧
    (setAsrc s c v).profiles = s.profiles ∧ (setAsrc s c v).tableChanges = s.tableChanges ∧
    (setAsrc s c v).outputs = s.outputs ∧ (setAsrc s c v).ashlars = s.ashlars ∧ (setAsrc s c v).aports = s.aports ∧
    (setAsrc s c v).refs = s.refs ∧ (setAsrc s c v).netPorts = s.netPorts ∧ (setAsrc s c v).flows = s.flows ∧
    (setAsrc s c v).adit = s.adit ∧ (setAsrc s c v).island = s.island ∧ (setAsrc s c v).fw = s.fw ∧
    (setAsrc s c v).flash = s.flash ∧ (setAsrc s c v).rails = s.rails ∧ (setAsrc s c v).domains = s.domains ∧
    (setAsrc s c v).fuses = s.fuses ∧ (setAsrc s c v).tap = s.tap := by
  repeat' (first | rfl | constructor)

@[simp] theorem setAdest_frame (s : State) (c : Nat) (v : AudioDest) :
    (setAdest s c v).pending = s.pending ∧ (setAdest s c v).free = s.free ∧ (setAdest s c v).now = s.now ∧
    (setAdest s c v).readyAt = s.readyAt ∧ (setAdest s c v).uptime = s.uptime ∧
    (setAdest s c v).product = s.product ∧ (setAdest s c v).ready = s.ready ∧
    (setAdest s c v).updating = s.updating ∧ (setAdest s c v).pwrWarn = s.pwrWarn ∧
    (setAdest s c v).bootWait = s.bootWait ∧ (setAdest s c v).fuseSense = s.fuseSense ∧ (setAdest s c v).fm = s.fm ∧
    (setAdest s c v).portA = s.portA ∧ (setAdest s c v).portB = s.portB ∧ (setAdest s c v).eventsA = s.eventsA ∧
    (setAdest s c v).eventsB = s.eventsB ∧ (setAdest s c v).tieFirst = s.tieFirst ∧ (setAdest s c v).sems = s.sems ∧
    (setAdest s c v).channels = s.channels ∧ (setAdest s c v).lanes = s.lanes ∧ (setAdest s c v).groups = s.groups ∧
    (setAdest s c v).sources = s.sources ∧ (setAdest s c v).store = s.store ∧
    (setAdest s c v).captures = s.captures ∧ (setAdest s c v).triggers = s.triggers ∧
    (setAdest s c v).gpioEdge = s.gpioEdge ∧ (setAdest s c v).routes = s.routes ∧
    (setAdest s c v).salvos = s.salvos ∧ (setAdest s c v).finishedSalvos = s.finishedSalvos ∧
    (setAdest s c v).nextSalvo = s.nextSalvo ∧ (setAdest s c v).tally = s.tally ∧
    (setAdest s c v).gpioIn = s.gpioIn ∧ (setAdest s c v).gpioOut = s.gpioOut ∧ (setAdest s c v).spares = s.spares ∧
    (setAdest s c v).crushers = s.crushers ∧ (setAdest s c v).contexts = s.contexts ∧
    (setAdest s c v).conv = s.conv ∧ (setAdest s c v).tables = s.tables ∧ (setAdest s c v).profiles = s.profiles ∧
    (setAdest s c v).tableChanges = s.tableChanges ∧ (setAdest s c v).outputs = s.outputs ∧
    (setAdest s c v).ashlars = s.ashlars ∧ (setAdest s c v).aports = s.aports ∧ (setAdest s c v).refs = s.refs ∧
    (setAdest s c v).netPorts = s.netPorts ∧ (setAdest s c v).flows = s.flows ∧ (setAdest s c v).adit = s.adit ∧
    (setAdest s c v).island = s.island ∧ (setAdest s c v).fw = s.fw ∧ (setAdest s c v).flash = s.flash ∧
    (setAdest s c v).rails = s.rails ∧ (setAdest s c v).domains = s.domains ∧ (setAdest s c v).fuses = s.fuses ∧
    (setAdest s c v).tap = s.tap := by
  repeat' (first | rfl | constructor)

@[simp] theorem setAport_frame (s : State) (p : Nat) (v : AudioPort) :
    (setAport s p v).pending = s.pending ∧ (setAport s p v).free = s.free ∧ (setAport s p v).now = s.now ∧
    (setAport s p v).readyAt = s.readyAt ∧ (setAport s p v).uptime = s.uptime ∧
    (setAport s p v).product = s.product ∧ (setAport s p v).ready = s.ready ∧
    (setAport s p v).updating = s.updating ∧ (setAport s p v).pwrWarn = s.pwrWarn ∧
    (setAport s p v).bootWait = s.bootWait ∧ (setAport s p v).fuseSense = s.fuseSense ∧ (setAport s p v).fm = s.fm ∧
    (setAport s p v).portA = s.portA ∧ (setAport s p v).portB = s.portB ∧ (setAport s p v).eventsA = s.eventsA ∧
    (setAport s p v).eventsB = s.eventsB ∧ (setAport s p v).tieFirst = s.tieFirst ∧ (setAport s p v).sems = s.sems ∧
    (setAport s p v).channels = s.channels ∧ (setAport s p v).lanes = s.lanes ∧ (setAport s p v).groups = s.groups ∧
    (setAport s p v).sources = s.sources ∧ (setAport s p v).store = s.store ∧
    (setAport s p v).captures = s.captures ∧ (setAport s p v).triggers = s.triggers ∧
    (setAport s p v).gpioEdge = s.gpioEdge ∧ (setAport s p v).routes = s.routes ∧
    (setAport s p v).salvos = s.salvos ∧ (setAport s p v).finishedSalvos = s.finishedSalvos ∧
    (setAport s p v).nextSalvo = s.nextSalvo ∧ (setAport s p v).tally = s.tally ∧
    (setAport s p v).gpioIn = s.gpioIn ∧ (setAport s p v).gpioOut = s.gpioOut ∧ (setAport s p v).spares = s.spares ∧
    (setAport s p v).crushers = s.crushers ∧ (setAport s p v).contexts = s.contexts ∧
    (setAport s p v).conv = s.conv ∧ (setAport s p v).tables = s.tables ∧ (setAport s p v).profiles = s.profiles ∧
    (setAport s p v).tableChanges = s.tableChanges ∧ (setAport s p v).outputs = s.outputs ∧
    (setAport s p v).ashlars = s.ashlars ∧ (setAport s p v).audio = s.audio ∧ (setAport s p v).refs = s.refs ∧
    (setAport s p v).netPorts = s.netPorts ∧ (setAport s p v).flows = s.flows ∧ (setAport s p v).adit = s.adit ∧
    (setAport s p v).island = s.island ∧ (setAport s p v).fw = s.fw ∧ (setAport s p v).flash = s.flash ∧
    (setAport s p v).rails = s.rails ∧ (setAport s p v).domains = s.domains ∧ (setAport s p v).fuses = s.fuses ∧
    (setAport s p v).tap = s.tap := by
  repeat' (first | rfl | constructor)

@[simp] theorem setRef_frame (s : State) (e : Nat) (v : RefEngine) :
    (setRef s e v).pending = s.pending ∧ (setRef s e v).free = s.free ∧ (setRef s e v).now = s.now ∧
    (setRef s e v).readyAt = s.readyAt ∧ (setRef s e v).uptime = s.uptime ∧ (setRef s e v).product = s.product ∧
    (setRef s e v).ready = s.ready ∧ (setRef s e v).updating = s.updating ∧ (setRef s e v).pwrWarn = s.pwrWarn ∧
    (setRef s e v).bootWait = s.bootWait ∧ (setRef s e v).fuseSense = s.fuseSense ∧ (setRef s e v).fm = s.fm ∧
    (setRef s e v).portA = s.portA ∧ (setRef s e v).portB = s.portB ∧ (setRef s e v).eventsA = s.eventsA ∧
    (setRef s e v).eventsB = s.eventsB ∧ (setRef s e v).tieFirst = s.tieFirst ∧ (setRef s e v).sems = s.sems ∧
    (setRef s e v).channels = s.channels ∧ (setRef s e v).lanes = s.lanes ∧ (setRef s e v).groups = s.groups ∧
    (setRef s e v).sources = s.sources ∧ (setRef s e v).store = s.store ∧ (setRef s e v).captures = s.captures ∧
    (setRef s e v).triggers = s.triggers ∧ (setRef s e v).gpioEdge = s.gpioEdge ∧ (setRef s e v).routes = s.routes ∧
    (setRef s e v).salvos = s.salvos ∧ (setRef s e v).finishedSalvos = s.finishedSalvos ∧
    (setRef s e v).nextSalvo = s.nextSalvo ∧ (setRef s e v).tally = s.tally ∧ (setRef s e v).gpioIn = s.gpioIn ∧
    (setRef s e v).gpioOut = s.gpioOut ∧ (setRef s e v).spares = s.spares ∧ (setRef s e v).crushers = s.crushers ∧
    (setRef s e v).contexts = s.contexts ∧ (setRef s e v).conv = s.conv ∧ (setRef s e v).tables = s.tables ∧
    (setRef s e v).profiles = s.profiles ∧ (setRef s e v).tableChanges = s.tableChanges ∧
    (setRef s e v).outputs = s.outputs ∧ (setRef s e v).ashlars = s.ashlars ∧ (setRef s e v).audio = s.audio ∧
    (setRef s e v).aports = s.aports ∧ (setRef s e v).netPorts = s.netPorts ∧ (setRef s e v).flows = s.flows ∧
    (setRef s e v).adit = s.adit ∧ (setRef s e v).island = s.island ∧ (setRef s e v).fw = s.fw ∧
    (setRef s e v).flash = s.flash ∧ (setRef s e v).rails = s.rails ∧ (setRef s e v).domains = s.domains ∧
    (setRef s e v).fuses = s.fuses ∧ (setRef s e v).tap = s.tap := by
  repeat' (first | rfl | constructor)

@[simp] theorem setRefInput_frame (s : State) (i : Nat) (v : RefInput) :
    (setRefInput s i v).pending = s.pending ∧ (setRefInput s i v).free = s.free ∧ (setRefInput s i v).now = s.now ∧
    (setRefInput s i v).readyAt = s.readyAt ∧ (setRefInput s i v).uptime = s.uptime ∧
    (setRefInput s i v).product = s.product ∧ (setRefInput s i v).ready = s.ready ∧
    (setRefInput s i v).updating = s.updating ∧ (setRefInput s i v).pwrWarn = s.pwrWarn ∧
    (setRefInput s i v).bootWait = s.bootWait ∧ (setRefInput s i v).fuseSense = s.fuseSense ∧
    (setRefInput s i v).fm = s.fm ∧ (setRefInput s i v).portA = s.portA ∧ (setRefInput s i v).portB = s.portB ∧
    (setRefInput s i v).eventsA = s.eventsA ∧ (setRefInput s i v).eventsB = s.eventsB ∧
    (setRefInput s i v).tieFirst = s.tieFirst ∧ (setRefInput s i v).sems = s.sems ∧
    (setRefInput s i v).channels = s.channels ∧ (setRefInput s i v).lanes = s.lanes ∧
    (setRefInput s i v).groups = s.groups ∧ (setRefInput s i v).sources = s.sources ∧
    (setRefInput s i v).store = s.store ∧ (setRefInput s i v).captures = s.captures ∧
    (setRefInput s i v).triggers = s.triggers ∧ (setRefInput s i v).gpioEdge = s.gpioEdge ∧
    (setRefInput s i v).routes = s.routes ∧ (setRefInput s i v).salvos = s.salvos ∧
    (setRefInput s i v).finishedSalvos = s.finishedSalvos ∧ (setRefInput s i v).nextSalvo = s.nextSalvo ∧
    (setRefInput s i v).tally = s.tally ∧ (setRefInput s i v).gpioIn = s.gpioIn ∧
    (setRefInput s i v).gpioOut = s.gpioOut ∧ (setRefInput s i v).spares = s.spares ∧
    (setRefInput s i v).crushers = s.crushers ∧ (setRefInput s i v).contexts = s.contexts ∧
    (setRefInput s i v).conv = s.conv ∧ (setRefInput s i v).tables = s.tables ∧
    (setRefInput s i v).profiles = s.profiles ∧ (setRefInput s i v).tableChanges = s.tableChanges ∧
    (setRefInput s i v).outputs = s.outputs ∧ (setRefInput s i v).ashlars = s.ashlars ∧
    (setRefInput s i v).audio = s.audio ∧ (setRefInput s i v).aports = s.aports ∧
    (setRefInput s i v).netPorts = s.netPorts ∧ (setRefInput s i v).flows = s.flows ∧
    (setRefInput s i v).adit = s.adit ∧ (setRefInput s i v).island = s.island ∧ (setRefInput s i v).fw = s.fw ∧
    (setRefInput s i v).flash = s.flash ∧ (setRefInput s i v).rails = s.rails ∧
    (setRefInput s i v).domains = s.domains ∧ (setRefInput s i v).fuses = s.fuses ∧
    (setRefInput s i v).tap = s.tap := by
  repeat' (first | rfl | constructor)

@[simp] theorem setClk_frame (s : State) (k : Nat) (v : ClkOut) :
    (setClk s k v).pending = s.pending ∧ (setClk s k v).free = s.free ∧ (setClk s k v).now = s.now ∧
    (setClk s k v).readyAt = s.readyAt ∧ (setClk s k v).uptime = s.uptime ∧ (setClk s k v).product = s.product ∧
    (setClk s k v).ready = s.ready ∧ (setClk s k v).updating = s.updating ∧ (setClk s k v).pwrWarn = s.pwrWarn ∧
    (setClk s k v).bootWait = s.bootWait ∧ (setClk s k v).fuseSense = s.fuseSense ∧ (setClk s k v).fm = s.fm ∧
    (setClk s k v).portA = s.portA ∧ (setClk s k v).portB = s.portB ∧ (setClk s k v).eventsA = s.eventsA ∧
    (setClk s k v).eventsB = s.eventsB ∧ (setClk s k v).tieFirst = s.tieFirst ∧ (setClk s k v).sems = s.sems ∧
    (setClk s k v).channels = s.channels ∧ (setClk s k v).lanes = s.lanes ∧ (setClk s k v).groups = s.groups ∧
    (setClk s k v).sources = s.sources ∧ (setClk s k v).store = s.store ∧ (setClk s k v).captures = s.captures ∧
    (setClk s k v).triggers = s.triggers ∧ (setClk s k v).gpioEdge = s.gpioEdge ∧ (setClk s k v).routes = s.routes ∧
    (setClk s k v).salvos = s.salvos ∧ (setClk s k v).finishedSalvos = s.finishedSalvos ∧
    (setClk s k v).nextSalvo = s.nextSalvo ∧ (setClk s k v).tally = s.tally ∧ (setClk s k v).gpioIn = s.gpioIn ∧
    (setClk s k v).gpioOut = s.gpioOut ∧ (setClk s k v).spares = s.spares ∧ (setClk s k v).crushers = s.crushers ∧
    (setClk s k v).contexts = s.contexts ∧ (setClk s k v).conv = s.conv ∧ (setClk s k v).tables = s.tables ∧
    (setClk s k v).profiles = s.profiles ∧ (setClk s k v).tableChanges = s.tableChanges ∧
    (setClk s k v).outputs = s.outputs ∧ (setClk s k v).ashlars = s.ashlars ∧ (setClk s k v).audio = s.audio ∧
    (setClk s k v).aports = s.aports ∧ (setClk s k v).netPorts = s.netPorts ∧ (setClk s k v).flows = s.flows ∧
    (setClk s k v).adit = s.adit ∧ (setClk s k v).island = s.island ∧ (setClk s k v).fw = s.fw ∧
    (setClk s k v).flash = s.flash ∧ (setClk s k v).rails = s.rails ∧ (setClk s k v).domains = s.domains ∧
    (setClk s k v).fuses = s.fuses ∧ (setClk s k v).tap = s.tap := by
  repeat' (first | rfl | constructor)

@[simp] theorem setNet_frame (s : State) (p : Nat) (v : NetPort) :
    (setNet s p v).pending = s.pending ∧ (setNet s p v).free = s.free ∧ (setNet s p v).now = s.now ∧
    (setNet s p v).readyAt = s.readyAt ∧ (setNet s p v).uptime = s.uptime ∧ (setNet s p v).product = s.product ∧
    (setNet s p v).ready = s.ready ∧ (setNet s p v).updating = s.updating ∧ (setNet s p v).pwrWarn = s.pwrWarn ∧
    (setNet s p v).bootWait = s.bootWait ∧ (setNet s p v).fuseSense = s.fuseSense ∧ (setNet s p v).fm = s.fm ∧
    (setNet s p v).portA = s.portA ∧ (setNet s p v).portB = s.portB ∧ (setNet s p v).eventsA = s.eventsA ∧
    (setNet s p v).eventsB = s.eventsB ∧ (setNet s p v).tieFirst = s.tieFirst ∧ (setNet s p v).sems = s.sems ∧
    (setNet s p v).channels = s.channels ∧ (setNet s p v).lanes = s.lanes ∧ (setNet s p v).groups = s.groups ∧
    (setNet s p v).sources = s.sources ∧ (setNet s p v).store = s.store ∧ (setNet s p v).captures = s.captures ∧
    (setNet s p v).triggers = s.triggers ∧ (setNet s p v).gpioEdge = s.gpioEdge ∧ (setNet s p v).routes = s.routes ∧
    (setNet s p v).salvos = s.salvos ∧ (setNet s p v).finishedSalvos = s.finishedSalvos ∧
    (setNet s p v).nextSalvo = s.nextSalvo ∧ (setNet s p v).tally = s.tally ∧ (setNet s p v).gpioIn = s.gpioIn ∧
    (setNet s p v).gpioOut = s.gpioOut ∧ (setNet s p v).spares = s.spares ∧ (setNet s p v).crushers = s.crushers ∧
    (setNet s p v).contexts = s.contexts ∧ (setNet s p v).conv = s.conv ∧ (setNet s p v).tables = s.tables ∧
    (setNet s p v).profiles = s.profiles ∧ (setNet s p v).tableChanges = s.tableChanges ∧
    (setNet s p v).outputs = s.outputs ∧ (setNet s p v).ashlars = s.ashlars ∧ (setNet s p v).audio = s.audio ∧
    (setNet s p v).aports = s.aports ∧ (setNet s p v).refs = s.refs ∧ (setNet s p v).flows = s.flows ∧
    (setNet s p v).adit = s.adit ∧ (setNet s p v).island = s.island ∧ (setNet s p v).fw = s.fw ∧
    (setNet s p v).flash = s.flash ∧ (setNet s p v).rails = s.rails ∧ (setNet s p v).domains = s.domains ∧
    (setNet s p v).fuses = s.fuses ∧ (setNet s p v).tap = s.tap := by
  repeat' (first | rfl | constructor)

@[simp] theorem setFlow_frame (s : State) (k : Nat) (v : Flow) :
    (setFlow s k v).pending = s.pending ∧ (setFlow s k v).free = s.free ∧ (setFlow s k v).now = s.now ∧
    (setFlow s k v).readyAt = s.readyAt ∧ (setFlow s k v).uptime = s.uptime ∧ (setFlow s k v).product = s.product ∧
    (setFlow s k v).ready = s.ready ∧ (setFlow s k v).updating = s.updating ∧ (setFlow s k v).pwrWarn = s.pwrWarn ∧
    (setFlow s k v).bootWait = s.bootWait ∧ (setFlow s k v).fuseSense = s.fuseSense ∧ (setFlow s k v).fm = s.fm ∧
    (setFlow s k v).portA = s.portA ∧ (setFlow s k v).portB = s.portB ∧ (setFlow s k v).eventsA = s.eventsA ∧
    (setFlow s k v).eventsB = s.eventsB ∧ (setFlow s k v).tieFirst = s.tieFirst ∧ (setFlow s k v).sems = s.sems ∧
    (setFlow s k v).channels = s.channels ∧ (setFlow s k v).lanes = s.lanes ∧ (setFlow s k v).groups = s.groups ∧
    (setFlow s k v).sources = s.sources ∧ (setFlow s k v).store = s.store ∧ (setFlow s k v).captures = s.captures ∧
    (setFlow s k v).triggers = s.triggers ∧ (setFlow s k v).gpioEdge = s.gpioEdge ∧
    (setFlow s k v).routes = s.routes ∧ (setFlow s k v).salvos = s.salvos ∧
    (setFlow s k v).finishedSalvos = s.finishedSalvos ∧ (setFlow s k v).nextSalvo = s.nextSalvo ∧
    (setFlow s k v).tally = s.tally ∧ (setFlow s k v).gpioIn = s.gpioIn ∧ (setFlow s k v).gpioOut = s.gpioOut ∧
    (setFlow s k v).spares = s.spares ∧ (setFlow s k v).crushers = s.crushers ∧
    (setFlow s k v).contexts = s.contexts ∧ (setFlow s k v).conv = s.conv ∧ (setFlow s k v).tables = s.tables ∧
    (setFlow s k v).profiles = s.profiles ∧ (setFlow s k v).tableChanges = s.tableChanges ∧
    (setFlow s k v).outputs = s.outputs ∧ (setFlow s k v).ashlars = s.ashlars ∧ (setFlow s k v).audio = s.audio ∧
    (setFlow s k v).aports = s.aports ∧ (setFlow s k v).refs = s.refs ∧ (setFlow s k v).netPorts = s.netPorts ∧
    (setFlow s k v).adit = s.adit ∧ (setFlow s k v).island = s.island ∧ (setFlow s k v).fw = s.fw ∧
    (setFlow s k v).flash = s.flash ∧ (setFlow s k v).rails = s.rails ∧ (setFlow s k v).domains = s.domains ∧
    (setFlow s k v).fuses = s.fuses ∧ (setFlow s k v).tap = s.tap := by
  repeat' (first | rfl | constructor)

@[simp] theorem setTie_frame (s : State) (k : Nat) (v : Tie) :
    (setTie s k v).pending = s.pending ∧ (setTie s k v).free = s.free ∧ (setTie s k v).now = s.now ∧
    (setTie s k v).readyAt = s.readyAt ∧ (setTie s k v).uptime = s.uptime ∧ (setTie s k v).product = s.product ∧
    (setTie s k v).ready = s.ready ∧ (setTie s k v).updating = s.updating ∧ (setTie s k v).pwrWarn = s.pwrWarn ∧
    (setTie s k v).bootWait = s.bootWait ∧ (setTie s k v).fuseSense = s.fuseSense ∧ (setTie s k v).fm = s.fm ∧
    (setTie s k v).portA = s.portA ∧ (setTie s k v).portB = s.portB ∧ (setTie s k v).eventsA = s.eventsA ∧
    (setTie s k v).eventsB = s.eventsB ∧ (setTie s k v).tieFirst = s.tieFirst ∧ (setTie s k v).sems = s.sems ∧
    (setTie s k v).channels = s.channels ∧ (setTie s k v).lanes = s.lanes ∧ (setTie s k v).groups = s.groups ∧
    (setTie s k v).sources = s.sources ∧ (setTie s k v).store = s.store ∧ (setTie s k v).captures = s.captures ∧
    (setTie s k v).triggers = s.triggers ∧ (setTie s k v).gpioEdge = s.gpioEdge ∧ (setTie s k v).routes = s.routes ∧
    (setTie s k v).salvos = s.salvos ∧ (setTie s k v).finishedSalvos = s.finishedSalvos ∧
    (setTie s k v).nextSalvo = s.nextSalvo ∧ (setTie s k v).tally = s.tally ∧ (setTie s k v).gpioIn = s.gpioIn ∧
    (setTie s k v).gpioOut = s.gpioOut ∧ (setTie s k v).spares = s.spares ∧ (setTie s k v).crushers = s.crushers ∧
    (setTie s k v).contexts = s.contexts ∧ (setTie s k v).conv = s.conv ∧ (setTie s k v).tables = s.tables ∧
    (setTie s k v).profiles = s.profiles ∧ (setTie s k v).tableChanges = s.tableChanges ∧
    (setTie s k v).outputs = s.outputs ∧ (setTie s k v).ashlars = s.ashlars ∧ (setTie s k v).audio = s.audio ∧
    (setTie s k v).aports = s.aports ∧ (setTie s k v).refs = s.refs ∧ (setTie s k v).netPorts = s.netPorts ∧
    (setTie s k v).flows = s.flows ∧ (setTie s k v).island = s.island ∧ (setTie s k v).fw = s.fw ∧
    (setTie s k v).flash = s.flash ∧ (setTie s k v).rails = s.rails ∧ (setTie s k v).domains = s.domains ∧
    (setTie s k v).fuses = s.fuses ∧ (setTie s k v).tap = s.tap := by
  repeat' (first | rfl | constructor)

@[simp] theorem setCapture_frame (s : State) (i : Nat) (v : Capture) :
    (setCapture s i v).pending = s.pending ∧ (setCapture s i v).free = s.free ∧ (setCapture s i v).now = s.now ∧
    (setCapture s i v).readyAt = s.readyAt ∧ (setCapture s i v).uptime = s.uptime ∧
    (setCapture s i v).product = s.product ∧ (setCapture s i v).ready = s.ready ∧
    (setCapture s i v).updating = s.updating ∧ (setCapture s i v).pwrWarn = s.pwrWarn ∧
    (setCapture s i v).bootWait = s.bootWait ∧ (setCapture s i v).fuseSense = s.fuseSense ∧
    (setCapture s i v).fm = s.fm ∧ (setCapture s i v).portA = s.portA ∧ (setCapture s i v).portB = s.portB ∧
    (setCapture s i v).eventsA = s.eventsA ∧ (setCapture s i v).eventsB = s.eventsB ∧
    (setCapture s i v).tieFirst = s.tieFirst ∧ (setCapture s i v).sems = s.sems ∧
    (setCapture s i v).channels = s.channels ∧ (setCapture s i v).lanes = s.lanes ∧
    (setCapture s i v).groups = s.groups ∧ (setCapture s i v).sources = s.sources ∧
    (setCapture s i v).store = s.store ∧ (setCapture s i v).triggers = s.triggers ∧
    (setCapture s i v).gpioEdge = s.gpioEdge ∧ (setCapture s i v).routes = s.routes ∧
    (setCapture s i v).salvos = s.salvos ∧ (setCapture s i v).finishedSalvos = s.finishedSalvos ∧
    (setCapture s i v).nextSalvo = s.nextSalvo ∧ (setCapture s i v).tally = s.tally ∧
    (setCapture s i v).gpioIn = s.gpioIn ∧ (setCapture s i v).gpioOut = s.gpioOut ∧
    (setCapture s i v).spares = s.spares ∧ (setCapture s i v).crushers = s.crushers ∧
    (setCapture s i v).contexts = s.contexts ∧ (setCapture s i v).conv = s.conv ∧
    (setCapture s i v).tables = s.tables ∧ (setCapture s i v).profiles = s.profiles ∧
    (setCapture s i v).tableChanges = s.tableChanges ∧ (setCapture s i v).outputs = s.outputs ∧
    (setCapture s i v).ashlars = s.ashlars ∧ (setCapture s i v).audio = s.audio ∧
    (setCapture s i v).aports = s.aports ∧ (setCapture s i v).refs = s.refs ∧
    (setCapture s i v).netPorts = s.netPorts ∧ (setCapture s i v).flows = s.flows ∧
    (setCapture s i v).adit = s.adit ∧ (setCapture s i v).island = s.island ∧ (setCapture s i v).fw = s.fw ∧
    (setCapture s i v).flash = s.flash ∧ (setCapture s i v).rails = s.rails ∧
    (setCapture s i v).domains = s.domains ∧ (setCapture s i v).fuses = s.fuses ∧
    (setCapture s i v).tap = s.tap := by
  repeat' (first | rfl | constructor)

@[simp] theorem setRail_frame (s : State) (r : Nat) (v : Rail) :
    (setRail s r v).pending = s.pending ∧ (setRail s r v).free = s.free ∧ (setRail s r v).now = s.now ∧
    (setRail s r v).readyAt = s.readyAt ∧ (setRail s r v).uptime = s.uptime ∧ (setRail s r v).product = s.product ∧
    (setRail s r v).ready = s.ready ∧ (setRail s r v).updating = s.updating ∧ (setRail s r v).pwrWarn = s.pwrWarn ∧
    (setRail s r v).bootWait = s.bootWait ∧ (setRail s r v).fuseSense = s.fuseSense ∧ (setRail s r v).fm = s.fm ∧
    (setRail s r v).portA = s.portA ∧ (setRail s r v).portB = s.portB ∧ (setRail s r v).eventsA = s.eventsA ∧
    (setRail s r v).eventsB = s.eventsB ∧ (setRail s r v).tieFirst = s.tieFirst ∧ (setRail s r v).sems = s.sems ∧
    (setRail s r v).channels = s.channels ∧ (setRail s r v).lanes = s.lanes ∧ (setRail s r v).groups = s.groups ∧
    (setRail s r v).sources = s.sources ∧ (setRail s r v).store = s.store ∧ (setRail s r v).captures = s.captures ∧
    (setRail s r v).triggers = s.triggers ∧ (setRail s r v).gpioEdge = s.gpioEdge ∧
    (setRail s r v).routes = s.routes ∧ (setRail s r v).salvos = s.salvos ∧
    (setRail s r v).finishedSalvos = s.finishedSalvos ∧ (setRail s r v).nextSalvo = s.nextSalvo ∧
    (setRail s r v).tally = s.tally ∧ (setRail s r v).gpioIn = s.gpioIn ∧ (setRail s r v).gpioOut = s.gpioOut ∧
    (setRail s r v).spares = s.spares ∧ (setRail s r v).crushers = s.crushers ∧
    (setRail s r v).contexts = s.contexts ∧ (setRail s r v).conv = s.conv ∧ (setRail s r v).tables = s.tables ∧
    (setRail s r v).profiles = s.profiles ∧ (setRail s r v).tableChanges = s.tableChanges ∧
    (setRail s r v).outputs = s.outputs ∧ (setRail s r v).ashlars = s.ashlars ∧ (setRail s r v).audio = s.audio ∧
    (setRail s r v).aports = s.aports ∧ (setRail s r v).refs = s.refs ∧ (setRail s r v).netPorts = s.netPorts ∧
    (setRail s r v).flows = s.flows ∧ (setRail s r v).adit = s.adit ∧ (setRail s r v).island = s.island ∧
    (setRail s r v).fw = s.fw ∧ (setRail s r v).flash = s.flash ∧ (setRail s r v).domains = s.domains ∧
    (setRail s r v).fuses = s.fuses ∧ (setRail s r v).tap = s.tap := by
  repeat' (first | rfl | constructor)

@[simp] theorem setDomain_frame (s : State) (d : Nat) (v : Domain) :
    (setDomain s d v).pending = s.pending ∧ (setDomain s d v).free = s.free ∧ (setDomain s d v).now = s.now ∧
    (setDomain s d v).readyAt = s.readyAt ∧ (setDomain s d v).uptime = s.uptime ∧
    (setDomain s d v).product = s.product ∧ (setDomain s d v).ready = s.ready ∧
    (setDomain s d v).updating = s.updating ∧ (setDomain s d v).pwrWarn = s.pwrWarn ∧
    (setDomain s d v).bootWait = s.bootWait ∧ (setDomain s d v).fuseSense = s.fuseSense ∧
    (setDomain s d v).fm = s.fm ∧ (setDomain s d v).portA = s.portA ∧ (setDomain s d v).portB = s.portB ∧
    (setDomain s d v).eventsA = s.eventsA ∧ (setDomain s d v).eventsB = s.eventsB ∧
    (setDomain s d v).tieFirst = s.tieFirst ∧ (setDomain s d v).sems = s.sems ∧
    (setDomain s d v).channels = s.channels ∧ (setDomain s d v).lanes = s.lanes ∧
    (setDomain s d v).groups = s.groups ∧ (setDomain s d v).sources = s.sources ∧ (setDomain s d v).store = s.store ∧
    (setDomain s d v).captures = s.captures ∧ (setDomain s d v).triggers = s.triggers ∧
    (setDomain s d v).gpioEdge = s.gpioEdge ∧ (setDomain s d v).routes = s.routes ∧
    (setDomain s d v).salvos = s.salvos ∧ (setDomain s d v).finishedSalvos = s.finishedSalvos ∧
    (setDomain s d v).nextSalvo = s.nextSalvo ∧ (setDomain s d v).tally = s.tally ∧
    (setDomain s d v).gpioIn = s.gpioIn ∧ (setDomain s d v).gpioOut = s.gpioOut ∧
    (setDomain s d v).spares = s.spares ∧ (setDomain s d v).crushers = s.crushers ∧
    (setDomain s d v).contexts = s.contexts ∧ (setDomain s d v).conv = s.conv ∧ (setDomain s d v).tables = s.tables ∧
    (setDomain s d v).profiles = s.profiles ∧ (setDomain s d v).tableChanges = s.tableChanges ∧
    (setDomain s d v).outputs = s.outputs ∧ (setDomain s d v).ashlars = s.ashlars ∧
    (setDomain s d v).audio = s.audio ∧ (setDomain s d v).aports = s.aports ∧ (setDomain s d v).refs = s.refs ∧
    (setDomain s d v).netPorts = s.netPorts ∧ (setDomain s d v).flows = s.flows ∧ (setDomain s d v).adit = s.adit ∧
    (setDomain s d v).island = s.island ∧ (setDomain s d v).fw = s.fw ∧ (setDomain s d v).flash = s.flash ∧
    (setDomain s d v).rails = s.rails ∧ (setDomain s d v).fuses = s.fuses ∧ (setDomain s d v).tap = s.tap := by
  repeat' (first | rfl | constructor)

@[simp] theorem setBench_frame (s : State) (k : Nat) (v : Bench) :
    (setBench s k v).pending = s.pending ∧ (setBench s k v).free = s.free ∧ (setBench s k v).now = s.now ∧
    (setBench s k v).readyAt = s.readyAt ∧ (setBench s k v).uptime = s.uptime ∧
    (setBench s k v).product = s.product ∧ (setBench s k v).ready = s.ready ∧
    (setBench s k v).updating = s.updating ∧ (setBench s k v).pwrWarn = s.pwrWarn ∧
    (setBench s k v).bootWait = s.bootWait ∧ (setBench s k v).fuseSense = s.fuseSense ∧ (setBench s k v).fm = s.fm ∧
    (setBench s k v).portA = s.portA ∧ (setBench s k v).portB = s.portB ∧ (setBench s k v).eventsA = s.eventsA ∧
    (setBench s k v).eventsB = s.eventsB ∧ (setBench s k v).tieFirst = s.tieFirst ∧ (setBench s k v).sems = s.sems ∧
    (setBench s k v).channels = s.channels ∧ (setBench s k v).lanes = s.lanes ∧ (setBench s k v).groups = s.groups ∧
    (setBench s k v).sources = s.sources ∧ (setBench s k v).captures = s.captures ∧
    (setBench s k v).triggers = s.triggers ∧ (setBench s k v).gpioEdge = s.gpioEdge ∧
    (setBench s k v).routes = s.routes ∧ (setBench s k v).salvos = s.salvos ∧
    (setBench s k v).finishedSalvos = s.finishedSalvos ∧ (setBench s k v).nextSalvo = s.nextSalvo ∧
    (setBench s k v).tally = s.tally ∧ (setBench s k v).gpioIn = s.gpioIn ∧ (setBench s k v).gpioOut = s.gpioOut ∧
    (setBench s k v).spares = s.spares ∧ (setBench s k v).crushers = s.crushers ∧
    (setBench s k v).contexts = s.contexts ∧ (setBench s k v).conv = s.conv ∧ (setBench s k v).tables = s.tables ∧
    (setBench s k v).profiles = s.profiles ∧ (setBench s k v).tableChanges = s.tableChanges ∧
    (setBench s k v).outputs = s.outputs ∧ (setBench s k v).ashlars = s.ashlars ∧ (setBench s k v).audio = s.audio ∧
    (setBench s k v).aports = s.aports ∧ (setBench s k v).refs = s.refs ∧ (setBench s k v).netPorts = s.netPorts ∧
    (setBench s k v).flows = s.flows ∧ (setBench s k v).adit = s.adit ∧ (setBench s k v).island = s.island ∧
    (setBench s k v).fw = s.fw ∧ (setBench s k v).flash = s.flash ∧ (setBench s k v).rails = s.rails ∧
    (setBench s k v).domains = s.domains ∧ (setBench s k v).fuses = s.fuses ∧ (setBench s k v).tap = s.tap := by
  repeat' (first | rfl | constructor)

@[simp] theorem onFm_frame (s : State) (f : Foreman → Foreman) :
    (onFm s f).pending = s.pending ∧ (onFm s f).free = s.free ∧ (onFm s f).now = s.now ∧
    (onFm s f).readyAt = s.readyAt ∧ (onFm s f).uptime = s.uptime ∧ (onFm s f).product = s.product ∧
    (onFm s f).ready = s.ready ∧ (onFm s f).updating = s.updating ∧ (onFm s f).pwrWarn = s.pwrWarn ∧
    (onFm s f).bootWait = s.bootWait ∧ (onFm s f).fuseSense = s.fuseSense ∧ (onFm s f).portA = s.portA ∧
    (onFm s f).portB = s.portB ∧ (onFm s f).eventsA = s.eventsA ∧ (onFm s f).eventsB = s.eventsB ∧
    (onFm s f).tieFirst = s.tieFirst ∧ (onFm s f).sems = s.sems ∧ (onFm s f).channels = s.channels ∧
    (onFm s f).lanes = s.lanes ∧ (onFm s f).groups = s.groups ∧ (onFm s f).sources = s.sources ∧
    (onFm s f).store = s.store ∧ (onFm s f).captures = s.captures ∧ (onFm s f).triggers = s.triggers ∧
    (onFm s f).gpioEdge = s.gpioEdge ∧ (onFm s f).routes = s.routes ∧ (onFm s f).salvos = s.salvos ∧
    (onFm s f).finishedSalvos = s.finishedSalvos ∧ (onFm s f).nextSalvo = s.nextSalvo ∧ (onFm s f).tally = s.tally ∧
    (onFm s f).gpioIn = s.gpioIn ∧ (onFm s f).gpioOut = s.gpioOut ∧ (onFm s f).spares = s.spares ∧
    (onFm s f).crushers = s.crushers ∧ (onFm s f).contexts = s.contexts ∧ (onFm s f).conv = s.conv ∧
    (onFm s f).tables = s.tables ∧ (onFm s f).profiles = s.profiles ∧ (onFm s f).tableChanges = s.tableChanges ∧
    (onFm s f).outputs = s.outputs ∧ (onFm s f).ashlars = s.ashlars ∧ (onFm s f).audio = s.audio ∧
    (onFm s f).aports = s.aports ∧ (onFm s f).refs = s.refs ∧ (onFm s f).netPorts = s.netPorts ∧
    (onFm s f).flows = s.flows ∧ (onFm s f).adit = s.adit ∧ (onFm s f).island = s.island ∧ (onFm s f).fw = s.fw ∧
    (onFm s f).flash = s.flash ∧ (onFm s f).rails = s.rails ∧ (onFm s f).domains = s.domains ∧
    (onFm s f).fuses = s.fuses ∧ (onFm s f).tap = s.tap := by
  repeat' (first | rfl | constructor)

@[simp] theorem onFm_fm (s : State) (f : Foreman → Foreman) : (onFm s f).fm = f s.fm := rfl

@[simp] theorem onAdit_frame (s : State) (f : Adit → Adit) :
    (onAdit s f).pending = s.pending ∧ (onAdit s f).free = s.free ∧ (onAdit s f).now = s.now ∧
    (onAdit s f).readyAt = s.readyAt ∧ (onAdit s f).uptime = s.uptime ∧ (onAdit s f).product = s.product ∧
    (onAdit s f).ready = s.ready ∧ (onAdit s f).updating = s.updating ∧ (onAdit s f).pwrWarn = s.pwrWarn ∧
    (onAdit s f).bootWait = s.bootWait ∧ (onAdit s f).fuseSense = s.fuseSense ∧ (onAdit s f).fm = s.fm ∧
    (onAdit s f).portA = s.portA ∧ (onAdit s f).portB = s.portB ∧ (onAdit s f).eventsA = s.eventsA ∧
    (onAdit s f).eventsB = s.eventsB ∧ (onAdit s f).tieFirst = s.tieFirst ∧ (onAdit s f).sems = s.sems ∧
    (onAdit s f).channels = s.channels ∧ (onAdit s f).lanes = s.lanes ∧ (onAdit s f).groups = s.groups ∧
    (onAdit s f).sources = s.sources ∧ (onAdit s f).store = s.store ∧ (onAdit s f).captures = s.captures ∧
    (onAdit s f).triggers = s.triggers ∧ (onAdit s f).gpioEdge = s.gpioEdge ∧ (onAdit s f).routes = s.routes ∧
    (onAdit s f).salvos = s.salvos ∧ (onAdit s f).finishedSalvos = s.finishedSalvos ∧
    (onAdit s f).nextSalvo = s.nextSalvo ∧ (onAdit s f).tally = s.tally ∧ (onAdit s f).gpioIn = s.gpioIn ∧
    (onAdit s f).gpioOut = s.gpioOut ∧ (onAdit s f).spares = s.spares ∧ (onAdit s f).crushers = s.crushers ∧
    (onAdit s f).contexts = s.contexts ∧ (onAdit s f).conv = s.conv ∧ (onAdit s f).tables = s.tables ∧
    (onAdit s f).profiles = s.profiles ∧ (onAdit s f).tableChanges = s.tableChanges ∧
    (onAdit s f).outputs = s.outputs ∧ (onAdit s f).ashlars = s.ashlars ∧ (onAdit s f).audio = s.audio ∧
    (onAdit s f).aports = s.aports ∧ (onAdit s f).refs = s.refs ∧ (onAdit s f).netPorts = s.netPorts ∧
    (onAdit s f).flows = s.flows ∧ (onAdit s f).island = s.island ∧ (onAdit s f).fw = s.fw ∧
    (onAdit s f).flash = s.flash ∧ (onAdit s f).rails = s.rails ∧ (onAdit s f).domains = s.domains ∧
    (onAdit s f).fuses = s.fuses ∧ (onAdit s f).tap = s.tap := by
  repeat' (first | rfl | constructor)

@[simp] theorem onAdit_adit (s : State) (f : Adit → Adit) : (onAdit s f).adit = f s.adit := rfl

@[simp] theorem onFw_frame (s : State) (f : Firmware → Firmware) :
    (onFw s f).pending = s.pending ∧ (onFw s f).free = s.free ∧ (onFw s f).now = s.now ∧
    (onFw s f).readyAt = s.readyAt ∧ (onFw s f).uptime = s.uptime ∧ (onFw s f).product = s.product ∧
    (onFw s f).ready = s.ready ∧ (onFw s f).updating = s.updating ∧ (onFw s f).pwrWarn = s.pwrWarn ∧
    (onFw s f).bootWait = s.bootWait ∧ (onFw s f).fuseSense = s.fuseSense ∧ (onFw s f).fm = s.fm ∧
    (onFw s f).portA = s.portA ∧ (onFw s f).portB = s.portB ∧ (onFw s f).eventsA = s.eventsA ∧
    (onFw s f).eventsB = s.eventsB ∧ (onFw s f).tieFirst = s.tieFirst ∧ (onFw s f).sems = s.sems ∧
    (onFw s f).channels = s.channels ∧ (onFw s f).lanes = s.lanes ∧ (onFw s f).groups = s.groups ∧
    (onFw s f).sources = s.sources ∧ (onFw s f).store = s.store ∧ (onFw s f).captures = s.captures ∧
    (onFw s f).triggers = s.triggers ∧ (onFw s f).gpioEdge = s.gpioEdge ∧ (onFw s f).routes = s.routes ∧
    (onFw s f).salvos = s.salvos ∧ (onFw s f).finishedSalvos = s.finishedSalvos ∧
    (onFw s f).nextSalvo = s.nextSalvo ∧ (onFw s f).tally = s.tally ∧ (onFw s f).gpioIn = s.gpioIn ∧
    (onFw s f).gpioOut = s.gpioOut ∧ (onFw s f).spares = s.spares ∧ (onFw s f).crushers = s.crushers ∧
    (onFw s f).contexts = s.contexts ∧ (onFw s f).conv = s.conv ∧ (onFw s f).tables = s.tables ∧
    (onFw s f).profiles = s.profiles ∧ (onFw s f).tableChanges = s.tableChanges ∧ (onFw s f).outputs = s.outputs ∧
    (onFw s f).ashlars = s.ashlars ∧ (onFw s f).audio = s.audio ∧ (onFw s f).aports = s.aports ∧
    (onFw s f).refs = s.refs ∧ (onFw s f).netPorts = s.netPorts ∧ (onFw s f).flows = s.flows ∧
    (onFw s f).adit = s.adit ∧ (onFw s f).island = s.island ∧ (onFw s f).flash = s.flash ∧
    (onFw s f).rails = s.rails ∧ (onFw s f).domains = s.domains ∧ (onFw s f).fuses = s.fuses ∧
    (onFw s f).tap = s.tap := by
  repeat' (first | rfl | constructor)

@[simp] theorem onFw_fw (s : State) (f : Firmware → Firmware) : (onFw s f).fw = f s.fw := rfl

@[simp] theorem onFlash_frame (s : State) (f : Flash → Flash) :
    (onFlash s f).pending = s.pending ∧ (onFlash s f).free = s.free ∧ (onFlash s f).now = s.now ∧
    (onFlash s f).readyAt = s.readyAt ∧ (onFlash s f).uptime = s.uptime ∧ (onFlash s f).product = s.product ∧
    (onFlash s f).ready = s.ready ∧ (onFlash s f).updating = s.updating ∧ (onFlash s f).pwrWarn = s.pwrWarn ∧
    (onFlash s f).bootWait = s.bootWait ∧ (onFlash s f).fuseSense = s.fuseSense ∧ (onFlash s f).fm = s.fm ∧
    (onFlash s f).portA = s.portA ∧ (onFlash s f).portB = s.portB ∧ (onFlash s f).eventsA = s.eventsA ∧
    (onFlash s f).eventsB = s.eventsB ∧ (onFlash s f).tieFirst = s.tieFirst ∧ (onFlash s f).sems = s.sems ∧
    (onFlash s f).channels = s.channels ∧ (onFlash s f).lanes = s.lanes ∧ (onFlash s f).groups = s.groups ∧
    (onFlash s f).sources = s.sources ∧ (onFlash s f).store = s.store ∧ (onFlash s f).captures = s.captures ∧
    (onFlash s f).triggers = s.triggers ∧ (onFlash s f).gpioEdge = s.gpioEdge ∧ (onFlash s f).routes = s.routes ∧
    (onFlash s f).salvos = s.salvos ∧ (onFlash s f).finishedSalvos = s.finishedSalvos ∧
    (onFlash s f).nextSalvo = s.nextSalvo ∧ (onFlash s f).tally = s.tally ∧ (onFlash s f).gpioIn = s.gpioIn ∧
    (onFlash s f).gpioOut = s.gpioOut ∧ (onFlash s f).spares = s.spares ∧ (onFlash s f).crushers = s.crushers ∧
    (onFlash s f).contexts = s.contexts ∧ (onFlash s f).conv = s.conv ∧ (onFlash s f).tables = s.tables ∧
    (onFlash s f).profiles = s.profiles ∧ (onFlash s f).tableChanges = s.tableChanges ∧
    (onFlash s f).outputs = s.outputs ∧ (onFlash s f).ashlars = s.ashlars ∧ (onFlash s f).audio = s.audio ∧
    (onFlash s f).aports = s.aports ∧ (onFlash s f).refs = s.refs ∧ (onFlash s f).netPorts = s.netPorts ∧
    (onFlash s f).flows = s.flows ∧ (onFlash s f).adit = s.adit ∧ (onFlash s f).island = s.island ∧
    (onFlash s f).fw = s.fw ∧ (onFlash s f).rails = s.rails ∧ (onFlash s f).domains = s.domains ∧
    (onFlash s f).fuses = s.fuses ∧ (onFlash s f).tap = s.tap := by
  repeat' (first | rfl | constructor)

@[simp] theorem onFlash_flash (s : State) (f : Flash → Flash) : (onFlash s f).flash = appendRecord s.flash (f s.flash) := rfl

@[simp] theorem appendRecord_genFloor (o n : Flash) : (appendRecord o n).genFloor = n.genFloor := rfl

@[simp] theorem appendRecord_confirmed (o n : Flash) : (appendRecord o n).confirmed = n.confirmed := rfl

@[simp] theorem appendRecord_trial (o n : Flash) : (appendRecord o n).trial = n.trial := rfl

@[simp] theorem appendRecord_bootOnce (o n : Flash) : (appendRecord o n).bootOnce = n.bootOnce := rfl

@[simp] theorem appendRecord_locked (o n : Flash) : (appendRecord o n).locked = n.locked := rfl

@[simp] theorem appendRecord_lockDigest (o n : Flash) : (appendRecord o n).lockDigest = n.lockDigest := rfl

@[simp] theorem appendRecord_healthS (o n : Flash) : (appendRecord o n).healthS = n.healthS := rfl

@[simp] theorem appendRecord_slot0 (o n : Flash) : (appendRecord o n).slot0 = n.slot0 := rfl

@[simp] theorem appendRecord_slot1 (o n : Flash) : (appendRecord o n).slot1 = n.slot1 := rfl

@[simp] theorem appendRecord_erase0 (o n : Flash) : (appendRecord o n).erase0 = n.erase0 := rfl

@[simp] theorem appendRecord_erase1 (o n : Flash) : (appendRecord o n).erase1 = n.erase1 := rfl

@[simp] theorem appendRecord_retired0 (o n : Flash) : (appendRecord o n).retired0 = n.retired0 := rfl

@[simp] theorem appendRecord_retired1 (o n : Flash) : (appendRecord o n).retired1 = n.retired1 := rfl

@[simp] theorem appendRecord_area0 (o n : Flash) : (appendRecord o n).area0 = n.area0 := rfl

@[simp] theorem appendRecord_area1 (o n : Flash) : (appendRecord o n).area1 = n.area1 := rfl

@[simp] theorem onIsland_frame (s : State) (f : Island → Island) :
    (onIsland s f).pending = s.pending ∧ (onIsland s f).free = s.free ∧ (onIsland s f).now = s.now ∧
    (onIsland s f).readyAt = s.readyAt ∧ (onIsland s f).uptime = s.uptime ∧ (onIsland s f).product = s.product ∧
    (onIsland s f).ready = s.ready ∧ (onIsland s f).updating = s.updating ∧ (onIsland s f).pwrWarn = s.pwrWarn ∧
    (onIsland s f).bootWait = s.bootWait ∧ (onIsland s f).fuseSense = s.fuseSense ∧ (onIsland s f).fm = s.fm ∧
    (onIsland s f).portA = s.portA ∧ (onIsland s f).portB = s.portB ∧ (onIsland s f).eventsA = s.eventsA ∧
    (onIsland s f).eventsB = s.eventsB ∧ (onIsland s f).tieFirst = s.tieFirst ∧ (onIsland s f).sems = s.sems ∧
    (onIsland s f).channels = s.channels ∧ (onIsland s f).lanes = s.lanes ∧ (onIsland s f).groups = s.groups ∧
    (onIsland s f).sources = s.sources ∧ (onIsland s f).store = s.store ∧ (onIsland s f).captures = s.captures ∧
    (onIsland s f).triggers = s.triggers ∧ (onIsland s f).gpioEdge = s.gpioEdge ∧ (onIsland s f).routes = s.routes ∧
    (onIsland s f).salvos = s.salvos ∧ (onIsland s f).finishedSalvos = s.finishedSalvos ∧
    (onIsland s f).nextSalvo = s.nextSalvo ∧ (onIsland s f).tally = s.tally ∧ (onIsland s f).gpioIn = s.gpioIn ∧
    (onIsland s f).gpioOut = s.gpioOut ∧ (onIsland s f).spares = s.spares ∧ (onIsland s f).crushers = s.crushers ∧
    (onIsland s f).contexts = s.contexts ∧ (onIsland s f).conv = s.conv ∧ (onIsland s f).tables = s.tables ∧
    (onIsland s f).profiles = s.profiles ∧ (onIsland s f).tableChanges = s.tableChanges ∧
    (onIsland s f).outputs = s.outputs ∧ (onIsland s f).ashlars = s.ashlars ∧ (onIsland s f).audio = s.audio ∧
    (onIsland s f).aports = s.aports ∧ (onIsland s f).refs = s.refs ∧ (onIsland s f).netPorts = s.netPorts ∧
    (onIsland s f).flows = s.flows ∧ (onIsland s f).adit = s.adit ∧ (onIsland s f).fw = s.fw ∧
    (onIsland s f).flash = s.flash ∧ (onIsland s f).rails = s.rails ∧ (onIsland s f).domains = s.domains ∧
    (onIsland s f).fuses = s.fuses ∧ (onIsland s f).tap = s.tap := by
  repeat' (first | rfl | constructor)

@[simp] theorem onIsland_island (s : State) (f : Island → Island) : (onIsland s f).island = f s.island := rfl

@[simp] theorem setPort_frame (s : State) (p : Port) (v : PortState) :
    (setPort s p v).pending = s.pending ∧ (setPort s p v).free = s.free ∧ (setPort s p v).now = s.now ∧
    (setPort s p v).readyAt = s.readyAt ∧ (setPort s p v).uptime = s.uptime ∧ (setPort s p v).product = s.product ∧
    (setPort s p v).ready = s.ready ∧ (setPort s p v).updating = s.updating ∧ (setPort s p v).pwrWarn = s.pwrWarn ∧
    (setPort s p v).bootWait = s.bootWait ∧ (setPort s p v).fuseSense = s.fuseSense ∧ (setPort s p v).fm = s.fm ∧
    (setPort s p v).eventsA = s.eventsA ∧ (setPort s p v).eventsB = s.eventsB ∧
    (setPort s p v).tieFirst = s.tieFirst ∧ (setPort s p v).sems = s.sems ∧ (setPort s p v).channels = s.channels ∧
    (setPort s p v).lanes = s.lanes ∧ (setPort s p v).groups = s.groups ∧ (setPort s p v).sources = s.sources ∧
    (setPort s p v).store = s.store ∧ (setPort s p v).captures = s.captures ∧ (setPort s p v).triggers = s.triggers ∧
    (setPort s p v).gpioEdge = s.gpioEdge ∧ (setPort s p v).routes = s.routes ∧ (setPort s p v).salvos = s.salvos ∧
    (setPort s p v).finishedSalvos = s.finishedSalvos ∧ (setPort s p v).nextSalvo = s.nextSalvo ∧
    (setPort s p v).tally = s.tally ∧ (setPort s p v).gpioIn = s.gpioIn ∧ (setPort s p v).gpioOut = s.gpioOut ∧
    (setPort s p v).spares = s.spares ∧ (setPort s p v).crushers = s.crushers ∧
    (setPort s p v).contexts = s.contexts ∧ (setPort s p v).conv = s.conv ∧ (setPort s p v).tables = s.tables ∧
    (setPort s p v).profiles = s.profiles ∧ (setPort s p v).tableChanges = s.tableChanges ∧
    (setPort s p v).outputs = s.outputs ∧ (setPort s p v).ashlars = s.ashlars ∧ (setPort s p v).audio = s.audio ∧
    (setPort s p v).aports = s.aports ∧ (setPort s p v).refs = s.refs ∧ (setPort s p v).netPorts = s.netPorts ∧
    (setPort s p v).flows = s.flows ∧ (setPort s p v).adit = s.adit ∧ (setPort s p v).island = s.island ∧
    (setPort s p v).fw = s.fw ∧ (setPort s p v).flash = s.flash ∧ (setPort s p v).rails = s.rails ∧
    (setPort s p v).domains = s.domains ∧ (setPort s p v).fuses = s.fuses ∧ (setPort s p v).tap = s.tap := by
  cases p <;> repeat' (first | rfl | constructor)

@[simp] theorem setCounts_frame (s : State) (p : Port) (v : EventCounts) :
    (setCounts s p v).pending = s.pending ∧ (setCounts s p v).free = s.free ∧ (setCounts s p v).now = s.now ∧
    (setCounts s p v).readyAt = s.readyAt ∧ (setCounts s p v).uptime = s.uptime ∧
    (setCounts s p v).product = s.product ∧ (setCounts s p v).ready = s.ready ∧
    (setCounts s p v).updating = s.updating ∧ (setCounts s p v).pwrWarn = s.pwrWarn ∧
    (setCounts s p v).bootWait = s.bootWait ∧ (setCounts s p v).fuseSense = s.fuseSense ∧
    (setCounts s p v).fm = s.fm ∧ (setCounts s p v).portA = s.portA ∧ (setCounts s p v).portB = s.portB ∧
    (setCounts s p v).tieFirst = s.tieFirst ∧ (setCounts s p v).sems = s.sems ∧
    (setCounts s p v).channels = s.channels ∧ (setCounts s p v).lanes = s.lanes ∧
    (setCounts s p v).groups = s.groups ∧ (setCounts s p v).sources = s.sources ∧ (setCounts s p v).store = s.store ∧
    (setCounts s p v).captures = s.captures ∧ (setCounts s p v).triggers = s.triggers ∧
    (setCounts s p v).gpioEdge = s.gpioEdge ∧ (setCounts s p v).routes = s.routes ∧
    (setCounts s p v).salvos = s.salvos ∧ (setCounts s p v).finishedSalvos = s.finishedSalvos ∧
    (setCounts s p v).nextSalvo = s.nextSalvo ∧ (setCounts s p v).tally = s.tally ∧
    (setCounts s p v).gpioIn = s.gpioIn ∧ (setCounts s p v).gpioOut = s.gpioOut ∧
    (setCounts s p v).spares = s.spares ∧ (setCounts s p v).crushers = s.crushers ∧
    (setCounts s p v).contexts = s.contexts ∧ (setCounts s p v).conv = s.conv ∧ (setCounts s p v).tables = s.tables ∧
    (setCounts s p v).profiles = s.profiles ∧ (setCounts s p v).tableChanges = s.tableChanges ∧
    (setCounts s p v).outputs = s.outputs ∧ (setCounts s p v).ashlars = s.ashlars ∧
    (setCounts s p v).audio = s.audio ∧ (setCounts s p v).aports = s.aports ∧ (setCounts s p v).refs = s.refs ∧
    (setCounts s p v).netPorts = s.netPorts ∧ (setCounts s p v).flows = s.flows ∧ (setCounts s p v).adit = s.adit ∧
    (setCounts s p v).island = s.island ∧ (setCounts s p v).fw = s.fw ∧ (setCounts s p v).flash = s.flash ∧
    (setCounts s p v).rails = s.rails ∧ (setCounts s p v).domains = s.domains ∧ (setCounts s p v).fuses = s.fuses ∧
    (setCounts s p v).tap = s.tap := by
  cases p <;> repeat' (first | rfl | constructor)

/-! ### What an update writes, and the other units of its table -/

@[simp] theorem getSem_setSem_self (s : State) (c : Nat) (v : SemCell) : getSem (setSem s c v) c = v := by simp [getSem, setSem]

theorem getSem_setSem_other (s : State) (c j : Nat) (v : SemCell) (h : j ≠ c) : getSem (setSem s c v) j = getSem s j :=
  Tab.get_set_other _ _ _ _ _ h

@[simp] theorem getLane_setLane_self (s : State) (i : Nat) (v : Lane) : getLane (setLane s i v) i = v := by simp [getLane, setLane]

theorem getLane_setLane_other (s : State) (i j : Nat) (v : Lane) (h : j ≠ i) : getLane (setLane s i v) j = getLane s j :=
  Tab.get_set_other _ _ _ _ _ h

@[simp] theorem getGroup_setGroup_self (s : State) (i : Nat) (v : TxGroup) : getGroup (setGroup s i v) i = v := by simp [getGroup, setGroup]

theorem getGroup_setGroup_other (s : State) (i j : Nat) (v : TxGroup) (h : j ≠ i) : getGroup (setGroup s i v) j = getGroup s j :=
  Tab.get_set_other _ _ _ _ _ h

@[simp] theorem getSource_setSource_self (s : State) (i : Nat) (v : Source) : getSource (setSource s i v) i = v := by simp [getSource, setSource]

theorem getSource_setSource_other (s : State) (i j : Nat) (v : Source) (h : j ≠ i) : getSource (setSource s i v) j = getSource s j :=
  Tab.get_set_other _ _ _ _ _ h

@[simp] theorem getRoute_setRoute_self (s : State) (d : Nat) (v : Route) : getRoute (setRoute s d v) d = v := by simp [getRoute, setRoute]

theorem getRoute_setRoute_other (s : State) (d j : Nat) (v : Route) (h : j ≠ d) : getRoute (setRoute s d v) j = getRoute s j :=
  Tab.get_set_other _ _ _ _ _ h

@[simp] theorem getSalvo_setSalvo_self (s : State) (i : Nat) (v : Salvo) : getSalvo (setSalvo s i v) i = v := by simp [getSalvo, setSalvo]

theorem getSalvo_setSalvo_other (s : State) (i j : Nat) (v : Salvo) (h : j ≠ i) : getSalvo (setSalvo s i v) j = getSalvo s j :=
  Tab.get_set_other _ _ _ _ _ h

@[simp] theorem getCrusher_setCrusher_self (s : State) (k : Nat) (v : Crusher) : getCrusher (setCrusher s k v) k = v := by simp [getCrusher, setCrusher]

theorem getCrusher_setCrusher_other (s : State) (k j : Nat) (v : Crusher) (h : j ≠ k) : getCrusher (setCrusher s k v) j = getCrusher s j :=
  Tab.get_set_other _ _ _ _ _ h

@[simp] theorem getConv_setConv_self (s : State) (d : Nat) (v : ConvCounts) : getConv (setConv s d v) d = v := by simp [getConv, setConv]

theorem getConv_setConv_other (s : State) (d j : Nat) (v : ConvCounts) (h : j ≠ d) : getConv (setConv s d v) j = getConv s j :=
  Tab.get_set_other _ _ _ _ _ h

@[simp] theorem getOutput_setOutput_self (s : State) (d : Nat) (v : Output) : getOutput (setOutput s d v) d = v := by simp [getOutput, setOutput]

theorem getOutput_setOutput_other (s : State) (d j : Nat) (v : Output) (h : j ≠ d) : getOutput (setOutput s d v) j = getOutput s j :=
  Tab.get_set_other _ _ _ _ _ h

@[simp] theorem getAshlar_setAshlar_self (s : State) (k : Nat) (v : Ashlar) : getAshlar (setAshlar s k v) k = v := by simp [getAshlar, setAshlar]

theorem getAshlar_setAshlar_other (s : State) (k j : Nat) (v : Ashlar) (h : j ≠ k) : getAshlar (setAshlar s k v) j = getAshlar s j :=
  Tab.get_set_other _ _ _ _ _ h

@[simp] theorem getAsrc_setAsrc_self (s : State) (c : Nat) (v : AudioSource) : getAsrc (setAsrc s c v) c = v := by simp [getAsrc, setAsrc]

theorem getAsrc_setAsrc_other (s : State) (c j : Nat) (v : AudioSource) (h : j ≠ c) : getAsrc (setAsrc s c v) j = getAsrc s j :=
  Tab.get_set_other _ _ _ _ _ h

@[simp] theorem getAdest_setAdest_self (s : State) (c : Nat) (v : AudioDest) : getAdest (setAdest s c v) c = v := by simp [getAdest, setAdest]

theorem getAdest_setAdest_other (s : State) (c j : Nat) (v : AudioDest) (h : j ≠ c) : getAdest (setAdest s c v) j = getAdest s j :=
  Tab.get_set_other _ _ _ _ _ h

@[simp] theorem getAport_setAport_self (s : State) (p : Nat) (v : AudioPort) : getAport (setAport s p v) p = v := by simp [getAport, setAport]

theorem getAport_setAport_other (s : State) (p j : Nat) (v : AudioPort) (h : j ≠ p) : getAport (setAport s p v) j = getAport s j :=
  Tab.get_set_other _ _ _ _ _ h

@[simp] theorem getRef_setRef_self (s : State) (e : Nat) (v : RefEngine) : getRef (setRef s e v) e = v := by simp [getRef, setRef]

theorem getRef_setRef_other (s : State) (e j : Nat) (v : RefEngine) (h : j ≠ e) : getRef (setRef s e v) j = getRef s j :=
  Tab.get_set_other _ _ _ _ _ h

@[simp] theorem getRefInput_setRefInput_self (s : State) (i : Nat) (v : RefInput) : getRefInput (setRefInput s i v) i = v := by simp [getRefInput, setRefInput]

theorem getRefInput_setRefInput_other (s : State) (i j : Nat) (v : RefInput) (h : j ≠ i) : getRefInput (setRefInput s i v) j = getRefInput s j :=
  Tab.get_set_other _ _ _ _ _ h

@[simp] theorem getClk_setClk_self (s : State) (k : Nat) (v : ClkOut) : getClk (setClk s k v) k = v := by simp [getClk, setClk]

theorem getClk_setClk_other (s : State) (k j : Nat) (v : ClkOut) (h : j ≠ k) : getClk (setClk s k v) j = getClk s j :=
  Tab.get_set_other _ _ _ _ _ h

@[simp] theorem getNet_setNet_self (s : State) (p : Nat) (v : NetPort) : getNet (setNet s p v) p = v := by simp [getNet, setNet]

theorem getNet_setNet_other (s : State) (p j : Nat) (v : NetPort) (h : j ≠ p) : getNet (setNet s p v) j = getNet s j :=
  Tab.get_set_other _ _ _ _ _ h

@[simp] theorem getFlow_setFlow_self (s : State) (k : Nat) (v : Flow) : getFlow (setFlow s k v) k = v := by simp [getFlow, setFlow]

theorem getFlow_setFlow_other (s : State) (k j : Nat) (v : Flow) (h : j ≠ k) : getFlow (setFlow s k v) j = getFlow s j :=
  Tab.get_set_other _ _ _ _ _ h

@[simp] theorem getTie_setTie_self (s : State) (k : Nat) (v : Tie) : getTie (setTie s k v) k = v := by simp [getTie, setTie]

theorem getTie_setTie_other (s : State) (k j : Nat) (v : Tie) (h : j ≠ k) : getTie (setTie s k v) j = getTie s j :=
  Tab.get_set_other _ _ _ _ _ h

@[simp] theorem getCapture_setCapture_self (s : State) (i : Nat) (v : Capture) : getCapture (setCapture s i v) i = v := by simp [getCapture, setCapture]

theorem getCapture_setCapture_other (s : State) (i j : Nat) (v : Capture) (h : j ≠ i) : getCapture (setCapture s i v) j = getCapture s j :=
  Tab.get_set_other _ _ _ _ _ h

@[simp] theorem getRail_setRail_self (s : State) (r : Nat) (v : Rail) : getRail (setRail s r v) r = v := by simp [getRail, setRail]

theorem getRail_setRail_other (s : State) (r j : Nat) (v : Rail) (h : j ≠ r) : getRail (setRail s r v) j = getRail s j :=
  Tab.get_set_other _ _ _ _ _ h

@[simp] theorem getDomain_setDomain_self (s : State) (d : Nat) (v : Domain) : getDomain (setDomain s d v) d = v := by simp [getDomain, setDomain]

theorem getDomain_setDomain_other (s : State) (d j : Nat) (v : Domain) (h : j ≠ d) : getDomain (setDomain s d v) j = getDomain s j :=
  Tab.get_set_other _ _ _ _ _ h

@[simp] theorem getPort_setPort_self (s : State) (p : Port) (v : PortState) : getPort (setPort s p v) p = v := by cases p <;> rfl

@[simp] theorem getPort_setPort_peer (s : State) (p : Port) (v : PortState) :
    getPort (setPort s p v) p.peer = getPort s p.peer := by cases p <;> rfl

@[simp] theorem getCounts_setCounts_self (s : State) (p : Port) (v : EventCounts) : getCounts (setCounts s p v) p = v := by
  cases p <;> rfl

@[simp] theorem getCounts_setCounts_peer (s : State) (p : Port) (v : EventCounts) :
    getCounts (setCounts s p v) p.peer = getCounts s p.peer := by cases p <;> rfl

/-! ### A unit of a table that stands -/

theorem getSem_of_sems {s t : State} (h : t.sems = s.sems) (i : Nat) : getSem t i = getSem s i := by simp [getSem, h]

theorem getLane_of_lanes {s t : State} (h : t.lanes = s.lanes) (i : Nat) : getLane t i = getLane s i := by simp [getLane, h]

theorem getSource_of_sources {s t : State} (h : t.sources = s.sources) (i : Nat) : getSource t i = getSource s i := by simp [getSource, h]

theorem getRoute_of_routes {s t : State} (h : t.routes = s.routes) (i : Nat) : getRoute t i = getRoute s i := by simp [getRoute, h]

theorem getOutput_of_outputs {s t : State} (h : t.outputs = s.outputs) (i : Nat) : getOutput t i = getOutput s i := by simp [getOutput, h]

theorem getDomain_of_domains {s t : State} (h : t.domains = s.domains) (i : Nat) : getDomain t i = getDomain s i := by simp [getDomain, h]

theorem getFlow_of_flows {s t : State} (h : t.flows = s.flows) (i : Nat) : getFlow t i = getFlow s i := by simp [getFlow, h]

theorem getNet_of_netPorts {s t : State} (h : t.netPorts = s.netPorts) (i : Nat) : getNet t i = getNet s i := by simp [getNet, h]

end Sys2Proof.Machine
end

