-- ==== Sys2Proof/Laws/Step.lean ====
section
/-! SUPPORT. What a step does: no command stops the machine. -/

namespace Sys2Proof.Machine

/-- Every command answers a next state: the machine has no fault (R96), and no arm refuses. -/
theorem exec_next (i : Instr) (s : State) : ∃ t, exec i s = .next t := by
  cases i <;> first
    | exact ⟨_, rfl⟩
    | (simp only [exec, execAdaptationDone, execAditMarker, execAditPeriod, execAfsAbsent, execAlignFound,
         execAlignLost, execAlignMeasure, execAncPacket, execApplyComplete, execApplySwitch, execArpTimer,
         execAsrcRelease, execAudioHalfIdleTimeout, execAudioSampleWrite, execAutoAlignSlip, execAwaitedCompletion,
         execBenchShrinkDone, execBurstSlip, execCaptureBlock, execCaptureRead, execCdrLock, execCdrLockLoss,
         execClkoutStarted, execCrusherIdleTimeout, execCut, execDomainOff, execDmaJobEnd, execDomainWake, execDoorbell,
         execFlowSilent,
         execFrameClose, execGpiEdge, execGpiQualified, execGroupPllLocked, execHealthWindowExpired,
         execHeldLossHoldExpired, execHoldoverExpired, execHostSourceStall, execIgmpReportTimer, execInstallDone,
         execJournalAdvanced, execLanePrbsSyncLost, execLaneRecentre, execLatchCycle, execLineReceived,
         execLineRelease, execLinkTrained, execLoaderStart, execLossHoldExpired, execMailboxBufferWrite,
         execMainPwrEnFall, execMemRefreshDoubled, execModerationTimer, execNetAddress, execNetLeg, execNetLink,
         execNresetRise, execNwake, execOffloadPacket, execOutputBlank, execOutputFrameStart, execOutputLine,
         execOutputUnderrun, execPacketReceived, execPacketSend, execPerstDeassert, execPiLimit, execPortClockLoss,
         execPortRateUpdate, execPortReset, execPrbsSync, execPtpMessage, execQsfpPresentChange, execQuietCleared,
         execRateHuntStep, execRateRange, execRateUpdate, execReady, execRegisterWrite, execRestoreTimer,
         execSampleSlip, execSelfCheckDone, execSemAcquire, execServoTick, execSettingsWrite, execSignalDetected, execSignalLost,
         execSignatureMeasured, execSourceLockQualified, execStageDone, execStageTimeout, execStandby100MsMark,
         execStartBlockPoll, execSwitchInstant, execTrackingStep, execTrsLock, execTrsTimeout, execWindowRead,
         execWindowWrite, execWtrExpired]
       (repeat' split) <;> exact ⟨_, rfl⟩)

theorem step_next (s : State) : ∃ t, step s = .next t := by
  unfold step; split
  · exact ⟨_, rfl⟩
  · exact exec_next _ _

/-- Every run goes on: no step of it stops. -/
theorem safeRun_all (n : Nat) (s : State) : SafeRun n s := by
  induction n generalizing s with
  | zero => trivial
  | succ n ih => exact (step_next s).imp fun t h => ⟨h, ih t⟩

end Sys2Proof.Machine
end

