-- ==== Sys2Proof/Machine/Matrix.lean ====
section
/-! DEFINITION. The internal matrix (18): its masters, targets and paths, its address map under REMAP, which request waits, and
which master a target serves next. The rows run one at a time, so no two requests of theirs are ever in flight together; what
they order and answer agrees with these definitions (log entry 126). -/

namespace Sys2Proof.Machine

/-- The masters (R487). -/
inductive Master where
  | foreman (core : Fin 4)
  | port (p : Port)
  | audioDma
  | offload
  | laneSequencer
  deriving DecidableEq, Repr

/-- The targets (R487). -/
inductive Target where
  | bootRom
  | sram
  | frameStore
  | bridge
  | fuses
  | qspi
  deriving DecidableEq, Repr

/-- The paths that exist (R487). -/
def pathExists : Master → Target → Bool
  | .foreman _, _ => true
  | .port _, t => t == .frameStore || t == .bridge
  | .audioDma, t => t == .frameStore
  | .offload, t => t == .sram || t == .frameStore || t == .bridge
  | .laneSequencer, t => t == .bridge

/-- What a matrix address decodes to (R488): the target and the offset inside it; nothing where no target lies. -/
def decodeAddress (remap : Bool) (a : Nat) : Option (Target × Nat) :=
  if a < 0x400000 then
    if remap then some (.sram, a) else if a < 0x40000 then some (.bootRom, a) else none
  else if 0x10000000 ≤ a ∧ a < 0x10040000 then some (.bootRom, a - 0x10000000)
  else if 0x20000000 ≤ a ∧ a < 0x20400000 then some (.sram, a - 0x20000000)
  else if 0x40000000 ≤ a ∧ a < 0x50000000 then some (.bridge, a - 0x40000000)
  else if 0x50000000 ≤ a ∧ a < 0x50001000 then some (.fuses, a - 0x50000000)
  else if (0x51000000 ≤ a ∧ a < 0x51001000) ∨ (0x60000000 ≤ a ∧ a < 0x68000000) then some (.qspi, a - 0x51000000)
  else if 0x800000000 ≤ a ∧ a < 0x1000000000 then some (.frameStore, a - 0x800000000)
  else none

/-- Where a master's request arrives (R487, R488); none is the error answer: no target at the address, or no path to it. -/
def matrixAccess (s : State) (m : Master) (a : Nat) : Option (Target × Nat) :=
  match decodeAddress s.fw.remap a with
  | some t => if pathExists m t.1 then some t else none
  | none => none

/-- The stream a port's request travels on (R492): BAR0 and the windows as one, each DMA engine as its own. -/
inductive PortStream where
  | bars
  | engine (e : Fin 8)
  deriving DecidableEq, Repr

/-- A request outstanding in the matrix: who issued it, on which ID, and where it goes. -/
structure MatrixRequest where
  master : Master
  stream : Nat
  target : Target
  deriving DecidableEq, Repr

/-- The ID number of a stream. -/
def streamId : PortStream → Nat
  | .bars => 0
  | .engine e => e.val + 1

/-- Whether the matrix accepts a request now (R491): its master has fewer than 64 outstanding. -/
def masterAccepts (busy : List MatrixRequest) (r : MatrixRequest) : Bool :=
  decide ((busy.filter fun q => q.master == r.master).length < 64)

/-- Whether an accepted request waits for its own ID (R491): that ID has a request outstanding at a different target. -/
def streamWaits (busy : List MatrixRequest) (r : MatrixRequest) : Bool :=
  busy.any fun q => q.master == r.master && q.stream == r.stream && q.target != r.target

/-- The masters in the order a target's round robin visits them (R490). -/
def masterRing : List Master :=
  [.foreman 0, .foreman 1, .foreman 2, .foreman 3, .port .a, .port .b, .audioDma, .offload, .laneSequencer]

/-- The master a target serves next (R490): the first that asks after the one served last. -/
def nextGranted (last : Master) (asking : Master → Bool) : Option Master :=
  let rest := (masterRing.dropWhile (· != last)).drop 1
  (rest ++ masterRing).find? asking

/-- Time a path adds to a request, and again to its response, in picoseconds (R490): two register slices of two CLK_HAUL cycles
toward the frame store, none elsewhere. -/
def sliceDelay : Target → Nat
  | .frameStore => 2 * 2 * 2500
  | _ => 0

/-- Arbitration before a target takes a request, in picoseconds (R490): none for the master an idle target is parked on. -/
def arbitrationDelay (parked : Option Master) (m : Master) : Nat := if parked = some m then 0 else 2500

end Sys2Proof.Machine
end

