-- ==== Sys2Proof/Machine/Pins.lean ====
section
/-! DEFINITION. What the outside sees of the state without a command: the levels of the output pins (R405, R413, R549,
R552, R564, R570, R571), the PCIe function's configuration values (R38), and the package's ball map (R555-R564). No command
reads these; they are functions of State alone (log entry 95). -/

namespace Sys2Proof.Machine

/-! ### Output pins -/

/-- What an output pin does to its line. -/
inductive Drive where
  /-- Not driven: off, or high-impedance. -/
  | off
  | low
  | high
  /-- Driven by a running unit with its signal. -/
  | signal
  deriving DecidableEq, Repr

/-- nRESET is low (R546, R549). -/
def inReset (s : State) : Bool := s.fw.phase == .inReset

/-- READY_N (R571): it pulls low while READY is 1, and is off in every other case. -/
def readyN (s : State) : Drive := if s.ready then .low else .off

/-- GPIO ball `g` (R549, R570): an open drain that pulls low for a mapped tally and is otherwise off. -/
def gpioDrive (s : State) (g : Nat) : Drive := if s.gpioOut.contains g && !inReset s then .low else .off

/-- The level on GPIO line `g`, the board's own drivers at `board` (R570): low while anything pulls it. -/
def gpioLine (s : State) (g : Nat) (board : Bool) : Bool := board && gpioDrive s g != .low

/-- MAIN_PWR_EN (R549, R552): the island drives it; low when VSTBY is absent. -/
def mainPwrEnDrive (s : State) : Drive := if s.island.powered && s.island.mainPwrEn then .high else .low

/-- QSFP_RESET_N[p], QSFP_LPMODE[p] and QSFP_MODSEL_N[p] away from an access to the module (R413, R549). -/
def qsfpResetN (s : State) (p : Nat) : Drive :=
  if inReset s then .off else if (getNet s p).resetPin then .low else .high

def qsfpLpMode (s : State) (p : Nat) : Drive :=
  if inReset s then .off else if (getNet s p).lowPower then .high else .low

def qsfpModselN (s : State) : Drive := if inReset s then .off else .high

/-- CLKOUT pair `k` (R405, R549): static low until the output runs. -/
def clkoutDrive (s : State) (k : Nat) : Drive :=
  if !inReset s && (getClk s k).running then .signal else .low

/-- The 75 Ω termination of analog reference input `k` (R407, R549, R569): byte 3, bit 0 of REFERENCE.INPUT's fields is
TERM. -/
def refTerminated (s : State) (k : Nat) : Bool :=
  !inReset s && bit (u8 (getRefInput s k).config 3) 0

/-- A lane is enabled by its input, output, port or link, or by a PRBS function (R103). -/
def laneEnabled (s : State) (id : Nat) : Bool := laneInUse s id || (getLane s id).prbs.on

/-- A transmitter pair (R549): high-impedance until its lane is enabled, and while the lane group has no power. -/
def txDrive (s : State) (id : Nat) : Drive :=
  if inReset s || !laneEnabled s id || (laneSet id == 1 && !powered s (0x10 + laneIndex id / 8)) then .off else .signal

/-- The termination of a receiver pair is on while its lane is enabled (R549). -/
def rxTerminated (s : State) (id : Nat) : Bool := !inReset s && laneEnabled s id

/-- A port's PCIe transmitters (R64, R549): electrical idle until the link trains. -/
def pcieDrive (s : State) (p : Port) : Drive := if (getPort s p).link == .down then .off else .signal

/-- APORT_BCLK[p] and APORT_FS[p] (R370, R373): a MASTER that is not OFF drives them. -/
def aportClockDrive (s : State) (p : Nat) : Drive :=
  let x := getAport s p
  if inReset s || x.state == .off || !pcMaster x.config then .off else .signal

/-- APORT_DATA[p] (R370, R374, R375): an output sends while RUNNING and is driven as 0 while LOCKING; a slave whose clock is away
holds it low, or leaves it under TRISTATE. -/
def aportDataDrive (s : State) (p : Nat) : Drive :=
  let x := getAport s p
  if inReset s || !pcOutput x.config then .off
  else match x.state with
    | .off => .off
    | .noClock => if bit (u8 x.config 7) 4 then .off else .low
    | .locking => .low
    | .running => .signal

/-- AFS_SHARE (R379): driven in mode DRIVE alone. -/
def afsShareDrive (s : State) : Drive := if !inReset s && s.refs.shareMode == 1 then .signal else .off

/-- QSPI_CS_N and QSPI_CLK (R549): driven by the ROM from nRESET rising. -/
def qspiDrive (s : State) : Drive := if inReset s then .off else .signal

/-- TDO (R564): high-impedance except in Shift-DR and Shift-IR. -/
def tdoDrive (s : State) : Drive :=
  match tdoLevel s.tap with
  | some true => .high
  | some false => .low
  | none => .off

/-! ### The PCIe function (R38) -/

/-- One base address register as the function presents it. -/
inductive BarKind where
  | absent
  /-- A memory window of 64-bit addresses: its size in bytes, and whether it is prefetchable. -/
  | memory64 (size : Nat) (prefetchable : Bool)
  deriving DecidableEq, Repr

structure ConfigValues where
  vendor : BitVec 16
  device : BitVec 16
  revision : BitVec 8
  classCode : BitVec 24
  subsystemVendor : BitVec 16
  subsystem : BitVec 16
  serial : BitVec 64
  /-- BAR0 to BAR5, and the expansion ROM. -/
  bars : List BarKind
  rom : BarKind
  deriving DecidableEq, Repr

/-- The configuration values that either port reports. -/
def configValues (s : State) : ConfigValues where
  vendor := 0x1E9C
  device := if s.product = .p1264 then 0x1264 else 0x1288
  revision := 0xB0
  classCode := 0x048000
  subsystemVendor := let v := fuseField s 0 0x100 2; if v = 0 then 0x1E9C else BitVec.ofNat 16 v
  subsystem :=
    let v := fuseField s 1 0x102 2
    if v = 0 then (if s.product = .p1264 then 0x1264 else 0x1288) else BitVec.ofNat 16 v
  serial := BitVec.ofNat 64 (serialNumber s)
  bars := [.memory64 (256 * 1024) false, .absent, .memory64 (4 * 1024 ^ 3) true, .absent, .absent, .absent]
  rom := .absent

/-! ### The ball map -/

inductive SupplyRail where
  | vss | vddCore | vddSram | vddMem | vppMem | avddLane | avttLane | avddPll | avddRef | vddio18 | vddio33 | vstby
  deriving DecidableEq, Repr

/-- A differential pair, by the name its two balls share. -/
inductive Pair where
  | sdiIn (n : Nat) | sdiOut (n : Nat) | ethIn (n : Nat) | ethOut (n : Nat) | aditIn (n : Nat) | aditOut (n : Nat)
  | pcieIn (port : Port) (n : Nat) | pcieOut (port : Port) (n : Nat) | pcieRefclk (port : Port) | clkout (n : Nat)
  /-- REF_IN and REF_RTN. -/
  | reference (n : Nat)
  | thermalDiode
  deriving DecidableEq, Repr

/-- A single-ended signal. -/
inductive Single where
  | laneCal (k : Nat) | oscIn | vddCoreSense | vssSense | vddSramSense | vddMemSense | avddLaneSense
  | gpio (g : Nat) | aportBclk (k : Nat) | aportFs (k : Nat) | aportData (k : Nat) | afsShare
  | qsfpModselN (k : Nat) | qsfpResetN (k : Nat) | qsfpLpmode (k : Nat) | qsfpPresentN (k : Nat) | qsfpIntN (k : Nat)
  | i2cScl (k : Nat) | i2cSda (k : Nat) | qspiClk | qspiCsN | qspiDq (k : Nat)
  | bootSrc (k : Nat) | portEn (port : Port) | qspiQuad | fuseSense
  | nReset | nWake | mainPwrEn | pwrWarn | perstN (port : Port) | extclkIn (k : Nat)
  | tck | tms | tdi | tdo | trstN | readyN | testMode (k : Nat)
  deriving DecidableEq, Repr

inductive Ball where
  | supply (rail : SupplyRail)
  | positive (pair : Pair)
  | negative (pair : Pair)
  | single (signal : Single)
  | reserved
  deriving DecidableEq, Repr

/-- The letters that may stand in a row name (R555). -/
def rowLetters : String := "ABCDEFGHJKLMNPTUVWY"

/-- The letter at place `i` of the nineteen. -/
def rowLetter (i : Nat) : String := String.ofList (rowLetters.toList[i]?.toList)

/-- The name of row index `i`, 1-61 (R555). -/
def rowName (i : Nat) : String :=
  let k := i - 1
  (if k < 19 then "" else rowLetter (k / 19 - 1)) ++ rowLetter (k % 19)

/-- The name of the ball at a row and a column (R555). -/
def ballName (row col : Nat) : String := rowName row ++ toString col

/-- The pair site that column `c` of a signal row belongs to, counted from `first`, and whether it is the N ball. -/
def siteOf (first c : Nat) : Option (Nat × Bool) :=
  if c < first ∨ (c - first) % 3 = 2 then none else some ((c - first) / 3, (c - first) % 3 = 1)

def pairBall (p : Pair) (neg : Bool) : Ball := if neg then .negative p else .positive p

/-- The west lane field, and the east one at mirrored columns (R557): `base` is the first lane and `cal` the LANE_CAL. -/
def sideBall (base cal row col : Nat) : Ball :=
  if row % 2 = 0 then
    if col = 3 ∨ col = 9 ∨ col = 15 then .supply .avddLane
    else if col = 6 ∨ col = 12 then .supply .avttLane
    else .supply .vss
  else
    match siteOf 1 col with
    | none => .supply .vss
    | some (i, neg) =>
      let first := if row < 31 then 5 else 31
      let n := 5 * ((row - first) / 2) + i
      if n < 64 then pairBall (if row < 31 then .sdiIn (base + n) else .sdiOut (base + n)) neg
      else if row = 29 ∧ neg = false then .single (.laneCal cal)
      else .supply .vss

/-- A between row of the north field, and row 60 (R558, R559). -/
def betweenBall (col : Nat) : Ball :=
  if col % 6 = 4 then .supply .avddLane else if col % 6 = 1 then .supply .avttLane else .supply .vss

/-- Pair site `s` of the north field (R558). -/
def northSite (s : Nat) (neg : Bool) : Ball :=
  if s < 16 then pairBall (.ethIn s) neg
  else if s < 32 then pairBall (.ethOut (s - 16)) neg
  else if s < 40 then pairBall (.aditIn (s - 32)) neg
  else if s < 48 then pairBall (.aditOut (s - 40)) neg
  else if s = 48 ∧ neg = false then .single (.laneCal 2)
  else .supply .vss

def northBall (row col : Nat) : Ball :=
  if row % 2 = 0 then betweenBall col
  else match siteOf 17 col with
    | none => .supply .vss
    | some (i, neg) => northSite (10 * ((row - 1) / 2) + i) neg

/-- Row 61 of the south differential field (R559). -/
def pcieSite (j : Nat) (neg : Bool) : Ball :=
  let port : Port := if j < 5 then .a else .b
  let k := j % 5
  pairBall (if k < 2 then .pcieIn port k else if k < 4 then .pcieOut port (k - 2) else .pcieRefclk port) neg

/-- Row 59 of the south differential field (R559). -/
def clockSite (j : Nat) (neg : Bool) : Ball :=
  match j, neg with
  | 0, n => pairBall (.clkout 0) n
  | 1, n => pairBall (.clkout 1) n
  | 2, n => pairBall (.reference 0) n
  | 3, n => pairBall (.reference 1) n
  | 4, n => pairBall .thermalDiode n
  | 5, false => .single .oscIn
  | 5, true => .supply .vss
  | 6, false => .single .vddCoreSense
  | 6, true => .single .vssSense
  | 7, false => .single .vddSramSense
  | 7, true => .single .vddMemSense
  | 8, false => .single .avddLaneSense
  | 8, true => .single (.laneCal 3)
  | _, _ => .reserved

def southBall (row col : Nat) : Ball :=
  if row = 60 then betweenBall col
  else match siteOf 17 col with
    | none => .supply .vss
    | some (j, neg) => if row = 61 then pcieSite j neg else clockSite j neg

/-- Signal position `q` of the LVCMOS field (R560). -/
def lvcmosSignal (q : Nat) : Ball :=
  if q < 64 then .single (.gpio q)
  else if q < 112 then
    let k := (q - 64) / 3
    .single (if (q - 64) % 3 = 0 then .aportBclk k else if (q - 64) % 3 = 1 then .aportFs k else .aportData k)
  else if q = 112 then .single .afsShare
  else if q < 133 then
    let k := (q - 113) / 5
    .single (match (q - 113) % 5 with
      | 0 => .qsfpModselN k
      | 1 => .qsfpResetN k
      | 2 => .qsfpLpmode k
      | 3 => .qsfpPresentN k
      | _ => .qsfpIntN k)
  else if q < 137 then .single (if (q - 133) % 2 = 0 then .i2cScl ((q - 133) / 2) else .i2cSda ((q - 133) / 2))
  else if q < 163 then
    match ([.qspiClk, .qspiCsN, .qspiDq 0, .qspiDq 1, .qspiDq 2, .qspiDq 3, .bootSrc 0, .bootSrc 1, .portEn .a, .portEn .b,
        .qspiQuad, .fuseSense, .nReset, .nWake, .mainPwrEn, .pwrWarn, .perstN .a, .perstN .b, .extclkIn 0, .extclkIn 1,
        .tck, .tms, .tdi, .tdo, .trstN, .readyN] : List Single)[q - 137]? with
    | some x => .single x
    | none => .reserved
  else if q < 174 then .single (.testMode (q - 163))
  else .reserved

/-- Row and column of signal position `q` (R560). -/
def lvcmosPlace (q : Nat) : Nat × Nat := (52 + q / 25, 17 + q % 25 + q % 25 / 5)

def lvcmosBall (row col : Nat) : Ball :=
  if col % 6 = 4 then
    if col = 22 ∨ col = 34 then .supply (if row = 56 ∨ row = 57 then .vddio33 else .vddio18) else .supply .vss
  else lvcmosSignal (25 * (row - 52) + 5 * ((col - 17) / 6) + (col - 17) % 6)

/-- The core (R561). -/
def coreBall (row col : Nat) : Ball :=
  if (row + col) % 2 = 1 then .supply .vss
  else if row ≤ 18 ∨ 44 ≤ row then .supply (if col = 16 ∨ col = 46 then .vppMem else .vddMem)
  else .supply (if col ≤ 17 ∨ 45 ≤ col then .vddSram else .vddCore)

/-- The four corners (R561). -/
def cornerBall (row col : Nat) : Ball :=
  let odd := fun (rail : SupplyRail) => if col % 2 = 1 then Ball.supply rail else .supply .vss
  if row = 1 then if col = 1 ∨ col = 61 then .reserved else .supply .vss
  else if row ≤ 4 then odd .avddPll
  else if row = 57 then .supply .vss
  else if row = 58 ∨ row = 60 then odd .vddio18
  else if row = 59 then odd (if col ≤ 15 then .avddRef else .avddPll)
  else if col = 1 ∨ 56 ≤ col then .reserved
  else if col = 3 ∨ col = 5 ∨ col = 7 ∨ col = 9 then .supply .vstby
  else .supply .vss

/-- What the ball at row index `row` and column `col` is (R556-R561). -/
def ballAt (row col : Nat) : Ball :=
  if 16 ≤ col ∧ col ≤ 46 then
    if row ≤ 10 then northBall row col
    else if row ≤ 51 then coreBall row col
    else if row ≤ 58 then lvcmosBall row col
    else southBall row col
  else if row < 5 ∨ 57 ≤ row then cornerBall row col
  else if col ≤ 15 then sideBall 0 0 row col
  else sideBall 64 1 row (62 - col)

/-- Every ball, row by row (R556). -/
def allBalls : List Ball :=
  (List.range 61).flatMap fun r => (List.range 61).map fun c => ballAt (r + 1) (c + 1)

/-- Balls of a supply rail (R562). -/
def railBalls (rail : SupplyRail) : Nat := (allBalls.filter (· == .supply rail)).length

end Sys2Proof.Machine
end

