-- ==== Sys2Proof/WellFormed.lean ====
section
/-! DEFINITION. Which commands are well formed: operands the types leave wider than the manual has them. -/

namespace Sys2Proof

/-- A well-formed command: a buffer write within the 4 KiB buffer (R51), a register within BAR0's 256 KiB (R38), a window
access within its 256 MiB (R493), a descriptor of 32 bytes (R59), a link speed of 1 to 4 at ×1 or ×2 (R40), a checker's
errors among its bits (R126), a measured format of 16 bytes (R16), an ancillary packet of 4 to 259 words (R152), a line of
a raster, a frame of at most 16 slots (R370), and counts of 32 bits. -/
def Instr.wf : Instr → Bool
  | .semAcquire _ _ _ _ => true
  | .semRelease _ _ => true
  | .mailboxBufferWrite _ _ off data => decide (0 < data.length) && decide (off + data.length ≤ 4096)
  | .doorbell _ _ epoch => decide (epoch < 4294967296)
  | .awaitedCompletion _ => true
  | .erCtlWrite _ _ => true
  | .erConsumerWrite _ _ => true
  | .moderationTimer _ => true
  | .msixUnmask _ _ => true
  | .captureRead _ _ => true
  | .registerWrite _ off _ _ => decide (off < 0x40000)
  | .dmaEnable _ _ _ => true
  | .abort _ _ _ => true
  | .dmaTailWrite _ _ _ => true
  | .dmaJobTake _ _ d => d.length == 32
  | .descriptorFetchFail _ _ => true
  | .dmaJobEnd _ _ _ x => decide (x.epoch < 4294967296)
  | .portReset _ _ _ => true
  | .perstDeassert _ => true
  | .linkTrained _ speed width => decide (1 ≤ speed) && decide (speed ≤ 4) && (width == 1 || width == 2)
  | .windowRead _ _ x n => decide (0 < n) && decide (x + n ≤ 0x10000000)
  | .windowWrite _ _ x data epoch => decide (0 < data.length) && decide (x + data.length ≤ 0x10000000) && decide (epoch < 4294967296)
  | .lockedReadRequest _ => true
  | .apply _ _ => true
  | .applySwitch _ _ => true
  | .applyComplete _ _ => true
  | .sysIdentify _ => true
  | .sysStatus _ => true
  | .sysNop _ => true
  | .sysSupply _ => true
  | .channelPending _ => true
  | .channelCancel _ => true
  | .gpiEdge _ _ => true
  | .gpiQualified _ => true
  | .laneStatus _ => true
  | .laneRxConfig _ => true
  | .laneTxConfig _ => true
  | .laneGroupFamily _ => true
  | .groupPllLocked _ => true
  | .lanePrbs _ => true
  | .lanePrbsRead _ n errors => decide (errors ≤ n)
  | .laneSlip _ => true
  | .laneAdapt _ => true
  | .signalDetected _ => true
  | .signalLost _ => true
  | .rateHuntStep _ => true
  | .cdrLock _ _ _ => true
  | .cdrLockLoss _ => true
  | .signatureMeasured _ _ => true
  | .adaptationDone _ _ _ => true
  | .trackingStep _ _ _ => true
  | .piLimit _ _ _ => true
  | .laneRecentre _ _ => true
  | .prbsSync _ => true
  | .lanePrbsSyncLost _ n errors => decide (errors ≤ n)
  | .alignFound _ => true
  | .alignLost _ => true
  | .inputContract _ => true
  | .inputEnable _ => true
  | .inputStatus _ => true
  | .inputCounters _ => true
  | .inputGetContract _ => true
  | .trsLock _ => true
  | .sourceFrameStart _ m => m.measured.isEmpty || m.measured.length == 16
  | .lineReceived _ _ => true
  | .ancPacket _ p => decide (4 ≤ p.words.length) && decide (p.words.length ≤ 259)
  | .frameClose _ _ f => decide (f.phase ≤ 64) && decide (f.fallback ≤ 1000)
  | .trsTimeout _ => true
  | .flowSilent _ => true
  | .rateUpdate _ _ => true
  | .lossHoldExpired _ => true
  | .hostSourceStall _ => true
  | .benchStatus _ => true
  | .benchSlots _ => true
  | .hostframeOpen _ => true
  | .hostframeClose _ => true
  | .benchFenceQuery _ => true
  | .benchFenceNotify _ => true
  | .benchStoreStatus _ => true
  | .benchStoreConfig _ => true
  | .memRefreshDoubled _ _ _ => true
  | .schedulerPeriod _ => true
  | .benchShrinkDone _ => true
  | .routeSet _ => true
  | .routeGet _ => true
  | .routeList _ => true
  | .routeCounters _ => true
  | .routeTallyGpio _ => true
  | .salvoCreate _ => true
  | .salvoAdd _ => true
  | .salvoRemove _ => true
  | .salvoCommit _ => true
  | .salvoDiscard _ => true
  | .salvoStatus _ => true
  | .salvoResult _ => true
  | .salvoTimeout _ => true
  | .shadowWrite _ => true
  | .classChange _ => true
  | .restoreTimer _ => true
  | .heldRetry => true
  | .heldLossHoldExpired _ => true
  | .switchInstant _ => true
  | .crusherPoolStatus _ => true
  | .crusherStatus _ => true
  | .crusherCounters _ => true
  | .crusherPolicy _ => true
  | .crusherMigrate _ => true
  | .crusherService _ => true
  | .crusherIdleTimeout _ => true
  | .crusherTableLoad _ => true
  | .crusherTableRead _ => true
  | .crusherProfileSet _ => true
  | .crusherProfileGet _ => true
  | .crusherProcStatus _ => true
  | .tableSwitch _ => true
  | .outputConfig _ => true
  | .outputGetConfig _ => true
  | .outputStatus _ => true
  | .outputCounters _ => true
  | .latchCycle _ => true
  | .outputFrameStart _ => true
  | .outputBlank _ _ => true
  | .outputLine _ => true
  | .outputUnderrun _ line _ _ => decide (line < 8192)
  | .ashlarConfig _ => true
  | .ashlarGetConfig _ => true
  | .ashlarLayers _ => true
  | .ashlarGetLayers _ => true
  | .ashlarStatus _ => true
  | .audioMap _ => true
  | .audioGetMap _ => true
  | .audioLevel _ => true
  | .audioEmbed _ => true
  | .audioCompanion _ => true
  | .audioFlowMap _ => true
  | .audioTone _ => true
  | .audioMeters _ => true
  | .audioDestStatus _ => true
  | .audioSourceStatus _ => true
  | .audioEngineStatus _ => true
  | .meterBlock _ => true
  | .crossfadeEnd _ => true
  | .sourceLockQualified _ _ _ => true
  | .asrcRelease _ => true
  | .sampleSlip _ => true
  | .burstSlip _ _ => true
  | .rateRange _ _ => true
  | .preambleFound _ _ _ => true
  | .nonpcmTimeout _ => true
  | .audioHalfIdleTimeout _ => true
  | .audioportConfig _ => true
  | .audioportGetConfig _ => true
  | .audioportStatus _ => true
  | .audioportShare _ => true
  | .audioportCapture _ => true
  | .audioportCaptureStatus _ => true
  | .audioPortFrame _ _ frame => decide (frame.length ≤ 16)
  | .portClockLoss _ => true
  | .portRateUpdate _ _ _ _ => true
  | .alignMeasure _ _ => true
  | .afsAbsent _ => true
  | .captureBlock _ _ _ => true
  | .referenceConfig _ => true
  | .referenceGetConfig _ => true
  | .referenceStatus _ => true
  | .referenceInput _ => true
  | .referenceInputStatus _ => true
  | .referenceTimeSource _ => true
  | .referenceClkout _ => true
  | .clkoutStarted _ => true
  | .servoTick _ => true
  | .candidateQualityChange _ => true
  | .ptpMessage _ _ => true
  | .wtrExpired _ _ => true
  | .holdoverExpired _ => true
  | .netPortConfig _ => true
  | .netPortGetConfig _ => true
  | .netPortStatus _ => true
  | .netRxFlow _ => true
  | .netTxFlow _ => true
  | .netFlowGet _ => true
  | .netFlowStatus _ => true
  | .netModuleIo _ _ _ => true
  | .netLink _ _ _ _ => true
  | .qsfpPresentChange _ _ _ => true
  | .packetReceived _ _ => true
  | .lineRelease _ _ _ _ _ _ => true
  | .audioSampleWrite _ _ => true
  | .netLeg _ _ _ _ => true
  | .packetSend _ _ _ _ => true
  | .arpTimer _ _ => true
  | .igmpReportTimer _ _ => true
  | .offloadPacket _ _ => true
  | .netAddress _ _ _ => true
  | .netDrop _ => true
  | .aditConfig _ => true
  | .aditStatus _ => true
  | .aditTie _ => true
  | .aditTieStatus _ => true
  | .aditMarker _ _ _ _ => true
  | .aditPeriod _ => true
  | .autoAlignSlip _ => true
  | .ledgerStatus _ => true
  | .ledgerCeiling _ => true
  | .ledgerDelta _ => true
  | .powerStatus _ => true
  | .powerDomain _ => true
  | .powerList _ => true
  | .railSample _ sample => decide (sample < 4294967296)
  | .cut _ => true
  | .domainOff _ => true
  | .domainWake _ => true
  | .quietCleared _ => true
  | .eventEnable _ => true
  | .eventGet _ => true
  | .eventStatus _ => true
  | .eventPort _ => true
  | .journalStatus _ => true
  | .journalRead _ => true
  | .journalCopy _ => true
  | .coalesceWindowEnd _ _ => true
  | .journalAdvanced => true
  | .fwStatus _ => true
  | .fwInstall _ => true
  | .installDone _ => true
  | .fwActivate _ => true
  | .stageDone => true
  | .stageTimeout => true
  | .selfCheckDone _ => true
  | .healthWindowExpired => true
  | .fwConfirm _ => true
  | .fwRevert _ => true
  | .fwLock _ => true
  | .fwUnlock _ => true
  | .fwPolicy _ => true
  | .fwSave _ => true
  | .settingsWrite => true
  | .fwHostData _ => true
  | .nresetFall => true
  | .nresetRise _ _ _ _ _ => true
  | .loaderStart _ _ _ => true
  | .ready _ => true
  | .startBlockPoll _ _ _ => true
  | .fuseRead _ => true
  | .fuseProgram _ _ => true
  | .fuseLock _ => true
  | .fuseStandby _ => true
  | .fuseNote _ => true
  | .mainPwrEnFall => true
  | .nwake _ => true
  | .vstbyApplied => true
  | .mainRailLoss => true
  | .tapReset => true
  | .pwrWarnChange _ => true
  | .standby100MsMark _ => true
  | .vstbyLoss => true

end Sys2Proof
end

