-- ==== Sys2Proof/Tests/Slice0.lean ====
section
/-! SUPPORT. Tests: ill-formed commands are refused, values the manual writes out, and a witness for every obligation: a
state and operands that meet its hypotheses together, clause by clause. -/

-- One theorem at a time: each witness is a chain of kernel evaluations, and many at once would fill the memory.
set_option Elab.async false

namespace Sys2Proof.Machine

/-! ### Helpers -/

/-- 1920 × 1080p50, 4:2:2, 10 bits (R16). -/
def hd : Bytes := le 2 1920 ++ le 2 1080 ++ [8, 0, 0, 10, 1, 0, 0, 1] ++ zeros 4

/-- An input contract of object `i` for that format. -/
def contract (i : Nat) : Bytes := le 2 i ++ zeros 2 ++ hd ++ le 2 50 ++ [4, 0] ++ zeros 16

/-- An output configuration of `n`, enabled in that format. -/
def outCfg (n : Nat) : Bytes := le 2 n ++ [1, 0] ++ hd ++ zeros 12

/-- A route entry of `d` from `i`, class AUTO. -/
def route (d i : Nat) : Bytes := le 2 d ++ le 2 i ++ zeros 28

/-- The state with a command in channel 0, posted by Port A, and its doorbell the oldest. -/
def postedWith (d : CommandDef) (p : Bytes) (flags expected target : Nat) (s : State) : State :=
  let h := le 2 d.opcode ++ le 2 flags ++ le 4 7 ++ le 8 expected ++ le 8 target ++ le 4 p.length ++ zeros 4 ++ p
  { s with
    ready := !s.fuseSense
    sems := [(0, { owner := some .a })]
    channels := (0, { state := .posted, written := true, buffer := Memory.writeBytes [] 0 h }) :: s.channels
    fm := { s.fm with doorbells := [0] } }

def posted (d : CommandDef) (p : Bytes) (flags : Nat) (s : State) : State := postedWith d p flags 0 0 s

/-- The byte memories stand in canonical form. -/
def canonical (s : State) : Bool :=
  Memory.wf s.store.mem && Memory.wf s.fuses && Memory.wf s.fw.fuseMap && s.channels.all fun p => Memory.wf p.2.buffer

theorem canonical_iff {s : State} (h : canonical s = true) : MemoryCanonical s := by
  simpa [canonical, MemoryCanonical, and_assoc] using h

/-- The command in channel 0 is admitted, over canonical memories. -/
def admits (d : CommandDef) (s : State) : Bool :=
  canonical s && takeable s 0 d.opcode && (verdict d (takeDoorbell s 0) (readCmd s 0)).isNone && !(readCmd s 0).validate &&
  d.timing (takeDoorbell s 0) (readCmd s 0) == .onTime

def Takes (d : CommandDef) (s : State) : Prop := MemoryCanonical s ∧ Admitted d 0 s

def TakesWhen (d : CommandDef) (pre : State → Cmd → Prop) (s : State) : Prop :=
  MemoryCanonical s ∧ Admitted d 0 s ∧ pre s (readCmd s 0)

theorem takes {d : CommandDef} {s : State} (h : admits d s = true := by decide +kernel) : Takes d s := by
  simp only [admits, Bool.and_eq_true, Option.isNone_iff_eq_none, Bool.not_eq_true', beq_iff_eq] at h
  exact ⟨canonical_iff h.1.1.1.1, h.1.1.1.2, h.1.1.2, h.1.2, h.2⟩

theorem takesWhen {d : CommandDef} {pre : State → Cmd → Prop} {s : State} (h : admits d s = true := by decide +kernel)
    (p : pre s (readCmd s 0) := by decide +kernel) : TakesWhen d pre s := ⟨(takes h).1, (takes h).2, p⟩

theorem witness_SysCommandsComplete :
    (∃ s, Takes defSysIdentify s) ∧
    (∃ s, Takes defSysStatus s) ∧
    (∃ s, Takes defSysNop s) ∧
    (∃ s, Takes defSysSupply s) ∧
    (∃ s, Takes defChannelPending s) ∧
    (∃ s, TakesWhen defChannelCancel (fun s c => (findChange s (u64 c.p 0)).any (fun x => !hasBegun s x) = true) s) ∧
    (∃ s, TakesWhen defChannelCancel (fun s c => findChange s (u64 c.p 0) = none) s) :=
  ⟨⟨posted defSysIdentify ([]) 0 State.reset, takes⟩,
   ⟨posted defSysStatus ([]) 0 State.reset, takes⟩,
   ⟨posted defSysNop ([1, 2, 3]) 0 State.reset, takes⟩,
   ⟨posted defSysSupply ([1, 0, 0, 0]) 0 State.reset, takes⟩,
   ⟨posted defChannelPending (le 8 0) 0 ({ State.reset with
      fm := { State.reset.fm with changes := [{ gen := 5, opcode := 0x0501, seq := 9, remaining := [3] }] } }),
    takes⟩,
   ⟨posted defChannelCancel (le 8 5) 0 ({ State.reset with
      fm := { State.reset.fm with changes := [{ gen := 5, opcode := 0x0501, seq := 9, remaining := [3] }] } }),
    takesWhen⟩,
   ⟨posted defChannelCancel (le 8 5) 0 ({ State.reset with fm := { State.reset.fm with withdrawn := [5] } }),
    takesWhen⟩⟩

theorem witness_LaneCommandsComplete :
    (∃ s, Takes defLaneStatus s) ∧
    (∃ s, Takes defLaneRxConfig s) ∧
    (∃ s, Takes defLaneTxConfig s) ∧
    (∃ s, TakesWhen defLaneGroupFamily (fun s c => powered s (0x10 + u8 c.p 0) = true) s) ∧
    (∃ s, TakesWhen defLaneGroupFamily (fun s c => powered s (0x10 + u8 c.p 0) = false) s) ∧
    (∃ s, TakesWhen defLanePrbs (fun _ c => u8 c.p 2 = 1) s) ∧
    (∃ s, TakesWhen defLanePrbs (fun _ c => u8 c.p 2 = 0) s) ∧
    (∃ (n : Nat) (errors : Nat) (s : State), Takes (defLanePrbsRead n errors) s) ∧
    (∃ s, Takes defLaneSlip s) ∧
    (∃ s, Takes defLaneAdapt s) :=
  ⟨⟨posted defLaneStatus (le 4 3) 0 State.reset, takes⟩,
   ⟨posted defLaneRxConfig (le 2 3 ++ [2, 2, 7, 1, 5] ++ zeros 9) 0 State.reset, takes⟩,
   ⟨posted defLaneTxConfig (le 2 0x103 ++ [5, 6, 1, 0, 0, 0]) 0 State.reset, takes⟩,
   ⟨posted defLaneGroupFamily ([3, 1, 0, 0]) 0 ({ State.reset with domains := [(0x13, { state := .on })] }),
    takesWhen⟩,
   ⟨posted defLaneGroupFamily ([3, 1, 0, 0]) 0 State.reset, takesWhen⟩,
   ⟨posted defLanePrbs (le 2 3 ++ [1, 2, 1, 0, 0, 0]) 0 State.reset, takesWhen⟩,
   ⟨posted defLanePrbs (le 2 3 ++ [0, 2, 1, 0, 0, 0]) 0 State.reset, takesWhen⟩,
   ⟨100, 4, posted (defLanePrbsRead 100 4) (le 4 3) 0
    ({ State.reset with lanes := [(3, { prbs := { inSync := true, bits := 10, errors := 1 } })] }), takes⟩,
   ⟨posted defLaneSlip (le 2 0x402 ++ [60, 0]) 0 ({ State.reset with lanes := [(0x402, { boundary := 10 })] }),
    takes⟩,
   ⟨posted defLaneAdapt (le 4 3) 0 ({ State.reset with
      lanes := [(3, { state := .locked, record := some { code := 3, signature := 9, rate := 2 } })] }), takes⟩⟩

theorem witness_LaneAcquisition :
    (∃ (id : BitVec 16) (s : State), (getLane s id.toNat).state = .dark ∧ adaptationHeld s = false) ∧
    (∃ (id : BitVec 16) (s : State), (getLane s id.toNat).state = .acquiring ∨ (getLane s id.toNat).state = .locked) ∧
    (∃ (id : BitVec 16) (s : State), (getLane s id.toNat).state = .acquiring ∧ (getLane s id.toNat).cdrLocked = false
      ∧ laneSet id.toNat = 0) ∧
    (∃ (id : BitVec 16) (s : State), (getLane s id.toNat).state = .acquiring ∧ (getLane s id.toNat).cdrLocked = false)
      ∧
    (∃ (id : BitVec 16) (s : State), (getLane s id.toNat).state = .locked) ∧
    (∃ (id : BitVec 16) (s : State), (getLane s id.toNat).state = .acquiring) ∧
    (∃ (id : BitVec 16) (s : State), (getLane s id.toNat).state = .acquiring ∧ (getLane s id.toNat).cdrLocked = true ∧
      (getLane s id.toNat).cfgMode = 2 ∧ adaptationHeld s = false) ∧
    (∃ (id : BitVec 16) (sig : BitVec 16) (s : State), (getLane s id.toNat).state = .acquiring ∧ (getLane s
      id.toNat).cdrLocked = true ∧ (getLane s id.toNat).cfgMode ≠ 2 ∧ recordServes (getLane s id.toNat) sig = true ∧
      adaptationHeld s = false) ∧
    (∃ (id : BitVec 16) (sig : BitVec 16) (s : State), (getLane s id.toNat).state = .acquiring ∧ (getLane s
      id.toNat).cdrLocked = true ∧ (getLane s id.toNat).cfgMode ≠ 2 ∧ recordServes (getLane s id.toNat) sig = false ∧
      adaptationHeld s = false) ∧
    (∃ (id : BitVec 16) (s : State), (getLane s id.toNat).state = .acquiring ∧ (getLane s id.toNat).cdrLocked = true ∧
      (getLane s id.toNat).adapting = true ∧ adaptationHeld s = false) ∧
    (∃ (id : BitVec 16) (s : State), (getLane s id.toNat).state = .locked ∧ (getLane s id.toNat).cfgMode = 1 ∧ mayStep
      s id.toNat = true ∧ adaptationHeld s = false) :=
  ⟨⟨3, { State.reset with lanes := [(3, { state := .dark })] }, by decide +kernel⟩,
   ⟨3, { State.reset with lanes := [(3, { state := .locked, lockLosses := 4 })] }, by decide +kernel⟩,
   ⟨3, { State.reset with lanes := [(3, { state := .acquiring })] }, by decide +kernel⟩,
   ⟨3, { State.reset with lanes := [(3, { state := .acquiring, rate := 2 })] }, by decide +kernel⟩,
   ⟨3, { State.reset with lanes := [(3, { state := .locked, lockLosses := 4294967295 })] }, by decide +kernel⟩,
   ⟨3, { State.reset with lanes := [(3, { state := .acquiring, cdrLocked := true })] }, by decide +kernel⟩,
   ⟨3, { State.reset with
      lanes := [(3, { state := .acquiring, cdrLocked := true, cfgMode := 2, cfgCode := 12 })] }, by decide +kernel⟩,
   ⟨3, 0x77, { State.reset with
      lanes := [(3, { state := .acquiring, cdrLocked := true, rate := 2, record := some { code := 9, signature := 0x77, rate := 2 } })] },
    by decide +kernel⟩,
   ⟨3, 0x77, { State.reset with lanes := [(3, { state := .acquiring, cdrLocked := true })] }, by decide +kernel⟩,
   ⟨3, { State.reset with
      lanes := [(3, { state := .acquiring, cdrLocked := true, adapting := true, signature := 0x55 })] },
    by decide +kernel⟩,
   ⟨3, { State.reset with
      sources := [(3, { enabled := true, state := .formatted })],
      lanes := [(3, { state := .locked, cfgMode := 1, ctleCode := 40, record := some { code := 9, signature := 0x77, rate := 2 } })] },
    by decide +kernel⟩⟩

theorem witness_LaneEventsComplete :
    (∃ (g : Fin 16) (s : State), (getGroup s g.val).relocking = true) ∧
    (∃ (n : Fin 128) (limit : Bool) (s : State), (getOutput s (gangOf s n.val)).following = true ∧ (getLane s (0x100 +
      n.val)).piLimit ≠ limit) ∧
    (∃ (n : Fin 128) (level : Fin 65) (s : State), (getLane s (0x100 + n.val)).piLimit = true ∧ 4 < level.val ∧
      level.val < 60) ∧
    (∃ (n : Fin 128) (level : Fin 65) (s : State), (getLane s (0x100 + n.val)).piLimit = true ∧ (level.val ≤ 4 ∨ 60 ≤
      level.val)) ∧
    (∃ (id : BitVec 16) (s : State), (getLane s id.toNat).prbs.on = true ∧ isRxLane id.toNat = true ∧ (getLane s
      id.toNat).cdrLocked = true) ∧
    (∃ (id : BitVec 16) (s : State), (getLane s id.toNat).prbs.on = true ∧ (getLane s id.toNat).prbs.inSync = true) ∧
    (∃ (i : Fin 8) (s : State), (getLane s (0x400 + i.val)).state = .locked) ∧
    (∃ (i : Fin 8) (s : State), (getLane s (0x400 + i.val)).align = 1) :=
  ⟨⟨3, { State.reset with
      groups := [(3, { relocking := true })],
      channels := [(2, { state := .running, waiting := some { cause := .groupPll 3, reply := {} } })] },
    by decide +kernel⟩,
   ⟨3, true, { State.reset with
      outputs := [(3, { following := true })], routes := [(3, { entry := route 3 7 })] }, by decide +kernel⟩,
   ⟨3, 59, { State.reset with lanes := [(0x103, { piLimit := true })] }, by decide +kernel⟩,
   ⟨3, 60, { State.reset with lanes := [(0x103, { piLimit := true })] }, by decide +kernel⟩,
   ⟨3, { State.reset with lanes := [(3, { cdrLocked := true, prbs := { on := true } })] }, by decide +kernel⟩,
   ⟨3, { State.reset with lanes := [(3, { prbs := { on := true, inSync := true } })] }, by decide +kernel⟩,
   ⟨2, { State.reset with lanes := [(0x402, { state := .locked })] }, by decide +kernel⟩,
   ⟨2, { State.reset with lanes := [(0x402, { state := .locked, align := 1 })] }, by decide +kernel⟩⟩

theorem witness_InputCommandsComplete :
    (∃ s, TakesWhen defInputContract (fun s c => (getSource s (u16 c.p 0)).enabled = false) s) ∧
    (∃ s, TakesWhen defInputContract (fun s c => (getSource s (u16 c.p 0)).enabled = true ∧ isHostSource (u16 c.p 0) =
      false ∧ atRest s (u16 c.p 0) = false) s) ∧
    (∃ s, TakesWhen defInputContract (fun s c => (getSource s (u16 c.p 0)).enabled = true ∧ (isHostSource (u16 c.p 0)
      = true ∨ atRest s (u16 c.p 0) = true)) s) ∧
    (∃ s, TakesWhen defInputEnable (fun _ c => u8 c.p 2 = 1) s) ∧
    (∃ s, TakesWhen defInputEnable (fun s c => u8 c.p 2 = 0 ∧ (getSource s (u16 c.p 0)).enabled = true ∧ isHostSource
      (u16 c.p 0) = false ∧ atRest s (u16 c.p 0) = false) s) ∧
    (∃ s, TakesWhen defInputEnable (fun s c => u8 c.p 2 = 0 ∧ (getSource s (u16 c.p 0)).enabled = true ∧ (isHostSource
      (u16 c.p 0) = true ∨ atRest s (u16 c.p 0) = true)) s) ∧
    (∃ s, TakesWhen defInputEnable (fun s c => u8 c.p 2 = 0 ∧ (getSource s (u16 c.p 0)).enabled = false) s) ∧
    (∃ s, Takes defInputStatus s) ∧
    (∃ s, Takes defInputCounters s) ∧
    (∃ s, Takes defInputGetContract s) :=
  ⟨⟨posted defInputContract (contract 5) 0 State.reset, takesWhen⟩,
   ⟨posted defInputContract (contract 5) 0 ({ State.reset with
      sources := [(5, { enabled := true, state := .formatted, contract := some (contract 5), lastFrame := 3, frame := some { number := 4 } })] }),
    takesWhen⟩,
   ⟨posted defInputContract ((contract 0xD1).set 15 0) 0 ({ State.reset with
      sources := [(0xD1, { enabled := true, state := .formatted, contract := some (contract 0xD1) })] }), takesWhen⟩,
   ⟨posted defInputEnable (le 2 5 ++ [1, 0]) 0
    ({ State.reset with sources := [(5, { contract := some (contract 5) })] }), takesWhen⟩,
   ⟨posted defInputEnable (le 2 5 ++ [0, 0]) 0 ({ State.reset with
      sources := [(5, { enabled := true, state := .formatted, contract := some (contract 5), frame := some { number := 4 } })] }),
    takesWhen⟩,
   ⟨posted defInputEnable (le 2 5 ++ [0, 0]) 0 ({ State.reset with
      sources := [(5, { enabled := true, state := .absent, contract := some (contract 5) })] }), takesWhen⟩,
   ⟨posted defInputEnable (le 2 5 ++ [0, 0]) 0
    ({ State.reset with sources := [(5, { contract := some (contract 5) })] }), takesWhen⟩,
   ⟨posted defInputStatus (le 4 5) 0
    ({ State.reset with sources := [(5, { state := .locked, cause := 7, formatChanges := 2 })] }), takes⟩,
   ⟨posted defInputCounters (le 4 5) 0 ({ State.reset with sources := [(5, { counts := { losses := 4 } })] }), takes⟩,
   ⟨posted defInputGetContract (le 4 5) 0 ({ State.reset with sources := [(5, { contract := some (contract 5) })] }),
    takes⟩⟩

theorem witness_SourceEventsComplete :
    (∃ (i : BitVec 16) (s : State), (getSource s i.toNat).enabled = true ∧ wordsArrive s i.toNat = true ∧ ((getSource
      s i.toNat).state = .locking ∨ (getSource s i.toNat).state = .lost)) ∧
    (∃ (i : BitVec 16) (s : State), (getSource s i.toNat).enabled = true ∧ isHostSource i.toNat = false ∧ (getSource s
      i.toNat).state = .locked ∧ (getSource s i.toNat).framesMeasured = 0 ∧ (getSource s i.toNat).pendingDisable =
      false) ∧
    (∃ (i : BitVec 16) (m : FrameFacts) (s : State), (getSource s i.toNat).enabled = true ∧ isHostSource i.toNat =
      false ∧ (getSource s i.toNat).state = .formatted ∧ (getSource s i.toNat).pendingDisable = false ∧ (getSource s
      i.toNat).pendingContract = none ∧ m.skewed = false ∧ measuredFormat ((getSource s i.toNat).contract.getD []) m =
      sourceFormat (getSource s i.toNat)) ∧
    (∃ (i : BitVec 16) (m : FrameFacts) (s : State), (getSource s i.toNat).enabled = true ∧ isHostSource i.toNat =
      false ∧ (getSource s i.toNat).state = .formatted ∧ (getSource s i.toNat).pendingDisable = false ∧ (getSource s
      i.toNat).pendingContract = none ∧ m.skewed = false ∧ measuredFormat ((getSource s i.toNat).contract.getD []) m ≠
      sourceFormat (getSource s i.toNat) ∧ withinContract ((getSource s i.toNat).contract.getD []) (measuredFormat
      ((getSource s i.toNat).contract.getD []) m) = false) ∧
    (∃ (i : BitVec 16) (l : LineFacts) (s : State), (getSource s i.toNat).enabled = true ∧ isHostSource i.toNat =
      false ∧ (getSource s i.toNat).state = .formatted ∧ l.active = true ∧ l.field2 = false ∧ (isSdi i.toNat = true →
      closing s (0x10 + i.toNat / 8) = false) ∧ ((getSource s i.toNat).frame.any fun f => decide (f.field1 <
      fieldLines (sourceFormat (getSource s i.toNat)))) = true) ∧
    (∃ (i : BitVec 16) (s : State), isSdi i.toNat = true ∧ closing s (0x10 + i.toNat / 8) = true) ∧
    (∃ (i : BitVec 16) (k : AncPacket) (v : BitVec 32) (s : State), (getSource s i.toNat).enabled = true ∧
      isHostSource i.toNat = false ∧ (getSource s i.toNat).state = .formatted ∧ k.checksumOk = true ∧ k.fits = true ∧
      k.kind = .payloadId v ∧ isIp i.toNat = false) ∧
    (∃ (i : BitVec 16) (k : AncPacket) (s : State), (getSource s i.toNat).enabled = true ∧ isHostSource i.toNat =
      false ∧ (getSource s i.toNat).state = .formatted ∧ k.checksumOk = false ∧ isIp i.toNat = false) ∧
    (∃ (i : BitVec 16) (k : AncPacket) (f : FrameIn) (s : State), (getSource s i.toNat).enabled = true ∧ isHostSource
      i.toNat = false ∧ (getSource s i.toNat).state = .formatted ∧ k.checksumOk = true ∧ k.fits = true ∧ k.kind =
      .other ∧ isIp i.toNat = false ∧ (getSource s i.toNat).frame = some f ∧ f.ancCharged + packetCharge k ≤
      ctAncQuota ((getSource s i.toNat).contract.getD [])) ∧
    (∃ (i : BitVec 16) (s : State), (getSource s i.toNat).state = .locked ∨ (getSource s i.toNat).state = .formatted)
      ∧
    (∃ (i : BitVec 16) (s : State), (getSource s i.toNat).lossHoldRunning = true ∧ (getSource s
      i.toNat).lossHoldEnd.isSome) ∧
    (∃ (i : BitVec 16) (s : State), isHostSource i.toNat = true ∧ ctHostStall ((getSource s i.toNat).contract.getD [])
      ≠ 0 ∧ (getSource s i.toNat).state = .formatted) ∧
    (∃ (i : BitVec 16) (s : State), isIp i.toNat = false ∧ isHostSource i.toNat = false ∧ (getSource s i.toNat).state
      = .formatted) ∧
    (∃ (i : BitVec 16) (s : State), isIp i.toNat = false ∧ isHostSource i.toNat = false ∧ (getSource s i.toNat).state
      = .locked) ∧
    (∃ (i : BitVec 16) (f : FrameIn) (s : State), isPattern i.toNat = false ∧ isAshlarObj i.toNat = false ∧ (getSource
      s i.toNat).frame = some f ∧ frameWhole (sourceFormat (getSource s i.toNat)) f = true ∧ f.slot.isSome) :=
  ⟨⟨5, { State.reset with
      lanes := [(5, { state := .locked })], sources := [(5, { enabled := true, state := .lost })] },
    by decide +kernel⟩,
   ⟨5, { State.reset with
      sources := [(5, { enabled := true, state := .locked, contract := some (contract 5) })] }, by decide +kernel⟩,
   ⟨5, { measured := hd, pidScan := none, pid := some 9, pidDisagrees := false, skewed := false }, { State.reset with
      sources := [(5, { enabled := true, state := .formatted, contract := some (contract 5) })] }, by decide +kernel⟩,
   ⟨5, { measured := le 2 1280 ++ sub hd 2 14, pidScan := none, pid := none, pidDisagrees := false, skewed := false },
    { State.reset with
      sources := [(5, { enabled := true, state := .formatted, contract := some (contract 5) })] }, by decide +kernel⟩,
   ⟨5,
    { active := true, field2 := false, numberFollows := true, trs := .bad, crcOk := true, length := .exact, luma := [], chroma := [] },
    { State.reset with
      sources := [(5, { enabled := true, state := .formatted, contract := some (contract 5), frame := some { number := 4, field1 := 1079 } })] },
    by decide +kernel⟩,
   ⟨5, { State.reset with domains := [(0x10, { state := .drain })] }, by decide +kernel⟩,
   ⟨5, { line := 9, place := 0, checksumOk := true, fits := true, words := [], kind := .payloadId 7 }, 7,
    { State.reset with
      sources := [(5, { enabled := true, state := .formatted, contract := some (contract 5) })] }, by decide +kernel⟩,
   ⟨5, { line := 9, place := 0, checksumOk := false, fits := true, words := [], kind := .other }, { State.reset with
      sources := [(5, { enabled := true, state := .formatted, contract := some (contract 5) })] }, by decide +kernel⟩,
   ⟨5, { line := 9, place := 0, checksumOk := true, fits := true, words := [1, 2, 3], kind := .other },
    { number := 4 }, { State.reset with
      sources := [(5, { enabled := true, state := .formatted, contract := some (sub (contract 5) 0 24 ++ le 4 4096 ++ zeros 12), frame := some { number := 4 } })] },
    by decide +kernel⟩,
   ⟨5, { State.reset with
      sources := [(5, { enabled := true, state := .formatted, contract := some (contract 5), outCount := 2 })] },
    by decide +kernel⟩,
   ⟨5, { State.reset with
      sources := [(5, { state := .lost, lossHoldRunning := true, lossHoldEnd := some 4 })] }, by decide +kernel⟩,
   ⟨0xD1, { State.reset with
      sources := [(0xD1, { state := .formatted, contract := some (sub (contract 0xD1) 0 32 ++ le 2 100 ++ zeros 6) })] },
    by decide +kernel⟩,
   ⟨5, { State.reset with
      sources := [(5, { enabled := true, state := .formatted, contract := some (contract 5) })] }, by decide +kernel⟩,
   ⟨5, { State.reset with
      sources := [(5, { enabled := true, state := .locked, contract := some (contract 5) })] }, by decide +kernel⟩,
   ⟨5, { number := 4, slot := some 0, field1 := 1080 }, { State.reset with
      sources := [(5, { enabled := true, state := .formatted, contract := some (contract 5), frame := some { number := 4, slot := some 0, field1 := 1080 } })] },
    by decide +kernel⟩⟩

theorem witness_BenchCommandsComplete :
    (∃ s, Takes defBenchStatus s) ∧
    (∃ s, Takes defBenchSlots s) ∧
    (∃ (landed : List Landed) (s : State), Takes (defHostframeOpen landed) s) ∧
    (∃ (landed : List Landed) (s : State), Takes (defHostframeClose landed) s) ∧
    (∃ s, Takes defBenchFenceQuery s) ∧
    (∃ s, Takes defBenchFenceNotify s) ∧
    (∃ s, Takes defBenchStoreStatus s) ∧
    (∃ s, Takes defBenchStoreConfig s) :=
  ⟨⟨posted defBenchStatus (le 2 5 ++ [0, 0]) 0 ({ State.reset with
      store := { State.reset.store with benches := [(5, { id := 1, slots := 4, pendingSlots := 4, frameArea := 4096, ancArea := 0, blocks := [0], slot := [(1, { state := .complete, frame := 8 })] })] } }),
    takes⟩,
   ⟨posted defBenchSlots (le 2 5 ++ [0, 0]) 0 ({ State.reset with
      store := { State.reset.store with benches := [(5, { id := 1, slots := 4, pendingSlots := 4, frameArea := 4096, ancArea := 0, blocks := [0], slot := [(1, { state := .complete, frame := 8 })] })] } }),
    takes⟩,
   ⟨[], posted (defHostframeOpen []) (le 2 0xD1 ++ [2, 0]) 0 ({ State.reset with
      sources := [(0xD1, { enabled := true, state := .formatted, contract := some (contract 0xD1) })],
      store := { State.reset.store with benches := [(0xD1, { id := 1, slots := 4, pendingSlots := 4, frameArea := 4096, ancArea := 0, blocks := [0] })] } }),
    takes⟩,
   ⟨[], posted (defHostframeClose []) (le 2 0xD1 ++ [2, 1]) 0 ({ State.reset with
      sources := [(0xD1, { enabled := true, state := .formatted, contract := some (contract 0xD1) })],
      store := { State.reset.store with benches := [(0xD1, { id := 1, slots := 4, pendingSlots := 4, frameArea := 4096, ancArea := 0, blocks := [0], slot := [(2, { state := .landing, frame := 6 })] })] } }),
    takes⟩,
   ⟨posted defBenchFenceQuery ([2, 0] ++ le 2 2 ++ zeros 4 ++ le 8 3) 0 State.reset, takes⟩,
   ⟨posted defBenchFenceNotify ([2, 0] ++ le 2 2 ++ zeros 4 ++ le 8 3 ++ le 2 0x1234 ++ zeros 6) 0 State.reset,
    takes⟩,
   ⟨posted defBenchStoreStatus ([]) 0 State.reset, takes⟩,
   ⟨posted defBenchStoreConfig (le 2 400 ++ zeros 2) 0 State.reset, takes⟩⟩

theorem witness_StoreEventsComplete :
    (∃ (k : BitVec 16) (b : Bench) (s : State), getBench s k.toNat = some b ∧ shrinkDone b = true) ∧
    (∃ (i : BitVec 16) (x : Context) (b : Bench) (n : Nat) (j : Nat) (s : State), getContext s i.toNat = some x ∧
      getBench s (benchKey i.toNat true) = some b ∧ x.working = some n ∧ landingSlot b = some j ∧ (getSlot b j).frame
      = n) ∧
    (∃ (i : BitVec 16) (b : Bench) (j : Nat) (s : State), isPattern i.toNat = true ∧ getBench s (benchKey i.toNat
      false) = some b ∧ landingSlot b = some j) :=
  ⟨⟨5, { id := 1, slots := 4, pendingSlots := 3, frameArea := 4096, ancArea := 0, blocks := [0] }, { State.reset with
      store := { State.reset.store with benches := [(5, { id := 1, slots := 4, pendingSlots := 3, frameArea := 4096, ancArea := 0, blocks := [0] })] } },
    by decide +kernel⟩,
   ⟨3, { engine := 0, source := 5, entry := route 3 5, working := some 6 },
    { id := 1, slots := 4, pendingSlots := 4, frameArea := 4096, ancArea := 0, blocks := [0], slot := [(2, { state := .landing, frame := 6 })] },
    6, 2, { State.reset with
      contexts := [(3, { engine := 0, source := 5, entry := route 3 5, working := some 6 })],
      store := { State.reset.store with benches := [(0x8003, { id := 1, slots := 4, pendingSlots := 4, frameArea := 4096, ancArea := 0, blocks := [0], slot := [(2, { state := .landing, frame := 6 })] })] } },
    by decide +kernel⟩,
   ⟨0xC8,
    { id := 1, slots := 4, pendingSlots := 4, frameArea := 4096, ancArea := 0, blocks := [0], slot := [(2, { state := .landing, frame := 6 })] },
    2, { State.reset with
      store := { State.reset.store with benches := [(0xC8, { id := 1, slots := 4, pendingSlots := 4, frameArea := 4096, ancArea := 0, blocks := [0], slot := [(2, { state := .landing, frame := 6 })] })] } },
    by decide +kernel⟩⟩

theorem witness_RouteCommandsComplete :
    (∃ s, Takes defRouteSet s) ∧
    (∃ s, Takes defRouteGet s) ∧
    (∃ s, Takes defRouteList s) ∧
    (∃ s, Takes defRouteCounters s) ∧
    (∃ s, Takes defRouteTallyGpio s) :=
  ⟨⟨posted defRouteSet (route 3 5) 0 ({ State.reset with
      sources := [(5, { enabled := true, state := .formatted, contract := some (contract 5) })],
      outputs := [(3, { state := .idle, config := outCfg 3, committed := outCfg 3, frame := 7, latched := 7, lastLatch := 1, nextLatch := 20000000 })] }),
    takes⟩,
   ⟨posted defRouteGet (le 2 3 ++ zeros 2) 0 ({ State.reset with
      routes := [(3, { committed := route 3 5, entry := route 3 5, cls := 1, state := .active, gen := 2 })] }),
    takes⟩,
   ⟨posted defRouteList (le 2 0 ++ zeros 2) 0 ({ State.reset with
      routes := [(3, { committed := route 3 5, entry := route 3 5, cls := 1, state := .active, gen := 2 })] }),
    takes⟩,
   ⟨posted defRouteCounters (le 2 3 ++ zeros 2) 0 ({ State.reset with
      routes := [(3, { committed := route 3 5, entry := route 3 5, cls := 1, state := .active, gen := 2, counts := { switches := 3 } })] }),
    takes⟩,
   ⟨posted defRouteTallyGpio ([7, 1] ++ le 2 5 ++ zeros 4) 0 ({ State.reset with
      routes := [(3, { committed := route 3 5, entry := route 3 5, cls := 1, state := .active, gen := 2 })] }),
    takes⟩⟩

theorem witness_SalvoCommandsComplete :
    (∃ s, Takes defSalvoCreate s) ∧
    (∃ s, Takes defSalvoAdd s) ∧
    (∃ s, Takes defSalvoRemove s) ∧
    (∃ s, Takes defSalvoCommit s) ∧
    (∃ s, Takes defSalvoDiscard s) ∧
    (∃ (i : BitVec 16) (s : State), Tab.has s.salvos i.toNat = true ∧ (getSalvo s i.toNat).state = .open) ∧
    (∃ s, Takes defSalvoStatus s) ∧
    (∃ s, Takes defSalvoResult s) :=
  ⟨⟨posted defSalvoCreate ([]) 0 State.reset, takes⟩,
   ⟨posted defSalvoAdd (le 2 9 ++ le 2 1 ++ zeros 4 ++ route 3 5) 0 ({ State.reset with
      salvos := [(9, { creator := .a, entries := [] })],
      outputs := [(3, { state := .idle, config := outCfg 3, committed := outCfg 3, frame := 7, latched := 7, lastLatch := 1, nextLatch := 20000000 })],
      sources := [(5, { enabled := true, state := .formatted, contract := some (contract 5) })] }), takes⟩,
   ⟨posted defSalvoRemove (le 2 9 ++ le 2 3) 0 ({ State.reset with
      salvos := [(9, { creator := .a, entries := [{ entry := route 3 5 }, { entry := route 4 5 }] })] }), takes⟩,
   ⟨posted defSalvoCommit (le 2 9 ++ le 2 3 ++ zeros 4) 0 ({ State.reset with
      salvos := [(9, { creator := .a, entries := [{ entry := route 3 5 }] })],
      sources := [(5, { enabled := true, state := .formatted, contract := some (contract 5) })],
      outputs := [(3, { state := .idle, config := outCfg 3, committed := outCfg 3, frame := 7, latched := 7, lastLatch := 1, nextLatch := 20000000 })] }),
    takes⟩,
   ⟨posted defSalvoDiscard (le 2 9 ++ zeros 2) 0
    ({ State.reset with salvos := [(9, { creator := .a, entries := [{ entry := route 3 5 }] })] }), takes⟩,
   ⟨9, { State.reset with salvos := [(9, { creator := .a, entries := [{ entry := route 3 5 }] })] },
    by decide +kernel⟩,
   ⟨posted defSalvoStatus (le 2 9 ++ zeros 2) 0
    ({ State.reset with salvos := [(9, { creator := .a, entries := [{ entry := route 3 5 }] })] }), takes⟩,
   ⟨posted defSalvoResult (le 2 9 ++ le 2 0) 0 ({ State.reset with
      salvos := [(9, { creator := .a, entries := [{ entry := route 3 5, result := 2 }] })] }), takes⟩⟩

theorem witness_RouteEventsComplete :
    (∃ (g : Fin 64) (level : Bool) (s : State), Tab.get s.gpioIn g.val true ≠ level) ∧
    (∃ (g : Fin 64) (p : Nat × Bool) (s : State), s.gpioEdge.find? (fun q => q.1 == g.val) = some p ∧ (∃ x ∈
      gpiWaiting s g.val, bit x.target 8 ≠ p.2)) ∧
    (∃ (d : BitVec 16) (s : State), reRemoves (getRoute s d.toNat).entry = false ∧ (getRoute s d.toNat).state ≠ .shed
      ∧ s.updating = false ∧ classPending s d.toNat = false ∧ isAshlarObj d.toNat = false ∧ fedByAshlar s (reSource
      (getRoute s d.toNat).entry) d.toNat = false ∧ (getRoute s d.toNat).cls = 1 ∧ reClass (getRoute s d.toNat).entry
      = 0 ∧ (s.triggers.any fun x => x.1 == reSource (getRoute s d.toNat).entry) = true) ∧
    (∃ (d : BitVec 16) (s : State), reRemoves (getRoute s d.toNat).entry = false ∧ (getRoute s d.toNat).state =
      .active ∧ s.updating = false ∧ classPending s d.toNat = false ∧ isAshlarObj d.toNat = false ∧ fedByAshlar s
      (reSource (getRoute s d.toNat).entry) d.toNat = false ∧ (getRoute s d.toNat).cls = 2 ∧ reClass (getRoute s
      d.toNat).entry ≠ 0 ∧ formatKnown s (reSource (getRoute s d.toNat).entry) = true ∧ syncEnds s (reSource (getRoute
      s d.toNat).entry) d.toNat = false) ∧
    (∃ (d : BitVec 16) (s : State), mayRestore s d.toNat = true) ∧
    (∃ (d : BitVec 16) (s : State), (getRoute s d.toNat).state = .held ∧ (lossHoldOf s (reSource (getRoute s
      d.toNat).entry)).isSome = true) ∧
    (∃ (d : BitVec 16) (x : NextRoute) (s : State), isAshlarObj d.toNat = false ∧ gangTail s d.toNat = false ∧ isTie
      d.toNat = false ∧ (getRoute s d.toNat).next = [x]) :=
  ⟨⟨7, false, State.reset, by decide +kernel⟩,
   ⟨7, (7, false), { State.reset with
      gpioEdge := [(7, false)],
      fm := { State.reset.fm with gen := 3, changes := [{ gen := 3, targetKind := 3, target := 0x107, armed := false, remaining := [3], anchor := 3 }] },
      outputs := [(3, { state := .idle, config := outCfg 3, committed := outCfg 3, frame := 7, latched := 7, lastLatch := 1, nextLatch := 20000000 })] },
    by decide +kernel⟩,
   ⟨3, { State.reset with
      routes := [(3, { committed := route 3 5, entry := route 3 5, cls := 1, state := .active, gen := 2 })],
      sources := [(5, { enabled := true, state := .formatted, contract := some (contract 5) })],
      outputs := [(3, { state := .idle, config := outCfg 3, committed := outCfg 3, frame := 7, latched := 7, lastLatch := 1, nextLatch := 20000000 })],
      triggers := [(5, 1)] }, by decide +kernel⟩,
   ⟨3, { State.reset with
      routes := [(3, { committed := (route 3 5).set 4 1, entry := (route 3 5).set 4 1, cls := 2, state := .active, gen := 2 })],
      sources := [(5, { enabled := true, state := .formatted, contract := some (contract 5) })],
      outputs := [(3, { state := .idle, config := (outCfg 3).set 9 1, committed := (outCfg 3).set 9 1 })] },
    by decide +kernel⟩,
   ⟨3, { State.reset with
      routes := [(3, { committed := route 3 5, entry := route 3 5, cls := 2, state := .active, gen := 2, demoted := true })],
      sources := [(5, { enabled := true, state := .formatted, contract := some (contract 5), frameStart := 88889 })],
      outputs := [(3, { state := .idle, config := outCfg 3, committed := outCfg 3, frame := 7, latched := 7, lastLatch := 1, nextLatch := 20000000 })] },
    by decide +kernel⟩,
   ⟨3, { State.reset with
      routes := [(3, { committed := route 3 5, entry := route 3 5, cls := 1, state := .held, gen := 2 })] },
    by decide +kernel⟩,
   ⟨3, { gen := 3, entry := route 3 5, cls := 1, reason := 0 }, { State.reset with
      routes := [(3, { committed := route 3 5, entry := route 3 5, cls := 1, state := .active, gen := 2, next := [{ gen := 3, entry := route 3 5, cls := 1, reason := 0 }] })],
      outputs := [(3, { state := .idle, config := outCfg 3, committed := outCfg 3, frame := 7, latched := 7, lastLatch := 1, nextLatch := 20000000 })],
      sources := [(5, { enabled := true, state := .formatted, contract := some (contract 5) })] }, by decide +kernel⟩⟩

theorem witness_CrusherScheduling :
    (∃ s, Takes defCrusherPoolStatus s) ∧
    (∃ s, Takes defCrusherStatus s) ∧
    (∃ s, Takes defCrusherCounters s) ∧
    (∃ s, Takes defCrusherPolicy s) ∧
    (∃ s, Takes defCrusherMigrate s) ∧
    (∃ s, TakesWhen defCrusherService (fun _ c => u8 c.p 1 = 1) s) ∧
    (∃ s, TakesWhen defCrusherService (fun _ c => u8 c.p 1 = 0) s) ∧
    (∃ (k : Fin 32) (s : State), (getDomain s (0x20 + k.val)).idle = true ∧ (getDomain s (0x20 + k.val)).mode = 0 ∧
      domainNeeded s (0x20 + k.val) = false ∧ powered s (0x20 + k.val) = true) ∧
    (∃ (k : Nat) (s : State), heldRoutes s = [] ∧ blockedMigrations s = [] ∧ spareCount s < s.spares ∧ nextSpare s =
      some k ∧ currentNack s (makeSpare s k) 0xFFFF = none) ∧
    (∃ (d : Nat) (s : State), heldRoutes s = [d] ∧ s.updating = false ∧ classPending s d = false ∧ formatKnown s
      (reSource (getRoute s d).entry) = true ∧ (tryPromote s d).isLeft = true) :=
  ⟨⟨posted defCrusherPoolStatus ([]) 0
    ({ State.reset with contexts := [(3, { engine := 0, source := 5, entry := route 3 5 })] }), takes⟩,
   ⟨posted defCrusherStatus (zeros 4) 0
    ({ State.reset with contexts := [(3, { engine := 0, source := 5, entry := route 3 5 })] }), takes⟩,
   ⟨posted defCrusherCounters (le 2 3 ++ zeros 2) 0
    ({ State.reset with conv := [(3, { delivered := 4, late := 2 })] }), takes⟩,
   ⟨posted defCrusherPolicy ([1, 0, 0, 0]) 0
    ({ State.reset with domains := [(0x20, { state := .on }), (0x21, { state := .on })] }), takes⟩,
   ⟨posted defCrusherMigrate (le 2 3 ++ [1, 0]) 0 ({ State.reset with
      contexts := [(3, { engine := 0, source := 5, entry := route 3 5 })], domains := [(0x20, { state := .on }),
      (0x21, { state := .on })],
      outputs := [(3, { state := .idle, config := outCfg 3, committed := outCfg 3, frame := 7, latched := 7, lastLatch := 1, nextLatch := 20000000 })],
      sources := [(5, { enabled := true, state := .formatted, contract := some (contract 5) })],
      routes := [(3, { committed := route 3 5, entry := route 3 5, cls := 1, state := .active, gen := 2 })] }),
    takes⟩,
   ⟨posted defCrusherService ([4, 1, 0, 0]) 0 ({ State.reset with crushers := [(4, { withdrawn := true })] }),
    takesWhen⟩,
   ⟨posted defCrusherService ([4, 0, 0, 0]) 0 State.reset, takesWhen⟩,
   ⟨4, { State.reset with domains := [(0x24, { state := .on, idle := true })] }, by decide +kernel⟩,
   ⟨31, { State.reset with domains := [(0x20, { state := .on })], spares := 1 }, by decide +kernel⟩,
   ⟨3, { State.reset with
      routes := [(3, { committed := route 3 5, entry := route 3 5, cls := 1, state := .held, gen := 2, heldCause := 1 })],
      sources := [(5, { enabled := true, state := .formatted, contract := some (contract 5) })],
      outputs := [(3, { state := .idle, config := outCfg 3, committed := outCfg 3, frame := 7, latched := 7, lastLatch := 1, nextLatch := 20000000 })],
      spares := 0, domains := [(0x20, { state := .on }), (0x21, { state := .on })] }, by decide +kernel⟩⟩

theorem witness_CrusherTables :
    (∃ s, TakesWhen defCrusherTableLoad (fun s c => tableContexts s (tableKey (u8 c.p 0) (u8 c.p 1)) = []) s) ∧
    (∃ s, TakesWhen defCrusherTableLoad (fun s c => tableContexts s (tableKey (u8 c.p 0) (u8 c.p 1)) ≠ []) s) ∧
    (∃ s, Takes defCrusherTableRead s) ∧
    (∃ s, TakesWhen defCrusherProfileSet (fun s c => profileContexts s (u16 c.p 0) = [] ∧ bit (u8 c.p 7) 1 = false) s)
      ∧
    (∃ s, TakesWhen defCrusherProfileSet (fun s c => profileContexts s (u16 c.p 0) = [] ∧ bit (u8 c.p 7) 1 = true) s)
      ∧
    (∃ s, TakesWhen defCrusherProfileSet (fun s c => profileContexts s (u16 c.p 0) ≠ []) s) ∧
    (∃ s, TakesWhen defCrusherProfileGet (fun _ c => u16 c.p 0 ≠ 0) s) ∧
    (∃ s, TakesWhen defCrusherProfileGet (fun _ c => u16 c.p 0 = 0) s) ∧
    (∃ s, Takes defCrusherProcStatus s) :=
  ⟨⟨posted defCrusherTableLoad ([0, 1, 0, 0] ++ le 4 0 ++ le 4 (tableLength 0 0) ++ zeros 4) 0 State.reset,
    takesWhen⟩,
   ⟨posted defCrusherTableLoad ([0, 1, 0, 0] ++ le 4 0 ++ le 4 (tableLength 0 0) ++ zeros 4) 0 ({ State.reset with
      contexts := [(3, { engine := 0, source := 5, entry := (route 3 5).set 14 5 })],
      profiles := [(5, ((zeros 64).set 0 5 |>.set 2 1).set 8 1)],
      tables := [(tableKey 0 1, { taps := 0, data := [1] })] }), takesWhen⟩,
   ⟨posted defCrusherTableRead ([0, 1, 0, 0] ++ le 4 64 ++ le 4 (tableLength 0 0) ++ zeros 4) 0
    ({ State.reset with tables := [(tableKey 0 1, { taps := 0, data := [1, 2, 3] })] }), takes⟩,
   ⟨posted defCrusherProfileSet ((zeros 64).set 0 5) 0 State.reset, takesWhen⟩,
   ⟨posted defCrusherProfileSet (((zeros 64).set 0 5).set 7 2) 0
    ({ State.reset with profiles := [(5, (zeros 64).set 0 5)] }), takesWhen⟩,
   ⟨posted defCrusherProfileSet ((zeros 64).set 0 5) 0 ({ State.reset with
      contexts := [(3, { engine := 0, source := 5, entry := (route 3 5).set 14 5 })],
      profiles := [(5, (zeros 64).set 0 5)] }), takesWhen⟩,
   ⟨posted defCrusherProfileGet (le 2 5 ++ zeros 38) 0 ({ State.reset with profiles := [(5, (zeros 64).set 0 5)] }),
    takesWhen⟩,
   ⟨posted defCrusherProfileGet (zeros 8 ++ hd ++ hd) 0 State.reset, takesWhen⟩,
   ⟨posted defCrusherProcStatus (le 2 3 ++ zeros 2) 0
    ({ State.reset with contexts := [(3, { engine := 0, source := 5, entry := route 3 5 })] }), takes⟩⟩

theorem witness_OutputCommandsComplete :
    (∃ s, TakesWhen defOutputConfig (fun s c => staysOff s c = true) s) ∧
    (∃ s, TakesWhen defOutputConfig (fun s c => staysOff s c = false) s) ∧
    (∃ s, Takes defOutputGetConfig s) ∧
    (∃ s, Takes defOutputStatus s) ∧
    (∃ s, Takes defOutputCounters s) :=
  ⟨⟨posted defOutputConfig ((outCfg 3).set 2 0) 0 State.reset, takesWhen⟩,
   ⟨posted defOutputConfig (outCfg 3) 0 ({ State.reset with
      outputs := [(3, { state := .idle, config := outCfg 3, committed := outCfg 3, frame := 7, latched := 7, lastLatch := 1, nextLatch := 20000000 })] }),
    takesWhen⟩,
   ⟨posted defOutputGetConfig (le 2 3 ++ zeros 2) 0 ({ State.reset with
      outputs := [(3, { state := .idle, config := outCfg 3, committed := outCfg 3, frame := 7, latched := 7, lastLatch := 1, nextLatch := 20000000 })] }),
    takes⟩,
   ⟨posted defOutputStatus (le 2 3 ++ zeros 2) 0 ({ State.reset with
      outputs := [(3, { state := .idle, config := outCfg 3, committed := outCfg 3, frame := 7, latched := 7, lastLatch := 1, nextLatch := 20000000 })] }),
    takes⟩,
   ⟨posted defOutputCounters (le 2 3 ++ zeros 2) 0 ({ State.reset with
      outputs := [(3, { state := .idle, config := outCfg 3, committed := outCfg 3, frame := 7, latched := 7, lastLatch := 1, nextLatch := 20000000, counts := { frames := 9 } })] }),
    takes⟩⟩

theorem witness_OutputEventsComplete :
    (∃ (d : BitVec 16) (s : State), isTimed d.toNat = true ∧ (getOutput s d.toNat).state ≠ .off ∧ (getOutput s
      d.toNat).latched = (getOutput s d.toNat).frame ∧ gangTail s d.toNat = false ∧ s.fm.shadow = []) ∧
    (∃ (d : BitVec 16) (x : Shadow) (e : Bytes) (k : Nat) (s : State), isTimed d.toNat = true ∧ (getOutput s
      d.toNat).state ≠ .off ∧ (getOutput s d.toNat).latched = (getOutput s d.toNat).frame ∧ gangTail s d.toNat = false
      ∧ s.fm.shadow = [x] ∧ x.body = .route e k ∧ x.fences = [] ∧ x.wake = wakeEpoch s x.unit ∧ x.unit = d.toNat ∧
      dueAt d.toNat (getOutput s d.toNat).latched x = true) ∧
    (∃ (d : BitVec 16) (s : State), isTimed d.toNat = true ∧ gangTail s d.toNat = false ∧ (getOutput s d.toNat).state
      ≠ .off ∧ (getOutput s d.toNat).latched = (getOutput s d.toNat).frame + 1) ∧
    (∃ (d : BitVec 16) (x : Shadow) (b : Bytes) (s : State), isTimed d.toNat = true ∧ gangTail s d.toNat = false ∧
      (getOutput s d.toNat).state = .off ∧ enableDue s d.toNat = some x ∧ x.body = .output b) ∧
    (∃ (d : BitVec 16) (field2 : Bool) (s : State), isTimed d.toNat = true ∧ (getOutput s d.toNat).state ≠ .off ∧
      fmtHeight (ocFormat (getOutput s d.toNat).config) ≠ 486 ∧ (fmtScan (ocFormat (getOutput s d.toNat).config) = 0 →
      field2 = false)) ∧
    (∃ (d : BitVec 16) (s : State), isTimed d.toNat = true ∧ (getOutput s d.toNat).state ≠ .off ∧ ocMatch (getOutput s
      d.toNat).config ≠ 0) ∧
    (∃ (d : BitVec 16) (s : State), (∃ a b n, (getOutput s d.toNat).sending = .frame a b n) ∨ (∃ k, (getOutput s
      d.toNat).sending = .ashlar k)) :=
  ⟨⟨3, { State.reset with
      outputs := [(3, { state := .idle, config := outCfg 3, committed := outCfg 3, frame := 7, latched := 7, lastLatch := 1, nextLatch := 20000000 })] },
    by decide +kernel⟩,
   ⟨3, { gen := 4, unit := 3, body := .route (route 3 5) 1, written := true, target := 2 }, (route 3 5), 1,
    { State.reset with
      outputs := [(3, { state := .idle, config := outCfg 3, committed := outCfg 3, frame := 7, latched := 7, lastLatch := 1, nextLatch := 20000000 })],
      fm := { State.reset.fm with gen := 4, shadow := [{ gen := 4, unit := 3, body := .route (route 3 5) 1, written := true, target := 2 }], changes := [{ gen := 4, remaining := [3] }] } },
    by decide +kernel⟩,
   ⟨3, { State.reset with
      outputs := [(3, { state := .idle, config := outCfg 3, frame := 7, latched := 8, next := .black, nextSource := 9 })] },
    by decide +kernel⟩,
   ⟨3, { gen := 4, unit := 3, body := .output (outCfg 3), written := true }, (outCfg 3), { State.reset with
      outputs := [(3, { frame := 7 })],
      fm := { State.reset.fm with gen := 4, shadow := [{ gen := 4, unit := 3, body := .output (outCfg 3), written := true }], changes := [{ gen := 4, remaining := [3] }] } },
    by decide +kernel⟩,
   ⟨3, false, { State.reset with
      outputs := [(3, { state := .idle, config := outCfg 3, committed := outCfg 3, frame := 7, latched := 7, lastLatch := 1, nextLatch := 20000000 })] },
    by decide +kernel⟩,
   ⟨3, { State.reset with
      outputs := [(3, { state := .idle, config := (outCfg 3).set 26 9, committed := outCfg 3, frame := 7, latched := 7, lastLatch := 1, nextLatch := 20000000 })] },
    by decide +kernel⟩,
   ⟨3, { State.reset with
      outputs := [(3, { state := .idle, config := outCfg 3, committed := outCfg 3, frame := 7, latched := 7, lastLatch := 1, nextLatch := 20000000, sending := .frame 1 2 3 })] },
    Or.inl ⟨1, 2, 3, by decide +kernel⟩⟩⟩

theorem witness_AshlarCommandsComplete :
    (∃ s, TakesWhen defAshlarConfig (fun s c => ashlarStaysOff s c = true) s) ∧
    (∃ s, TakesWhen defAshlarConfig (fun s c => ashlarStaysOff s c = false) s) ∧
    (∃ s, Takes defAshlarGetConfig s) ∧
    (∃ s, Takes defAshlarLayers s) ∧
    (∃ s, Takes defAshlarGetLayers s) ∧
    (∃ s, Takes defAshlarStatus s) ∧
    (∃ (i : BitVec 16) (b : Bench) (j : Nat) (s : State), isAshlarObj i.toNat = true ∧ getBench s (wbKey (i.toNat -
      0xC0)) = some b ∧ landingSlot b = some j) :=
  ⟨⟨posted defAshlarConfig ([0, 0, 0, 0, 3, 0] ++ zeros 38) 0 State.reset, takesWhen⟩,
   ⟨posted defAshlarConfig (([0, 1, 8, 0, 3, 0] ++ zeros 38)) 0 ({ State.reset with
      outputs := [(3, { state := .idle, config := outCfg 3, committed := outCfg 3, frame := 7, latched := 7, lastLatch := 1, nextLatch := 20000000 })] }),
    takesWhen⟩,
   ⟨posted defAshlarGetConfig (zeros 4) 0 ({ State.reset with
      ashlars := [(0, { committed := ([0, 1, 8, 0, 3, 0] ++ zeros 38), config := ([0, 1, 8, 0, 3, 0] ++ zeros 38), enabled := true })] }),
    takes⟩,
   ⟨posted defAshlarLayers ([0, 1, 1, 0] ++ zeros 4 ++ zeros 16 ++ [5] ++ zeros 47) 0 ({ State.reset with
      ashlars := [(0, { committed := ([0, 1, 8, 0, 3, 0] ++ zeros 38), config := ([0, 1, 8, 0, 3, 0] ++ zeros 38), enabled := true })],
      outputs := [(3, { state := .idle, config := outCfg 3, committed := outCfg 3, frame := 7, latched := 7, lastLatch := 1, nextLatch := 20000000 })] }),
    takes⟩,
   ⟨posted defAshlarGetLayers (zeros 4) 0 ({ State.reset with
      ashlars := [(0, { committed := ([0, 1, 8, 0, 3, 0] ++ zeros 38), config := ([0, 1, 8, 0, 3, 0] ++ zeros 38), enabled := true, pendingLayers := [(5, 5 :: 2 :: zeros 46)] })] }),
    takes⟩,
   ⟨posted defAshlarStatus (zeros 4) 0 ({ State.reset with
      ashlars := [(0, { committed := ([0, 1, 8, 0, 3, 0] ++ zeros 38), config := ([0, 1, 8, 0, 3, 0] ++ zeros 38), enabled := true, lastFrame := 7 })] }),
    takes⟩,
   ⟨0xC0,
    { id := 1, slots := 4, pendingSlots := 4, frameArea := 4096, ancArea := 0, blocks := [0], slot := [(2, { state := .landing, frame := 6 })] },
    2, { State.reset with
      ashlars := [(0, { committed := ([0, 1, 8, 0, 3, 0] ++ zeros 38), config := ([0, 1, 8, 0, 3, 0] ++ zeros 38), enabled := true })],
      outputs := [(3, { state := .idle, config := outCfg 3, committed := outCfg 3, frame := 7, latched := 7, lastLatch := 1, nextLatch := 20000000 })],
      store := { State.reset.store with benches := [(wbKey 0, { id := 1, slots := 4, pendingSlots := 4, frameArea := 4096, ancArea := 0, blocks := [0], slot := [(2, { state := .landing, frame := 6 })] })] } },
    by decide +kernel⟩⟩

theorem witness_AudioCommandsComplete :
    (∃ s, Takes defAudioMap s) ∧
    (∃ s, Takes defAudioGetMap s) ∧
    (∃ s, Takes defAudioLevel s) ∧
    (∃ s, TakesWhen defAudioEmbed (fun s c => latches s (u16 c.p 0) = true) s) ∧
    (∃ s, TakesWhen defAudioEmbed (fun s c => latches s (u16 c.p 0) = false) s) ∧
    (∃ s, Takes defAudioCompanion s) ∧
    (∃ s, TakesWhen defAudioFlowMap (fun _ c => u8 c.p 4 ≠ 0) s) ∧
    (∃ s, TakesWhen defAudioFlowMap (fun _ c => u8 c.p 4 = 0) s) ∧
    (∃ s, Takes defAudioTone s) ∧
    (∃ s, Takes defAudioMeters s) ∧
    (∃ s, Takes defAudioDestStatus s) ∧
    (∃ s, Takes defAudioSourceStatus s) ∧
    (∃ s, Takes defAudioEngineStatus s) :=
  ⟨⟨posted defAudioMap (le 2 1 ++ le 2 0xFFFF ++ zeros 4 ++ ([0, 0x18, 0, 0x18, 1, 0] ++ le 2 0 ++ [0xFF, 0xFF, 0, 0]
    ++ zeros 4)) 0 State.reset, takes⟩,
   ⟨posted defAudioGetMap (le 2 0x1800 ++ le 2 4) 0 ({ State.reset with
      audio := { State.reset.audio with dests := [(0x1800, { committed := ([0, 0x18, 0, 0x18, 1, 0] ++ le 2 0 ++ [0xFF, 0xFF, 0, 0] ++ zeros 4) })] } }),
    takes⟩,
   ⟨posted defAudioLevel (le 2 1 ++ zeros 6 ++ le 2 0x1800 ++ le 2 0xFF00 ++ zeros 4) 0 ({ State.reset with
      audio := { State.reset.audio with dests := [(0x1800, { committed := ([0, 0x18, 0, 0x18, 1, 0] ++ le 2 0 ++ [0xFF, 0xFF, 0, 0] ++ zeros 4), entry := ([0, 0x18, 0, 0x18, 1, 0] ++ le 2 0 ++ [0xFF, 0xFF, 0, 0] ++ zeros 4) })] } }),
    takes⟩,
   ⟨posted defAudioEmbed (le 2 3 ++ [1, 8, 0, 0, 0, 0]) 0 ({ State.reset with
      outputs := [(3, { state := .idle, config := outCfg 3, committed := outCfg 3, frame := 7, latched := 7, lastLatch := 1, nextLatch := 20000000 })] }),
    takesWhen⟩,
   ⟨posted defAudioEmbed (le 2 3 ++ [1, 8, 0, 0, 0, 0]) 0 State.reset, takesWhen⟩,
   ⟨posted defAudioCompanion (le 2 0x83 ++ [4, 0] ++ le 2 0x1000 ++ zeros 2) 0 State.reset, takes⟩,
   ⟨posted defAudioFlowMap ([0, 1] ++ le 2 16 ++ [4, 0, 0, 0]) 0 State.reset, takesWhen⟩,
   ⟨posted defAudioFlowMap ([0, 1] ++ le 2 16 ++ [0, 0, 0, 0]) 0 ({ State.reset with
      audio := { State.reset.audio with binds := [(bindKey 0 1, { base := 16, count := 4 })] } }), takesWhen⟩,
   ⟨posted defAudioTone ([3, 1] ++ le 2 1000 ++ le 2 0 ++ zeros 2) 0 State.reset, takes⟩,
   ⟨posted defAudioMeters ([0, 0] ++ le 2 0x1800 ++ le 2 2 ++ zeros 2) 0
    ({ State.reset with audio := { State.reset.audio with lastBlock := 55 } }), takes⟩,
   ⟨posted defAudioDestStatus (le 2 0x1800 ++ zeros 2) 0 ({ State.reset with
      audio := { State.reset.audio with dests := [(0x1800, { committed := ([0, 0x18, 0, 0x18, 1, 0] ++ le 2 0 ++ [0xFF, 0xFF, 0, 0] ++ zeros 4), entry := ([0, 0x18, 0, 0x18, 1, 0] ++ le 2 0 ++ [0xFF, 0xFF, 0, 0] ++ zeros 4), source := some 0x1800, slips := 3 })] } }),
    takes⟩,
   ⟨posted defAudioSourceStatus (le 2 0x1800 ++ zeros 2) 0 ({ State.reset with
      audio := { State.reset.audio with sources := [(0x1800, { concealed := 3 })] } }), takes⟩,
   ⟨posted defAudioEngineStatus ([]) 0 State.reset, takes⟩⟩

theorem witness_AudioEventsComplete :
    (∃ (facts : List MeterFact) (k : Nat) (m : MeterFact) (s : State), Tab.keys s.audio.sources = [k] ∧ s.audio.dests
      = [] ∧ facts = [m] ∧ m.dest = false ∧ m.channel = k) ∧
    (∃ (ch : BitVec 16) (s : State), sourceActive s ch.toNat = true) ∧
    (∃ (k : Fin 512) (d : Nat) (x : AudioDest) (s : State), s.audio.dests = [(d, x)] ∧ x.asrc = some k.val ∧
      s.updating = false ∧ x.wanted = false ∧ wantsAsrc s d (effEntry s d) x.source = false) ∧
    (∃ (ch : BitVec 16) (src : Nat) (s : State), (getAdest s ch.toNat).source = some src ∧ (getAdest s ch.toNat).asrc
      = none ∧ (getAsrc s src).nonPcm = false ∧ meAsrc (effEntry s ch.toNat) ≠ 0) ∧
    (∃ (ch : BitVec 16) (src : Nat) (k : Nat) (ks : List Nat) (s : State), (getAdest s ch.toNat).source = some src ∧
      (getAdest s ch.toNat).asrc = none ∧ (getAsrc s src).nonPcm = false ∧ meAsrc (effEntry s ch.toNat) = 0 ∧ mePair
      (effEntry s ch.toNat) = false ∧ freeAsrc s (halfOf ch.toNat) = k :: ks ∧ s.updating = false) ∧
    (∃ (ch : BitVec 16) (src : Nat) (s : State), (getAdest s ch.toNat).source = some src ∧ (getAsrc s src).nonPcm =
      true) ∧
    (∃ (ch : BitVec 16) (out : Bool) (s : State), (getAdest s ch.toNat).asrc.isSome ∧ (getAdest s ch.toNat).rateRange
      ≠ out) ∧
    (∃ (h : Fin 2) (s : State), (getDomain s (0x4C + h.val)).idle = true ∧ (getDomain s (0x4C + h.val)).mode = 0 ∧
      domainNeeded s (0x4C + h.val) = false ∧ (getDomain s (0x4C + h.val)).state = .on) :=
  ⟨⟨[{ dest := false, channel := 0x1800, level := -5, clips := 1 }], 0x1800,
    { dest := false, channel := 0x1800, level := -5, clips := 1 }, { State.reset with
      audio := { State.reset.audio with sources := [(0x1800, { level := -3 })] } }, by decide +kernel⟩,
   ⟨0x1905, { State.reset with audio := { State.reset.audio with tones := [(5, [5, 1])] } }, by decide +kernel⟩,
   ⟨9, 0x1800, { asrc := some 9 }, { State.reset with
      audio := { State.reset.audio with dests := [(0x1800, { asrc := some 9 })] } }, by decide +kernel⟩,
   ⟨0x1800, 0x1800, { State.reset with
      audio := { State.reset.audio with dests := [(0x1800, { source := some 0x1800, entry := ([0, 0x18, 0, 0x18, 1, 16] ++ zeros 10) })] } },
    by decide +kernel⟩,
   ⟨0x1800, 0x1800, 0, ((List.range 255).map (· + 1)), { State.reset with
      audio := { State.reset.audio with dests := [(0x1800, { source := some 0x1800, entry := ([0, 0x18, 0, 0x18, 1, 0] ++ le 2 0 ++ [0xFF, 0xFF, 0, 0] ++ zeros 4) })] } },
    by decide +kernel⟩,
   ⟨0x1800, 0x1801, { State.reset with
      audio := { State.reset.audio with dests := [(0x1800, { source := some 0x1801 })], sources := [(0x1801, { nonPcm := true })] } },
    by decide +kernel⟩,
   ⟨0x1800, true, { State.reset with
      audio := { State.reset.audio with dests := [(0x1800, { asrc := some 4 })] } }, by decide +kernel⟩,
   ⟨1, { State.reset with domains := [(0x4D, { state := .on, idle := true })] }, by decide +kernel⟩⟩

theorem witness_AudioportCommandsComplete :
    (∃ s, TakesWhen defAudioportConfig (fun s c => (getAport s (u8 c.p 0)).state = .off ∨ pcEnable (sub c.p 0 24) =
      false ∨ portRestarts (getAport s (u8 c.p 0)).config c.p = true) s) ∧
    (∃ s, TakesWhen defAudioportConfig (fun s c => (getAport s (u8 c.p 0)).state ≠ .off ∧ pcEnable (sub c.p 0 24) =
      true ∧ portRestarts (getAport s (u8 c.p 0)).config c.p = false) s) ∧
    (∃ s, Takes defAudioportGetConfig s) ∧
    (∃ s, Takes defAudioportStatus s) ∧
    (∃ s, Takes defAudioportShare s) ∧
    (∃ s, Takes defAudioportCapture s) ∧
    (∃ s, Takes defAudioportCaptureStatus s) :=
  ⟨⟨posted defAudioportConfig (([2, 1, 0, 0, 2, 0, 0, 0] ++ le 2 3 ++ zeros 14) ++ zeros 0) 0 State.reset, takesWhen⟩,
   ⟨posted defAudioportConfig (([2, 1, 0, 0, 2, 0, 0, 0] ++ le 2 3 ++ zeros 14).set 10 9) 0 ({ State.reset with
      aports := [(2, { state := .running, config := ([2, 1, 0, 0, 2, 0, 0, 0] ++ le 2 3 ++ zeros 14), committed := ([2, 1, 0, 0, 2, 0, 0, 0] ++ le 2 3 ++ zeros 14) })] }),
    takesWhen⟩,
   ⟨posted defAudioportGetConfig ([2, 0, 0, 0]) 0 ({ State.reset with
      aports := [(2, { committed := ([2, 1, 0, 0, 2, 0, 0, 0] ++ le 2 3 ++ zeros 14) })] }), takes⟩,
   ⟨posted defAudioportStatus ([2, 0, 0, 0]) 0 ({ State.reset with
      aports := [(2, { state := .running, frames := 4, config := ([2, 1, 0, 0, 2, 0, 0, 0] ++ le 2 3 ++ zeros 14) })] }),
    takes⟩,
   ⟨posted defAudioportShare ([2, 3, 0, 0]) 0 State.reset, takes⟩,
   ⟨posted defAudioportCapture ([1, 1, 2, 0, 2, 0, 48, 0, 0, 0, 20] ++ zeros 5) 0
    ({ State.reset with captures := [(1, { sampleCount := 7 })] }), takes⟩,
   ⟨posted defAudioportCaptureStatus ([1, 0, 0, 0]) 0 ({ State.reset with captures := [(1, { overruns := 7 })] }),
    takes⟩⟩

theorem witness_AudioportEventsComplete :
    (∃ (p : Fin 16) (s : State), (getAport s p.val).state = .noClock) ∧
    (∃ (p : Fin 16) (bclks : Nat) (s : State), (getAport s p.val).state = .locking ∧ pcMaster (getAport s
      p.val).config = false ∧ bclks = 32 * pcSlots (getAport s p.val).config ∧ (getAport s p.val).good = 47) ∧
    (∃ (p : Fin 16) (bclks : Nat) (s : State), (getAport s p.val).state = .running ∧ (getAport s p.val).changeAt =
      none ∧ (getAport s p.val).stepDue = none ∧ (pcMaster (getAport s p.val).config = true ∨ bclks = 32 * pcSlots
      (getAport s p.val).config)) ∧
    (∃ (p : Fin 16) (bclks : Nat) (s : State), (getAport s p.val).state = .running ∧ (getAport s p.val).changeAt =
      none ∧ (getAport s p.val).stepDue = none ∧ pcMaster (getAport s p.val).config = false ∧ bclks ≠ 32 * pcSlots
      (getAport s p.val).config ∧ (getAport s p.val).bad = 47) ∧
    (∃ (p : Fin 16) (n : Nat) (s : State), (getAport s p.val).state = .running ∧ (getAport s p.val).changeAt = some n
      ∧ n ≤ s.now) ∧
    (∃ (p : Fin 16) (s : State), pcMaster (getAport s p.val).config = false ∧ (getAport s p.val).state ≠ .off) ∧
    (∃ (p : Fin 16) (s : State), (getAport s p.val).state = .running ∨ (getAport s p.val).state = .locking) ∧
    (∃ (p : Fin 16) (ppm : Int) (whole : Bool) (r : Int) (s : State), (getAport s p.val).state = .running ∧ whole =
      true ∧ (getAport s p.val).reported = some r ∧ (getAport s p.val).tolRun = 2 ∧ 100 * pcRateTol (getAport s
      p.val).config < (deviceRate s ppm - r).natAbs) ∧
    (∃ (p : Fin 16) (s : State), followsShare s (getAport s p.val) = true) ∧
    (∃ (p : Fin 16) (s : State), followsShare s (getAport s p.val) = true) ∧
    (∃ (i : Fin 16) (s : State), (getCapture s i.val).enabled = true ∧ (getCapture s i.val).blocks.length <
      captureDepth (getCapture s i.val)) ∧
    (∃ (i : Fin 16) (s : State), (getCapture s i.val).enabled = true ∧ captureDepth (getCapture s i.val) ≤ (getCapture
      s i.val).blocks.length) ∧
    (∃ (p : Fin 16) (s : State), pcMaster (getAport s p.val).config = false ∧ (getAport s p.val).state = .running) :=
  ⟨⟨2, { State.reset with
      aports := [(2, { config := ([2, 1, 0, 0, 2, 0, 0, 0] ++ le 2 3 ++ zeros 14), state := .noClock })] },
    by decide +kernel⟩,
   ⟨2, 64, { State.reset with
      aports := [(2, { config := ([2, 1, 0, 0, 2, 0, 0, 0] ++ le 2 3 ++ zeros 14), state := .locking, good := 47 })] },
    by decide +kernel⟩,
   ⟨2, 64, { State.reset with
      aports := [(2, { config := ([2, 1, 0, 0, 2, 0, 0, 0] ++ le 2 3 ++ zeros 14), state := .running, bad := 3 })] },
    by decide +kernel⟩,
   ⟨2, 60, { State.reset with
      aports := [(2, { config := ([2, 1, 0, 0, 2, 0, 0, 0] ++ le 2 3 ++ zeros 14), state := .running, bad := 47 })] },
    by decide +kernel⟩,
   ⟨2, 0, { State.reset with
      aports := [(2, { config := ([2, 1, 0, 0, 2, 0, 0, 0] ++ le 2 3 ++ zeros 14), state := .running, changeAt := some 0, committed := ([2, 1, 0, 0, 2, 0, 0, 0] ++ le 2 3 ++ zeros 14) })],
      fm := { State.reset.fm with changes := [] },
      channels := [(1, { state := .running, waiting := some { cause := .audioPort 2, reply := {} } })] },
    by decide +kernel⟩,
   ⟨2, { State.reset with
      aports := [(2, { config := ([2, 1, 0, 0, 2, 0, 0, 0] ++ le 2 3 ++ zeros 14), state := .running })] },
    by decide +kernel⟩,
   ⟨2, { State.reset with
      aports := [(2, { config := ([2, 1, 0, 0, 2, 0, 0, 0] ++ le 2 3 ++ zeros 14), state := .running })] },
    by decide +kernel⟩,
   ⟨2, (20000), true, (5), { State.reset with
      aports := [(2, { config := ([2, 1, 0, 0, 2, 0, 0, 0] ++ le 2 3 ++ zeros 14), state := .running, reported := some 5, tolRun := 2 })] },
    by decide +kernel⟩,
   ⟨2, { State.reset with
      refs := { State.reset.refs with shareMode := 2 },
      aports := [(2, { config := ([2, 1, 1, 0, 2, 1, 0, 0x20] ++ le 2 3 ++ zeros 14), state := .running, alignRun := 9 })] },
    by decide +kernel⟩,
   ⟨2, { State.reset with
      refs := { State.reset.refs with shareMode := 2 },
      aports := [(2, { config := ([2, 1, 1, 0, 2, 1, 0, 0x20] ++ le 2 3 ++ zeros 14), state := .running, stepDue := some 4 })] },
    by decide +kernel⟩,
   ⟨1, { State.reset with
      captures := [(1, { config := ([1, 1, 2, 0, 2, 0, 48, 0, 0, 0, 20] ++ zeros 5), enabled := true })] },
    by decide +kernel⟩,
   ⟨1, { State.reset with
      captures := [(1, { config := ([1, 1, 2, 0, 2, 0, 48, 0, 0, 0, 20] ++ zeros 5), enabled := true, blocks := List.replicate 20 (0, []) })] },
    by decide +kernel⟩,
   ⟨2, { State.reset with
      aports := [(2, { config := ([2, 1, 0, 0, 2, 0, 0, 0] ++ le 2 3 ++ zeros 14), state := .running })] },
    by decide +kernel⟩⟩

theorem witness_ReferenceCommandsComplete :
    (∃ s, Takes defReferenceConfig s) ∧
    (∃ s, Takes defReferenceGetConfig s) ∧
    (∃ s, Takes defReferenceStatus s) ∧
    (∃ s, Takes defReferenceInput s) ∧
    (∃ s, Takes defReferenceInputStatus s) ∧
    (∃ s, Takes defReferenceTimeSource s) ∧
    (∃ s, TakesWhen defReferenceClkout (fun _ c => u8 c.p 1 = 0) s) ∧
    (∃ s, TakesWhen defReferenceClkout (fun s c => u8 c.p 1 = 1 ∧ getClk s (u8 c.p 0) ≠
      { getClk s (u8 c.p 0) with engine := u8 c.p 2, freq := u8 c.p 3, running := true }) s) ∧
    (∃ s, TakesWhen defReferenceClkout (fun s c => u8 c.p 1 = 1 ∧ getClk s (u8 c.p 0) =
      { getClk s (u8 c.p 0) with engine := u8 c.p 2, freq := u8 c.p 3, running := true }) s) :=
  ⟨⟨posted defReferenceConfig (([1] ++ zeros 151)) 0 State.reset, takes⟩,
   ⟨posted defReferenceGetConfig ([1, 0, 0, 0]) 0 ({ State.reset with
      refs := { State.reset.refs with engines := [(1, { config := ([1] ++ zeros 151) })] } }), takes⟩,
   ⟨posted defReferenceStatus ([1, 0, 0, 0]) 0 ({ State.reset with
      refs := { State.reset.refs with engines := [(1, { jumps := 3, selected := some 2 })] } }), takes⟩,
   ⟨posted defReferenceInput ([1, 1, 0, 0] ++ zeros 20) 0
    ({ State.reset with refs := { State.reset.refs with inputs := [(1, { losses := 3 })] } }), takes⟩,
   ⟨posted defReferenceInputStatus ([1, 0, 0, 0]) 0 ({ State.reset with
      refs := { State.reset.refs with inputs := [(1, { losses := 3, state := 3 })] } }), takes⟩,
   ⟨posted defReferenceTimeSource ([4, 0, 0, 0]) 0 State.reset, takes⟩,
   ⟨posted defReferenceClkout ([1, 0, 2, 3]) 0 ({ State.reset with
      refs := { State.reset.refs with clkouts := [(1, { enable := true, running := true })] } }), takesWhen⟩,
   ⟨posted defReferenceClkout ([1, 1, 2, 3]) 0 State.reset, takesWhen⟩,
   ⟨posted defReferenceClkout ([1, 1, 2, 3]) 0 ({ State.reset with
      refs := { State.reset.refs with clkouts := [(1, { enable := true, running := true, engine := 2, freq := 3 })] } }),
    takesWhen⟩⟩

theorem witness_ReferenceEventsComplete :
    (∃ (s : State), servoHeld s = false) ∧
    (∃ (f : CandidateFacts) (_ : State), f.kind = 2) ∧
    (∃ (f : CandidateFacts) (s : State), f.kind = 1 ∧ inputEnabled s f.index = true) ∧
    (∃ (p : Fin 4) (s : State), (getNet s p.val).link = .up ∧ offloadHeld s = false) ∧
    (∃ (e : Fin 8) (k : Fin 8) (s : State), (getCand (getRef s e.val) k.val).waiting = true ∧ bestCand s (getRef s
      e.val) slots = some k.val ∧ (getRef s e.val).selected ≠ some k.val) ∧
    (∃ (e : Fin 8) (s : State), (getRef s e.val).state = .holdover ∧ (getRef s e.val).holdoverExpired = false) ∧
    (∃ (k : Fin 2) (s : State), (getClk s k.val).enable = true) :=
  ⟨⟨{ State.reset with
      refs := { State.reset.refs with engines := [(1, { pending := some ([1] ++ zeros 151) })], pendingSource := some (some 1) } },
    by decide +kernel⟩,
   ⟨{ kind := 2, index := 1, domain := 5, quality := 3, phase := 7 }, { State.reset with
      refs := { State.reset.refs with engines := [(0, { config := ([0, 0, 0, 0] ++ zeros 20 ++ [2, 1, 1, 0, 5, 0] ++ zeros 122) })] },
      netPorts := [(0, { link := .up })] }, by decide +kernel⟩,
   ⟨{ kind := 1, index := 0, quality := 3, format := [1, 2, 3, 4, 5, 6] }, { State.reset with
      refs := { State.reset.refs with inputs := [(0, { config := [0, 1, 0, 0] ++ zeros 20 })] } }, by decide +kernel⟩,
   ⟨0, { State.reset with
      refs := { State.reset.refs with engines := [(0, { config := ([0, 0, 0, 0] ++ zeros 20 ++ [2, 1, 1, 0, 5, 0] ++ zeros 122) })] },
      netPorts := [(0, { link := .up })] }, by decide +kernel⟩,
   ⟨0, 0, { State.reset with
      refs := { State.reset.refs with engines := [(0, { config := ([0, 0, 0, 0] ++ zeros 20 ++ [2, 1, 1, 0, 5, 0] ++ zeros 122), candidates := [(0, { quality := 3, waiting := true })] })] },
      netPorts := [(0, { link := .up })] }, by decide +kernel⟩,
   ⟨1, { State.reset with
      refs := { State.reset.refs with engines := [(1, { state := .holdover })] } }, by decide +kernel⟩,
   ⟨1, { State.reset with
      refs := { State.reset.refs with clkouts := [(1, { enable := true })] },
      channels := [(1, { state := .running, waiting := some { cause := .clockOut 1, reply := {} } })] },
    by decide +kernel⟩⟩

theorem witness_NetCommandsComplete :
    (∃ s, TakesWhen defNetPortConfig (fun s c => u8 c.p 1 = 0 ∨ ncEnable (getNet s (u8 c.p 0)).config = true) s) ∧
    (∃ s, TakesWhen defNetPortConfig (fun s c => u8 c.p 1 = 1 ∧ ncEnable (getNet s (u8 c.p 0)).config = false) s) ∧
    (∃ s, Takes defNetPortGetConfig s) ∧
    (∃ s, Takes defNetPortStatus s) ∧
    (∃ s, TakesWhen defNetRxFlow (fun s c => flowChange (flowCommitted (getFlow s (rxKey c.p))) c.p ≠ .move) s) ∧
    (∃ s, TakesWhen defNetRxFlow (fun s c => flowChange (flowCommitted (getFlow s (rxKey c.p))) c.p = .start) s) ∧
    (∃ s, TakesWhen defNetRxFlow (fun s c => flowChange (flowCommitted (getFlow s (rxKey c.p))) c.p = .move) s) ∧
    (∃ s, Takes defNetTxFlow s) ∧
    (∃ s, TakesWhen defNetTxFlow (fun s c => flowChange (flowCommitted (getFlow s (txKey c.p))) c.p = .start) s) ∧
    (∃ s, TakesWhen defNetTxFlow (fun s c => flowChange (flowCommitted (getFlow s (txKey c.p))) c.p = .rule ∧ txAtRest
      s c.p = false) s) ∧
    (∃ s, Takes defNetFlowGet s) ∧
    (∃ s, Takes defNetFlowStatus s) ∧
    (∃ (acked : Bool) (data : Bytes) (s : State), Takes (defNetModuleIo acked data) s) :=
  ⟨⟨posted defNetPortConfig (([1, 0, 0, 24] ++ le 4 0x0A000002 ++ zeros 24)) 0 ({ State.reset with
      netPorts := [(1, { config := ([1, 1, 0, 24] ++ le 4 0x0A000002 ++ zeros 24), present := true })] }), takesWhen⟩,
   ⟨posted defNetPortConfig (([1, 1, 0, 24] ++ le 4 0x0A000002 ++ zeros 24)) 0 ({ State.reset with
      fuses := [(0x1FC, 4)], fw := { State.reset.fw with fuseMap := [(0x1FC, 4)] } }), takesWhen⟩,
   ⟨posted defNetPortGetConfig ([1, 0, 0, 0]) 0 ({ State.reset with
      netPorts := [(1, { config := ([1, 1, 0, 24] ++ le 4 0x0A000002 ++ zeros 24) })] }), takes⟩,
   ⟨posted defNetPortStatus ([1, 0, 0, 0]) 0 ({ State.reset with netPorts := [(1, { rx := 5, link := .up })] }),
    takes⟩,
   ⟨posted defNetRxFlow (([0, 0, 1, 2, 0, 97, 0, 0] ++ le 4 0x1234 ++ le 4 0xE1000001 ++ le 4 0 ++ le 2 5000 ++ le 2 0
    ++ le 4 0x0A000001 ++ zeros 20)) 0 ({ State.reset with
      sources := [(0x80, { contract := some (contract 0x80) })],
      netPorts := [(1, { config := ([1, 1, 0, 24] ++ le 4 0x0A000002 ++ zeros 24), present := true, link := .up })],
      flows := [(flowKey 0 0 0, { config := ([0, 0, 1, 2, 0, 96, 0, 0] ++ le 4 0x1234 ++ le 4 0xE1000001 ++ le 4 0 ++ le 2 5000 ++ le 2 0 ++ le 4 0x0A000001 ++ zeros 20) })] }),
    takesWhen⟩,
   ⟨posted defNetRxFlow (([0, 0, 1, 2, 0, 96, 0, 0] ++ le 4 0x1234 ++ le 4 0xE1000001 ++ le 4 0 ++ le 2 5000 ++ le 2 0
    ++ le 4 0x0A000001 ++ zeros 20)) 0 ({ State.reset with
      sources := [(0x80, { contract := some (contract 0x80) })],
      netPorts := [(1, { config := ([1, 1, 0, 24] ++ le 4 0x0A000002 ++ zeros 24), present := true, link := .up })] }),
    takesWhen⟩,
   ⟨posted defNetRxFlow (([0, 0, 1, 1, 0, 96, 0, 0] ++ le 4 0x1234 ++ le 4 0xE1000001 ++ le 4 0 ++ le 2 5000 ++ le 2 0
    ++ le 4 0x0A000001 ++ zeros 20)) 0 ({ State.reset with
      sources := [(0x80, { contract := some (contract 0x80) })],
      netPorts := [(1, { config := ([1, 1, 0, 24] ++ le 4 0x0A000002 ++ zeros 24), present := true, link := .up })],
      flows := [(flowKey 0 0 0, { config := ([0, 0, 1, 2, 0, 96, 0, 0] ++ le 4 0x1234 ++ le 4 0xE1000001 ++ le 4 0 ++ le 2 5000 ++ le 2 0 ++ le 4 0x0A000001 ++ zeros 20) })] }),
    takesWhen⟩,
   ⟨posted defNetTxFlow (([0, 0, 1, 2, 0, 97, 0, 0] ++ le 4 0x1234 ++ le 4 0xE1000001 ++ le 4 0 ++ le 2 5000 ++ le 2 0
    ++ le 4 7000 ++ zeros 20)) 0 ({ State.reset with
      netPorts := [(1, { config := ([1, 1, 0, 24] ++ le 4 0x0A000002 ++ zeros 24), present := true, link := .up })],
      flows := [(flowKey 1 0 0, { config := ([0, 0, 1, 2, 0, 96, 0, 0] ++ le 4 0x1234 ++ le 4 0xE1000001 ++ le 4 0 ++ le 2 5000 ++ le 2 0 ++ le 4 7000 ++ zeros 20) })] }),
    takes⟩,
   ⟨posted defNetTxFlow (([0, 0, 1, 2, 0, 96, 0, 0] ++ le 4 0x1234 ++ le 4 0xE1000001 ++ le 4 0 ++ le 2 5000 ++ le 2 0
    ++ le 4 7000 ++ zeros 20)) 0 ({ State.reset with
      netPorts := [(1, { config := ([1, 1, 0, 24] ++ le 4 0x0A000002 ++ zeros 24), present := true, link := .up })] }),
    takesWhen⟩,
   ⟨posted defNetTxFlow (([0, 0, 1, 2, 0, 97, 0, 0] ++ le 4 0x1234 ++ le 4 0xE1000001 ++ le 4 0 ++ le 2 5000 ++ le 2 0
    ++ le 4 7000 ++ zeros 20)) 0 ({ State.reset with
      netPorts := [(1, { config := ([1, 1, 0, 24] ++ le 4 0x0A000002 ++ zeros 24), present := true, link := .up })],
      flows := [(flowKey 1 0 0, { config := ([0, 0, 1, 2, 0, 96, 0, 0] ++ le 4 0x1234 ++ le 4 0xE1000001 ++ le 4 0 ++ le 2 5000 ++ le 2 0 ++ le 4 7000 ++ zeros 20) })],
      outputs := [(0x80, { state := .active, config := outCfg 0x80 })] }), takesWhen⟩,
   ⟨posted defNetFlowGet ([0, 0, 0, 0]) 0 ({ State.reset with
      flows := [(flowKey 0 0 0, { config := ([0, 0, 1, 2, 0, 96, 0, 0] ++ le 4 0x1234 ++ le 4 0xE1000001 ++ le 4 0 ++ le 2 5000 ++ le 2 0 ++ le 4 0x0A000001 ++ zeros 20) })] }),
    takes⟩,
   ⟨posted defNetFlowStatus ([0, 0, 0, 0]) 0 ({ State.reset with
      flows := [(flowKey 0 0 0, { config := ([0, 0, 1, 2, 0, 96, 0, 0] ++ le 4 0x1234 ++ le 4 0xE1000001 ++ le 4 0 ++ le 2 5000 ++ le 2 0 ++ le 4 0x0A000001 ++ zeros 20), packets := 7 })] }),
    takes⟩,
   ⟨true, [1,2], posted (defNetModuleIo true [1,2]) ([1, 0, 5, 0, 0, 2, 0, 0]) 0
    ({ State.reset with netPorts := [(1, { present := true })] }), takes⟩⟩

theorem witness_NetReception :
    (∃ (p : Fin 4) (s : State), closing s (0x48 + p.val) = false ∧ (getNet s p.val).link ≠ .up) ∧
    (∃ (p : Fin 4) (m : NetPacket) (s : State), closing s (0x48 + p.val) = false ∧ (getNet s p.val).link = .up ∧
      m.fcsOk = false) ∧
    (∃ (p : Fin 4) (m : NetPacket) (s : State), closing s (0x48 + p.val) = false ∧ (getNet s p.val).link = .up ∧
      m.fcsOk = true ∧ 1522 < m.size) ∧
    (∃ (p : Fin 4) (m : NetPacket) (s : State), closing s (0x48 + p.val) = false ∧ (getNet s p.val).link = .up ∧
      portCheck (getNet s p.val) m = .pass ∧ matchFlow s p.val m = none) ∧
    (∃ (p : Fin 4) (m : NetPacket) (k : Nat) (s : State), closing s (0x48 + p.val) = false ∧ (getNet s p.val).link =
      .up ∧ portCheck (getNet s p.val) m = .pass ∧ matchFlow s p.val m = some k ∧ keyKind k = 2 ∧ (getFlow s k).moving
      = none ∧ (police s (getFlow s k).config (Tab.get (getFlow s k).legs p.val {}) m.ipBytes).2 = false) ∧
    (∃ (p : Fin 4) (m : NetPacket) (k : Nat) (s : State), closing s (0x48 + p.val) = false ∧ (getNet s p.val).link =
      .up ∧ portCheck (getNet s p.val) m = .pass ∧ matchFlow s p.val m = some k ∧ keyKind k = 2 ∧ (getFlow s k).moving
      = none ∧ (police s (getFlow s k).config (Tab.get (getFlow s k).legs p.val {}) m.ipBytes).2 = true ∧ headerOk s
      (getFlow s k).config m = false) ∧
    (∃ (p : Fin 4) (m : NetPacket) (k : Nat) (s : State), closing s (0x48 + p.val) = false ∧ (getNet s p.val).link =
      .up ∧ portCheck (getNet s p.val) m = .pass ∧ matchFlow s p.val m = some k ∧ keyKind k = 2 ∧ (getFlow s k).moving
      = none ∧ (police s (getFlow s k).config (Tab.get (getFlow s k).legs p.val {}) m.ipBytes).2 = true ∧ headerOk s
      (getFlow s k).config m = true ∧ seqCheck (getFlow s k) 16 m.seq = .duplicate ∧ fcKind (getFlow s k).config = 2)
      ∧
    (∃ (p : Fin 4) (m : NetPacket) (k : Nat) (s : State), closing s (0x48 + p.val) = false ∧ (getNet s p.val).link =
      .up ∧ portCheck (getNet s p.val) m = .pass ∧ matchFlow s p.val m = some k ∧ keyKind k = 2 ∧ (getFlow s k).moving
      = none ∧ (police s (getFlow s k).config (Tab.get (getFlow s k).legs p.val {}) m.ipBytes).2 = true ∧ headerOk s
      (getFlow s k).config m = true ∧ seqCheck (getFlow s k) 16 m.seq = .accept ∧ fcKind (getFlow s k).config = 2 ∧
      isLate s (getFlow s k).config (extend (clock90 s.now) m.timestamp) m = false ∧ heldBytes (getFlow s k) +
      m.ipBytes ≤ flowQuota s (getFlow s k).config) ∧
    (∃ (p : Fin 4) (s : State), closing s (0x48 + p.val) = true) ∧
    (∃ (p : Fin 4) (goal : Fin 6) (s : State), goal.val = 5 ∧ ncEnable (getNet s p.val).config = true ∧ (getNet s
      p.val).present = true ∧ netLanesLocked s p.val = true) ∧
    (∃ (p : Fin 4) (s : State), (getNet s p.val).link = .up ∧ ncEnable (getNet s p.val).config = true ∧ (getNet s
      p.val).present = true ∧ netLanesLocked s p.val = false) ∧
    (∃ (kind : Fin 3) (i : BitVec 8) (leg : Fin 2) (live : Bool) (l : Nat × Nat) (s : State), (legsOf (getFlow s
      (flowKey 0 kind.val i.toNat)).config).find? (fun q => q.1 == leg.val) = some l ∧ fcEnable (getFlow s (flowKey 0
      kind.val i.toNat)).config = true ∧ (Tab.get (getFlow s (flowKey 0 kind.val i.toNat)).legs l.2 {}).live ≠ live) ∧
    (∃ (p : Fin 4) (m : NetPacket) (k : Nat) (s : State), closing s (0x48 + p.val) = false ∧ (getNet s p.val).link =
      .up ∧ portCheck (getNet s p.val) m = .pass ∧ matchFlow s p.val m = some k ∧ keyKind k = 2 ∧ (getFlow s k).moving
      = none ∧ (police s (getFlow s k).config (Tab.get (getFlow s k).legs p.val {}) m.ipBytes).2 = true ∧ headerOk s
      (getFlow s k).config m = true ∧ seqCheck (getFlow s k) 16 m.seq = .behind ∧ fcKind (getFlow s k).config = 2) :=
  ⟨⟨1, { State.reset with
      netPorts := [(1, { config := ([1, 1, 0, 24] ++ le 4 0x0A000002 ++ zeros 24) })] }, by decide +kernel⟩,
   ⟨1,
    { size := 1000, fcsOk := false, vlan := none, ipv4 := true, ipOk := true, offload := false, udp := true, src := 0x0A000001, dst := 0xE1000001, port := 5000, ssrc := 0x1234, version := 2, pt := 96, seq := 7, timestamp := 9000, ipBytes := 900, line := 1, field2 := false, lengthOk := true, runsPast := false, data := [1, 2] },
    { State.reset with
      netPorts := [(1, { config := ([1, 1, 0, 24] ++ le 4 0x0A000002 ++ zeros 24), present := true, link := .up })] },
    by decide +kernel⟩,
   ⟨1,
    { size := 1600, fcsOk := true, vlan := none, ipv4 := true, ipOk := true, offload := false, udp := true, src := 0x0A000001, dst := 0xE1000001, port := 5000, ssrc := 0x1234, version := 2, pt := 96, seq := 7, timestamp := 9000, ipBytes := 900, line := 1, field2 := false, lengthOk := true, runsPast := false, data := [1, 2] },
    { State.reset with
      netPorts := [(1, { config := ([1, 1, 0, 24] ++ le 4 0x0A000002 ++ zeros 24), present := true, link := .up })] },
    by decide +kernel⟩,
   ⟨1,
    { size := 1000, fcsOk := true, vlan := none, ipv4 := true, ipOk := true, offload := false, udp := true, src := 0x0A000001, dst := 0xE1000001, port := 5000, ssrc := 0x1234, version := 2, pt := 96, seq := 7, timestamp := 9000, ipBytes := 900, line := 1, field2 := false, lengthOk := true, runsPast := false, data := [1, 2] },
    { State.reset with
      netPorts := [(1, { config := ([1, 1, 0, 24] ++ le 4 0x0A000002 ++ zeros 24), present := true, link := .up })] },
    by decide +kernel, by decide +kernel, rfl, by decide +kernel⟩,
   ⟨1,
    { size := 1000, fcsOk := true, vlan := none, ipv4 := true, ipOk := true, offload := false, udp := true, src := 0x0A000001, dst := 0xE1000001, port := 5000, ssrc := 0x1234, version := 2, pt := 96, seq := 7, timestamp := 9000, ipBytes := 900, line := 1, field2 := false, lengthOk := true, runsPast := false, data := [1, 2] },
    flowKey 0 2 0, { State.reset with
      netPorts := [(1, { config := ([1, 1, 0, 24] ++ le 4 0x0A000002 ++ zeros 24), present := true, link := .up })],
      sources := [(0x80, { state := .formatted, contract := some (contract 0x80) })],
      flows := [(flowKey 0 2 0, { config := ([2, 0, 1, 2, 0, 96, 0, 0] ++ le 4 0x1234 ++ le 4 0xE1000001 ++ le 4 0 ++ le 2 5000 ++ le 2 0 ++ le 4 0x0A000001 ++ zeros 20), legs := [(1, { used := 9999999999999999 })] })] },
    by decide +kernel, by decide +kernel, rfl, by decide +kernel⟩,
   ⟨1,
    { size := 1000, fcsOk := true, vlan := none, ipv4 := true, ipOk := true, offload := false, udp := true, src := 0x0A000001, dst := 0xE1000001, port := 5000, ssrc := 0x1234, version := 2, pt := 100, seq := 7, timestamp := 9000, ipBytes := 900, line := 1, field2 := false, lengthOk := true, runsPast := false, data := [1, 2] },
    flowKey 0 2 0, { State.reset with
      netPorts := [(1, { config := ([1, 1, 0, 24] ++ le 4 0x0A000002 ++ zeros 24), present := true, link := .up })],
      sources := [(0x80, { state := .formatted, contract := some (contract 0x80) })],
      flows := [(flowKey 0 2 0, { config := ([2, 0, 1, 2, 0, 96, 0, 0] ++ le 4 0x1234 ++ le 4 0xE1000001 ++ le 4 0 ++ le 2 5000 ++ le 2 0 ++ le 4 0x0A000001 ++ zeros 20) })] },
    by decide +kernel, by decide +kernel, rfl, by decide +kernel⟩,
   ⟨1,
    { size := 1000, fcsOk := true, vlan := none, ipv4 := true, ipOk := true, offload := false, udp := true, src := 0x0A000001, dst := 0xE1000001, port := 5000, ssrc := 0x1234, version := 2, pt := 96, seq := 7, timestamp := 9000, ipBytes := 900, line := 1, field2 := false, lengthOk := true, runsPast := false, data := [1, 2] },
    flowKey 0 2 0, { State.reset with
      netPorts := [(1, { config := ([1, 1, 0, 24] ++ le 4 0x0A000002 ++ zeros 24), present := true, link := .up })],
      sources := [(0x80, { state := .formatted, contract := some (contract 0x80) })],
      flows := [(flowKey 0 2 0, { config := ([2, 0, 1, 2, 0, 96, 0, 0] ++ le 4 0x1234 ++ le 4 0xE1000001 ++ le 4 0 ++ le 2 5000 ++ le 2 0 ++ le 4 0x0A000001 ++ zeros 20), newest := some 8, seen := [7, 8] })] },
    by decide +kernel, by decide +kernel, rfl, by decide +kernel⟩,
   ⟨1,
    { size := 1000, fcsOk := true, vlan := none, ipv4 := true, ipOk := true, offload := false, udp := true, src := 0x0A000001, dst := 0xE1000001, port := 5000, ssrc := 0x1234, version := 2, pt := 96, seq := 7, timestamp := 9000, ipBytes := 900, line := 1, field2 := false, lengthOk := true, runsPast := false, data := [1, 2] },
    flowKey 0 2 0, { State.reset with
      netPorts := [(1, { config := ([1, 1, 0, 24] ++ le 4 0x0A000002 ++ zeros 24), present := true, link := .up })],
      sources := [(0x80, { state := .formatted, contract := some (contract 0x80) })],
      flows := [(flowKey 0 2 0, { config := ([2, 0, 1, 2, 0, 96, 0, 0] ++ le 4 0x1234 ++ le 4 0xE1000001 ++ le 4 0 ++ le 2 5000 ++ le 2 0 ++ le 4 0x0A000001 ++ zeros 20) })] },
    by decide +kernel, by decide +kernel, rfl, by decide +kernel⟩,
   ⟨1, { State.reset with domains := [(0x49, { state := .drain })] }, by decide +kernel⟩,
   ⟨1, 5, { State.reset with
      lanes := [(0x204, { state := .locked }), (0x205, { state := .locked }), (0x206, { state := .locked }),
      (0x207, { state := .locked })],
      netPorts := [(1, { config := ([1, 1, 0, 24] ++ le 4 0x0A000002 ++ zeros 24), present := true, link := .aligning })] },
    by decide +kernel⟩,
   ⟨1, { State.reset with
      netPorts := [(1, { config := ([1, 1, 0, 24] ++ le 4 0x0A000002 ++ zeros 24), present := true, link := .up })] },
    by decide +kernel⟩,
   ⟨2, 0, 0, true, (0, 1), { State.reset with
      flows := [(flowKey 0 2 0, { config := ([2, 0, 1, 2, 0, 96, 0, 0] ++ le 4 0x1234 ++ le 4 0xE1000001 ++ le 4 0 ++ le 2 5000 ++ le 2 0 ++ le 4 0x0A000001 ++ zeros 20) })] },
    by decide +kernel⟩,
   ⟨1,
    { size := 1000, fcsOk := true, vlan := none, ipv4 := true, ipOk := true, offload := false, udp := true, src := 0x0A000001, dst := 0xE1000001, port := 5000, ssrc := 0x1234, version := 2, pt := 96, seq := 7, timestamp := 9000, ipBytes := 900, line := 1, field2 := false, lengthOk := true, runsPast := false, data := [1, 2] },
    flowKey 0 2 0, { State.reset with
      netPorts := [(1, { config := ([1, 1, 0, 24] ++ le 4 0x0A000002 ++ zeros 24), present := true, link := .up })],
      sources := [(0x80, { state := .formatted, contract := some (contract 0x80) })],
      flows := [(flowKey 0 2 0, { config := ([2, 0, 1, 2, 0, 96, 0, 0] ++ le 4 0x1234 ++ le 4 0xE1000001 ++ le 4 0 ++ le 2 5000 ++ le 2 0 ++ le 4 0x0A000001 ++ zeros 20), newest := some 100, seen := [100] })] },
    by decide +kernel, by decide +kernel, rfl, by decide +kernel⟩⟩

theorem witness_NetRelease :
    (∃ (i : Fin 64) (e : Nat) (supplied : Bool) (s : State), fcEnable (getFlow s (flowKey 0 0 i.val)).config = true ∧
      (getFlow s (flowKey 0 0 i.val)).frameTime = some e ∧ supplied = false) ∧
    (∃ (i : BitVec 8) (e : Nat) (b : FlowBind) (s : State), bindOf s 0 i.toNat = some b ∧ fcEnable (getFlow s (flowKey
      0 1 i.toNat)).config = true ∧ sampleIn (getFlow s (flowKey 0 1 i.toNat)) e = none) ∧
    (∃ (i : BitVec 8) (e : Nat) (b : FlowBind) (h : HeldPacket × Nat) (s : State), bindOf s 0 i.toNat = some b ∧
      fcEnable (getFlow s (flowKey 0 1 i.toNat)).config = true ∧ sampleIn (getFlow s (flowKey 0 1 i.toNat)) e = some
      h) ∧
    (∃ (kind : Fin 3) (i : BitVec 8) (l : Nat × Nat) (s : State), kind.val = 0 ∧ sendsNow s (flowKey 1 kind.val
      i.toNat) = true ∧ legsOf (getFlow s (flowKey 1 kind.val i.toNat)).config = [l] ∧ resolved s l.2 (fcDst (getFlow
      s (flowKey 1 kind.val i.toNat)).config l.1) = true ∧ (getNet s l.2).link = .up) ∧
    (∃ (p : Fin 4) (hop : BitVec 32) (s : State), (getNet s p.val).link = .up ∧ offloadHeld s = false ∧ hop.toNat ∈
      hopsOf s p.val) ∧
    (∃ (p : Fin 4) (group : BitVec 32) (s : State), (getNet s p.val).link = .up ∧ offloadHeld s = false ∧ Tab.get
      (getNet s p.val).reports group.toNat 0 ≠ 0) ∧
    (∃ (p : Fin 4) (s : State), closing s (0x48 + p.val) = false ∧ (getNet s p.val).link = .up ∧ (getNet s
      p.val).offSecond = s.now / 1000000000 ∧ 10000 ≤ (getNet s p.val).offCount) ∧
    (∃ (p : Fin 4) (m : OffloadPacket) (a : Nat) (mac : Nat) (s : State), closing s (0x48 + p.val) = false ∧ (getNet s
      p.val).link = .up ∧ (getNet s p.val).offSecond = s.now / 1000000000 ∧ (getNet s p.val).offCount < 10000 ∧
      offloadHeld s = false ∧ m = .arpReply a mac ∧ (hopsOf s p.val).contains a = true) ∧
    (∃ (p : Fin 4) (addr : BitVec 32) (conflict : Bool) (s : State), conflict = true ∧ (getNet s p.val).link = .up ∧
      npAddress (getNet s p.val).config = addr.toNat) ∧
    (∃ (p : Fin 4) (addr : BitVec 32) (conflict : Bool) (s : State), conflict = false ∧ addr.toNat ∈ hopsOf s p.val ∧
      (Tab.get (getNet s p.val).arp addr.toNat {}).mac = none ∧ (Tab.get (getNet s p.val).arp addr.toNat {}).raised =
      false) ∧
    (∃ (i : Fin 64) (s : State), (getSource s (0x80 + i.val)).state = .formatted ∧ (getSource s (0x80 +
      i.val)).pendingDisable = false ∧ (getFlow s (flowKey 0 0 i.val)).pending = none ∧ fcEnable (getFlow s (flowKey 0
      0 i.val)).config = true ∧ ((legsOf (getFlow s (flowKey 0 0 i.val)).config).any fun l => (Tab.get (getFlow s
      (flowKey 0 0 i.val)).legs l.2 {}).live) = false) :=
  ⟨⟨0, 9000, false, { State.reset with
      sources := [(0x80, { state := .formatted, contract := some (contract 0x80) })],
      flows := [(flowKey 0 0 0, { config := ([0, 0, 1, 2, 0, 96, 0, 0] ++ le 4 0x1234 ++ le 4 0xE1000001 ++ le 4 0 ++ le 2 5000 ++ le 2 0 ++ le 4 0x0A000001 ++ zeros 20), frameTime := some 9000, moveFrame := some 9000, held := [{ seq := 1, time := 8000, line := 3, field2 := false, bytes := 900, data := (List.range 200).map (BitVec.ofNat 8) }, { seq := 1, time := 9500, line := 3, field2 := false, bytes := 900, data := (List.range 200).map (BitVec.ofNat 8) }] })] },
    by decide +kernel⟩,
   ⟨0, 100, { base := 4, count := 2 }, { State.reset with
      audio := { State.reset.audio with binds := [(bindKey 0 0, { base := 4, count := 2 })] },
      flows := [(flowKey 0 1 0, { config := ([1, 0, 1, 2, 0, 96, 0, 0] ++ le 4 0x1234 ++ le 4 0xE1000001 ++ le 4 0 ++ le 2 5000 ++ le 2 0 ++ le 4 0x0A000001 ++ zeros 20) })] },
    by decide +kernel⟩,
   ⟨0, 100, { base := 4, count := 2 },
    ({ seq := 1, time := 96, line := 3, field2 := false, bytes := 900, data := (List.range 200).map (BitVec.ofNat 8) },
    4), { State.reset with
      audio := { State.reset.audio with binds := [(bindKey 0 0, { base := 4, count := 2 })] },
      flows := [(flowKey 0 1 0, { config := ([1, 0, 1, 2, 0, 96, 0, 0] ++ le 4 0x1234 ++ le 4 0xE1000001 ++ le 4 0 ++ le 2 5000 ++ le 2 0 ++ le 4 0x0A000001 ++ zeros 20), held := [{ seq := 1, time := 96, line := 3, field2 := false, bytes := 900, data := (List.range 200).map (BitVec.ofNat 8) }] })] },
    by decide +kernel⟩,
   ⟨0, 0, (0, 1), { State.reset with
      netPorts := [(1, { config := ([1, 1, 0, 24] ++ le 4 0x0A000002 ++ zeros 24), present := true, link := .up })],
      outputs := [(0x80, { state := .active, config := outCfg 0x80 })],
      flows := [(flowKey 1 0 0, { config := ([0, 0, 1, 2, 0, 96, 0, 0] ++ le 4 0x1234 ++ le 4 0xE1000001 ++ le 4 0 ++ le 2 5000 ++ le 2 0 ++ le 4 7000 ++ zeros 20) })] },
    by decide +kernel⟩,
   ⟨1, 0x0A000009, { State.reset with
      netPorts := [(1, { config := ([1, 1, 0, 24] ++ le 4 0x0A000002 ++ zeros 24), present := true, link := .up })],
      flows := [(flowKey 1 0 0, { config := ([0, 0, 1, 2, 0, 96, 0, 0] ++ le 4 0x1234 ++ le 4 0x0A000009 ++ le 4 0 ++ le 2 5000 ++ le 2 0 ++ le 4 7000 ++ zeros 20) })] },
    by decide +kernel⟩,
   ⟨1, 0xE1000001, { State.reset with
      netPorts := [(1, { config := ([1, 1, 0, 24] ++ le 4 0x0A000002 ++ zeros 24), present := true, link := .up, reports := [(0xE1000001, 2)] })] },
    by decide +kernel⟩,
   ⟨1, { State.reset with
      netPorts := [(1, { config := ([1, 1, 0, 24] ++ le 4 0x0A000002 ++ zeros 24), present := true, link := .up, offCount := 10000 })] },
    by decide +kernel⟩,
   ⟨1, .arpReply 0x0A000009 77, 0x0A000009, 77, { State.reset with
      netPorts := [(1, { config := ([1, 1, 0, 24] ++ le 4 0x0A000002 ++ zeros 24), present := true, link := .up })],
      flows := [(flowKey 1 0 0, { config := ([0, 0, 1, 2, 0, 96, 0, 0] ++ le 4 0x1234 ++ le 4 0x0A000009 ++ le 4 0 ++ le 2 5000 ++ le 2 0 ++ le 4 7000 ++ zeros 20) })] },
    by decide +kernel⟩,
   ⟨1, 0x0A000002, true, { State.reset with
      netPorts := [(1, { config := ([1, 1, 0, 24] ++ le 4 0x0A000002 ++ zeros 24), present := true, link := .up })] },
    by decide +kernel⟩,
   ⟨1, 0x0A000009, false, { State.reset with
      netPorts := [(1, { config := ([1, 1, 0, 24] ++ le 4 0x0A000002 ++ zeros 24), present := true, link := .up })],
      flows := [(flowKey 1 0 0, { config := ([0, 0, 1, 2, 0, 96, 0, 0] ++ le 4 0x1234 ++ le 4 0x0A000009 ++ le 4 0 ++ le 2 5000 ++ le 2 0 ++ le 4 7000 ++ zeros 20) })] },
    by decide +kernel⟩,
   ⟨0, { State.reset with
      sources := [(0x80, { state := .formatted, contract := some (contract 0x80) })],
      flows := [(flowKey 0 0 0, { config := ([0, 0, 1, 2, 0, 96, 0, 0] ++ le 4 0x1234 ++ le 4 0xE1000001 ++ le 4 0 ++ le 2 5000 ++ le 2 0 ++ le 4 0x0A000001 ++ zeros 20) })] },
    by decide +kernel⟩⟩

theorem witness_AditRowsComplete :
    (∃ s, Takes defAditConfig s) ∧
    (∃ s, Takes defAditStatus s) ∧
    (∃ s, TakesWhen defAditTie (fun s c => tcDir c.p = 0 ∧ aditCarries s = true) s) ∧
    (∃ s, TakesWhen defAditTie (fun s c => tcDir c.p = 0 ∧ aditCarries s = false) s) ∧
    (∃ s, TakesWhen defAditTie (fun s c => tcDir c.p = 1 ∧ atRest s (0x100 + tcTie c.p) = true) s) ∧
    (∃ s, TakesWhen defAditTie (fun s c => tcDir c.p = 1 ∧ atRest s (0x100 + tcTie c.p) = false) s) ∧
    (∃ s, Takes defAditTieStatus s) ∧
    (∃ (i : Fin 8) (s : State), s.adit.enable = true ∧ (getLane s (0x400 + i.val)).state = .locked) ∧
    (∃ (s : State), closing s 0x4E = true) ∧
    (∃ (s : State), closing s 0x4E = false ∧ s.adit.enable = true) ∧
    (∃ (i : Fin 8) (s : State), s.adit.enable = true ∧ s.adit.autoAlign = true ∧ s.updating = false ∧ (getLane s
      (0x400 + i.val)).state = .locked ∧ (getLane s (0x400 + i.val)).align ≠ 1 ∧ bit s.adit.mask i.val = true) :=
  ⟨⟨posted defAditConfig ([1, 1, 255, 0]) 0 State.reset, takes⟩,
   ⟨posted defAditStatus ([]) 0 ({ State.reset with adit := { State.reset.adit with periods := 8 } }), takes⟩,
   ⟨posted defAditTie (([2, 0, 1, 0] ++ hd ++ [0] ++ zeros 11)) 0
    ({ State.reset with adit := { State.reset.adit with link := .up } }), takesWhen⟩,
   ⟨posted defAditTie (([2, 0, 1, 0] ++ hd ++ [0] ++ zeros 11)) 0 State.reset, takesWhen⟩,
   ⟨posted defAditTie (([2, 1, 1, 0] ++ hd ++ [2] ++ zeros 11)) 0 State.reset, takesWhen⟩,
   ⟨posted defAditTie (([2, 1, 0, 0] ++ hd ++ [2] ++ zeros 11)) 0 ({ State.reset with
      adit := { State.reset.adit with ties := [(34, { config := ([2, 1, 1, 0] ++ hd ++ [2] ++ zeros 11) })] },
      sources := [(0x102, { enabled := true, state := .formatted, contract := some (contract 0x102) })] }),
    takesWhen⟩,
   ⟨posted defAditTieStatus ([2, 0, 0, 0]) 0
    ({ State.reset with adit := { State.reset.adit with ties := [(2, { frames := 3 })] } }), takes⟩,
   ⟨2, { State.reset with
      lanes := [(0x402, { state := .locked })], adit := { State.reset.adit with enable := true } },
    by decide +kernel⟩,
   ⟨{ State.reset with domains := [(0x4E, { state := .drain })] }, by decide +kernel⟩,
   ⟨{ State.reset with
      adit := { State.reset.adit with enable := true, ties := [(2, { pending := some ([2, 0, 1, 0] ++ hd ++ [0] ++ zeros 11) })] } },
    by decide +kernel⟩,
   ⟨2, { State.reset with
      lanes := [(0x402, { state := .locked })], adit := { State.reset.adit with enable := true, autoAlign := true } },
    by decide +kernel⟩⟩

theorem witness_LedgerPowerCommandsComplete :
    (∃ s, Takes defLedgerStatus s) ∧
    (∃ s, Takes defLedgerCeiling s) ∧
    (∃ s, Takes defLedgerDelta s) ∧
    (∃ s, Takes defPowerStatus s) ∧
    (∃ s, Takes defPowerList s) ∧
    (∃ s, TakesWhen defPowerDomain (fun _ c => u8 c.p 1 = 0) s) ∧
    (∃ s, TakesWhen defPowerDomain (fun _ c => u8 c.p 1 = 1) s) ∧
    (∃ s, TakesWhen defPowerDomain (fun _ c => u8 c.p 1 = 2) s) :=
  ⟨⟨posted defLedgerStatus ([]) 0 ({ State.reset with rails := [(3, { measured := 7, peakA := 9 })] }), takes⟩,
   ⟨posted defLedgerCeiling (le 2 0 ++ zeros 22) 0 State.reset, takes⟩,
   ⟨posted defLedgerDelta (le 8 3) 0
    ({ State.reset with fm := { State.reset.fm with gen := 5, deltas := [{ gen := 3 }] } }), takes⟩,
   ⟨posted defPowerStatus ([0x10, 0, 0, 0]) 0 State.reset, takes⟩,
   ⟨posted defPowerList ([]) 0 State.reset, takes⟩,
   ⟨posted defPowerDomain ([0x10, 0, 0, 0]) 0 ({ State.reset with domains := [(16, { state := .off })] }), takesWhen⟩,
   ⟨posted defPowerDomain ([0x10, 1, 0, 0]) 0 ({ State.reset with domains := [(16, { state := .on })] }), takesWhen⟩,
   ⟨posted defPowerDomain ([0x10, 2, 0, 0]) 0 ({ State.reset with domains := [(16, { state := .on })] }), takesWhen⟩⟩

theorem witness_PowerEventsComplete :
    (∃ (r : Fin 10) (sample : Nat) (s : State), (getRail s r.val).state = 0 ∧ (getRail s r.val).overRun.length = 9 ∧
      ceilingMa s r.val < sample) ∧
    (∃ (r : Fin 10) (sample : Nat) (s : State), (getRail s r.val).state ≠ 0 ∧ (getRail s r.val).clearRun = 99 ∧ sample
      ≤ ceilingMa s r.val) ∧
    (∃ (r : Fin 10) (sample : Nat) (s : State), (getRail s r.val).state = 0 ∧ (getRail s r.val).overRun.length < 9 ∧
      ceilingMa s r.val < sample) ∧
    (∃ (d : BitVec 8) (s : State), (getDomain s d.toNat).state = .drain ∧ (getDomain s d.toNat).cut = false) ∧
    (∃ (d : BitVec 8) (s : State), (getDomain s d.toNat).cut = true) ∧
    (∃ (d : BitVec 8) (s : State), (getDomain s d.toNat).state = .waking ∧ (d.toNat = 0x4E → s.adit.enable = false)) ∧
    (∃ (d : BitVec 8) (s : State), (getDomain s d.toNat).state = .quiet) :=
  ⟨⟨3, 4000000000, { State.reset with rails := [(3, { overRun := List.replicate 9 1 })] }, by decide +kernel⟩,
   ⟨3, 0, { State.reset with rails := [(3, { state := 2, clearRun := 99 })] }, by decide +kernel⟩,
   ⟨3, 4000000000, { State.reset with rails := [(3, { overRun := [1] })] }, by decide +kernel⟩,
   ⟨0x10, { State.reset with domains := [(16, { state := .drain })] }, by decide +kernel⟩,
   ⟨0x10, { State.reset with
      domains := [(16, { state := .drain, cut := true, mode := 2 })],
      channels := [(1, { state := .running, waiting := some { cause := .domainOff 16, reply := {} } })] },
    by decide +kernel⟩,
   ⟨0x10, { State.reset with domains := [(16, { state := .waking })] }, by decide +kernel⟩,
   ⟨0x10, { State.reset with
      domains := [(16, { state := .quiet })],
      channels := [(1, { state := .running, waiting := some { cause := .domainOn 16, reply := {} } })] },
    by decide +kernel⟩⟩

theorem witness_EventCommandsComplete :
    (∃ s, Takes defEventEnable s) ∧
    (∃ s, Takes defEventGet s) ∧
    (∃ s, Takes defEventStatus s) ∧
    (∃ s, Takes defEventPort s) ∧
    (∃ s, Takes defJournalStatus s) ∧
    (∃ s, Takes defJournalRead s) ∧
    (∃ s, Takes defJournalCopy s) ∧
    (∃ (p : Port) (src : Fin 1536) (s : State), Tab.has (getCounts s p).windows src.val = false) ∧
    (∃ (p : Port) (src : Fin 1536) (s : State), Tab.has (getCounts s p).windows src.val = true ∧ (Tab.get (getCounts s
      p).windows src.val { source := src.val }).suppressed = 0) ∧
    (∃ (p : Port) (src : Fin 1536) (s : State), Tab.has (getCounts s p).windows src.val = true ∧ (Tab.get (getCounts s
      p).windows src.val { source := src.val }).suppressed ≠ 0 ∧ (getPort s p).ring.enable = true ∧ ringFull (getPort
      s p).ring = false) ∧
    (∃ (s : State), s.fm.jReported < s.fm.jcount) :=
  ⟨⟨posted defEventEnable (le 2 7 ++ le 2 2 ++ [3, 0, 0, 0]) 0 State.reset, takes⟩,
   ⟨posted defEventGet (le 2 7 ++ le 2 2) 0 State.reset, takes⟩,
   ⟨posted defEventStatus ([]) 0 ({ State.reset with eventsA := { written := 5 } }), takes⟩,
   ⟨posted defEventPort ([3, 0, 0, 0]) 0 State.reset, takes⟩,
   ⟨posted defJournalStatus ([]) 0 ({ State.reset with
      fm := { State.reset.fm with jcount := 2, jseq := 2, journal := [{ kind := 1, gen := 1, seq := 1, time := 5, opcode := 0, origin := 0, channel := 0xFF, reason := 0, object := 0, chSeq := 0, target := 0, effect := none, detail := 0, targetKind := 0 }, { kind := 1, gen := 1, seq := 2, time := 5, opcode := 0, origin := 0, channel := 0xFF, reason := 0, object := 0, chSeq := 0, target := 0, effect := none, detail := 0, targetKind := 0 }] } }),
    takes⟩,
   ⟨posted defJournalRead (le 8 1 ++ le 2 5 ++ zeros 6) 0 ({ State.reset with
      fm := { State.reset.fm with jcount := 2, jseq := 2, journal := [{ kind := 1, gen := 1, seq := 1, time := 5, opcode := 0, origin := 0, channel := 0xFF, reason := 0, object := 0, chSeq := 0, target := 0, effect := none, detail := 0, targetKind := 0 }, { kind := 1, gen := 1, seq := 2, time := 5, opcode := 0, origin := 0, channel := 0xFF, reason := 0, object := 0, chSeq := 0, target := 0, effect := none, detail := 0, targetKind := 0 }] } }),
    takes⟩,
   ⟨posted defJournalCopy (le 8 1 ++ le 4 5 ++ le 4 64) 0 ({ State.reset with
      fm := { State.reset.fm with jcount := 2, jseq := 2, journal := [{ kind := 1, gen := 1, seq := 1, time := 5, opcode := 0, origin := 0, channel := 0xFF, reason := 0, object := 0, chSeq := 0, target := 0, effect := none, detail := 0, targetKind := 0 }, { kind := 1, gen := 1, seq := 2, time := 5, opcode := 0, origin := 0, channel := 0xFF, reason := 0, object := 0, chSeq := 0, target := 0, effect := none, detail := 0, targetKind := 0 }] } }),
    takes⟩,
   ⟨.a, 7, State.reset, by decide +kernel⟩,
   ⟨.a, 7, { State.reset with eventsA := { windows := [(7, { source := 7 })] } }, by decide +kernel⟩,
   ⟨.a, 7, { State.reset with
      eventsA := { windows := [(7, { source := 7, suppressed := 3, last := zeros 64 })] },
      portA := { ring := { enable := true } } }, by decide +kernel⟩,
   ⟨{ State.reset with fm := { State.reset.fm with jcount := 2 } }, by decide +kernel⟩⟩

theorem witness_MailboxRowsComplete :
    (∃ (cell : Fin 64) (rival : Option (BitVec 16)) (s : State), (getSem s cell.val).owner = none ∧ rival = none) ∧
    (∃ (cell : Fin 64) (s : State), (getSem s cell.val).owner.isSome) ∧
    (∃ (cell : Fin 64) (rival : Option (BitVec 16)) (r : BitVec 16) (s : State), (getSem s cell.val).owner = none ∧
      rival = some r) ∧
    (∃ (p : Port) (cell : Fin 64) (s : State), (getSem s cell.val).owner = some p) ∧
    (∃ (p : Port) (cell : Fin 64) (s : State), (getSem s cell.val).owner ≠ some p) ∧
    (∃ (p : Port) (ch : Fin 32) (off : Nat) (data : Bytes) (s : State), canonical s = true ∧ rejectReason s p ch.val =
      0 ∧ off + data.length ≤ 4096) ∧
    (∃ (p : Port) (ch : Fin 32) (s : State), rejectReason s p ch.val ≠ 0) ∧
    (∃ (p : Port) (epoch : Nat) (s : State), epoch ≠ (getPort s p).epoch) ∧
    (∃ (p : Port) (ch : Fin 32) (epoch : Nat) (s : State), epoch = (getPort s p).epoch ∧ rejectReason s p ch.val ≠ 0)
      ∧
    (∃ (p : Port) (ch : Fin 32) (epoch : Nat) (s : State), epoch = (getPort s p).epoch ∧ rejectReason s p ch.val = 0 ∧
      knownOpcodes.contains (u16 (bufRead (getChan s ch.val) 0 2) 0) = true) ∧
    (∃ (p : Port) (ch : Fin 32) (epoch : Nat) (s : State), canonical s = true ∧ epoch = (getPort s p).epoch ∧
      rejectReason s p ch.val = 0 ∧ s.fm.doorbells = [] ∧ s.ready = true ∧ s.updating = false ∧ (getChan s
      ch.val).written = true ∧ knownOpcodes.contains (u16 (bufRead (getChan s ch.val) 0 2) 0) = false) ∧
    (∃ (ch : Fin 32) (w : Waiting) (s : State), canonical s = true ∧ s.updating = false ∧ (getChan s ch.val).waiting =
      some w ∧ w.ready = true) ∧
    (∃ (ch : Fin 32) (w : Waiting) (s : State), (getChan s ch.val).waiting = some w ∧ (w.ready = false ∨ s.updating =
      true)) :=
  ⟨⟨3, none, State.reset, by decide +kernel⟩,
   ⟨3, { State.reset with sems := [(3, { owner := some .b })] }, by decide +kernel⟩,
   ⟨3, (some 8), 8, State.reset, by decide +kernel⟩,
   ⟨.a, 3, { State.reset with
      sems := [(3, { owner := some .a, tag := 4 })], channels := [(3, { cplIrq := true, cplVector := 4 })] },
    by decide +kernel⟩,
   ⟨.a, 3, { State.reset with sems := [(3, { owner := some .b })] }, by decide +kernel⟩,
   ⟨.a, 3, 8, [1, 2], { State.reset with sems := [(3, { owner := some .a })] }, by decide +kernel⟩,
   ⟨.a, 3, { State.reset with sems := [(3, { owner := some .b })] }, by decide +kernel⟩,
   ⟨.a, 4, State.reset, by decide +kernel⟩,
   ⟨.a, 3, 0, State.reset, by decide +kernel⟩,
   ⟨.a, 3, 0, { State.reset with
      ready := true, sems := [(3, { owner := some .a })],
      channels := [(3, { written := true, buffer := Memory.writeBytes [] 0 (le 2 0x0101 ++ zeros 30) })] },
    by decide +kernel⟩,
   ⟨.a, 3, 0, { State.reset with
      ready := true, sems := [(3, { owner := some .a })],
      channels := [(3, { written := true, buffer := Memory.writeBytes [] 0 (le 2 0x7F01 ++ zeros 30) })] },
    by decide +kernel⟩,
   ⟨3, { cause := .clockOut 1, reply := { gen := 4 }, ready := true }, { State.reset with
      channels := [(3, { state := .running, waiting := some { cause := .clockOut 1, reply := { gen := 4 }, ready := true } })] },
    by decide +kernel⟩,
   ⟨3, { cause := .clockOut 1, reply := { gen := 4 } }, { State.reset with
      channels := [(3, { state := .running, waiting := some { cause := .clockOut 1, reply := { gen := 4 }, ready := false } })] },
    by decide +kernel⟩⟩

theorem witness_PortRegistersComplete :
    (∃ (p : Port) (v : BitVec 32) (s : State), 4096 < ((getPort s p).ring.producer - v).toNat) ∧
    (∃ (p : Port) (v : BitVec 32) (s : State), ((getPort s p).ring.producer - v).toNat ≤ 4096) ∧
    (∃ (p : Port) (s : State), (getPort s p).ring.messagePending = true) ∧
    (∃ (p : Port) (s : State), (getPort s p).ring.messagePending = false) ∧
    (∃ (off : Nat) (full : Bool) (_ : State), full = false ∨ off % 4 ≠ 0 ∨ off < 0x1000) ∧
    (∃ (p : Port) (off : Nat) (full : Bool) (s : State), full = true ∧ off = 0x4000 ∧ (getPort s p).ring.enable =
      false) ∧
    (∃ (p : Port) (off : Nat) (full : Bool) (ch : Fin 32) (s : State), full = true ∧ off = 0x2004 + 64 * ch.val ∧
      (getSem s ch.val).owner = some p) ∧
    (∃ (p : Port) (w : Fin 16) (s : State), (getWindow s p w.val).snapshot = none) ∧
    (∃ (p : Port) (w : Fin 16) (s : State), (getWindow s p w.val).snapshot.isSome) ∧
    (∃ (p : Port) (w : Fin 16) (m : WinMap) (s : State), foremanRuns s = true ∧ (getWindow s p w.val).snapshot = some
      m ∧ (getWindow s p w.val).verdict = none) ∧
    (∃ (p : Port) (w : Fin 16) (m : WinMap) (n : Nat) (s : State), (getWindow s p w.val).snapshot = some m ∧
      (getWindow s p w.val).verdict = some n) ∧
    (∃ (p : Port) (w : Fin 16) (x : Nat) (n : Nat) (s : State), mapReaches s (getWindow s p w.val) x n = false) ∧
    (∃ (p : Port) (w : Fin 16) (x : Nat) (n : Nat) (s : State), mapReaches s (getWindow s p w.val) x n = true ∧
      (getWindow s p w.val).inForce.kind = 1) ∧
    (∃ (p : Port) (epoch : Nat) (s : State), epoch ≠ (getPort s p).epoch) ∧
    (∃ (p : Port) (w : Fin 16) (x : Nat) (data : Bytes) (epoch : Nat) (s : State), canonical s = true ∧ epoch =
      (getPort s p).epoch ∧ mapReaches s (getWindow s p w.val) x data.length = true ∧ (getWindow s p
      w.val).inForce.writable = true ∧ (getWindow s p w.val).inForce.kind = 1) ∧
    (∃ (p : Port) (w : Fin 16) (x : Nat) (data : Bytes) (epoch : Nat) (s : State), epoch = (getPort s p).epoch ∧
      (mapReaches s (getWindow s p w.val) x data.length = false ∨ (getWindow s p w.val).inForce.writable = false)) ∧
    (∃ (p : Port) (s : State), (getPort s p).present = true ∧ (getPort s p).perstLow = false) :=
  ⟨⟨.a, 4000000000, { State.reset with portA := { ring := { producer := 9 } } }, by decide +kernel⟩,
   ⟨.a, 7, { State.reset with
      portA := { ring := { producer := 9, enable := true } }, eventsA := { lostSince := 2 } }, by decide +kernel⟩,
   ⟨.a, { State.reset with portA := { ring := { messagePending := true, enable := true } } }, by decide +kernel⟩,
   ⟨.a, { State.reset with portA := { ring := { timerRunning := true } } }, by decide +kernel⟩,
   ⟨0x4000, false, State.reset, by decide +kernel⟩,
   ⟨.a, 0x4000, true, State.reset, by decide +kernel⟩,
   ⟨.a, 0x20C4, true, 3, { State.reset with sems := [(3, { owner := some .a })] }, by decide +kernel⟩,
   ⟨.a, 2, { State.reset with portA := { windows := [(2, { ctl := 1 })] } }, by decide +kernel⟩,
   ⟨.a, 2, { State.reset with portA := { windows := [(2, { snapshot := some {} })] } }, by decide +kernel⟩,
   ⟨.a, 2, { enable := true, kind := 1, pages := 4 }, { State.reset with
      portA := { windows := [(2, { snapshot := some { enable := true, kind := 1, pages := 4 } })] },
      fw := { State.reset.fw with phase := .running } }, by decide +kernel⟩,
   ⟨.a, 2, {}, 0, { State.reset with portA := { windows := [(2, { snapshot := some {}, verdict := some 0 })] } },
    by decide +kernel⟩,
   ⟨.a, 2, 8, 4, State.reset, by decide +kernel⟩,
   ⟨.a, 2, 8, 4, { State.reset with
      portA := { windows := [(2, { inForce := { enable := true, kind := 1, pages := 4, writable := true } })] } },
    by decide +kernel⟩,
   ⟨.a, 5, State.reset, by decide +kernel⟩,
   ⟨.a, 2, 8, [1, 2, 3], 0, { State.reset with
      portA := { windows := [(2, { inForce := { enable := true, kind := 1, pages := 4, writable := true } })] } },
    by decide +kernel⟩,
   ⟨.a, 2, 8, [1], 0, State.reset, by decide +kernel⟩,
   ⟨.a, { State.reset with portA := { perstLow := false } }, by decide +kernel⟩⟩

theorem witness_DmaRowsComplete :
    (∃ (p : Port) (e : Fin 8) (s : State), (getEngine s p e.val).job = none) ∧
    (∃ (p : Port) (e : Fin 8) (j : DmaJob) (s : State), (getEngine s p e.val).job = some j) ∧
    (∃ (p : Port) (e : Fin 8) (s : State), mayTake (getEngine s p e.val) = false) ∧
    (∃ (p : Port) (e : Fin 8) (descriptor : Bytes) (s : State), mayTake (getEngine s p e.val) = true ∧ jobCheck s p
      (jobOf (getEngine s p e.val).taken descriptor) descriptor ≠ jobDONE) ∧
    (∃ (p : Port) (e : Fin 8) (descriptor : Bytes) (s : State), mayTake (getEngine s p e.val) = true ∧ jobCheck s p
      (jobOf (getEngine s p e.val).taken descriptor) descriptor = jobDONE) ∧
    (∃ (p : Port) (e : Fin 8) (s : State), mayTake (getEngine s p e.val) = true) ∧
    (∃ (p : Port) (e : Fin 8) (epoch : Nat) (j : DmaJob) (s : State), epoch = (getPort s p).epoch ∧ (getEngine s p
      e.val).job = some j ∧ j.kind < 3 ∧ jobToHost j = true) ∧
    (∃ (p : Port) (e : Fin 8) (ok : Bool) (data : Bytes) (epoch : Nat) (j : DmaJob) (s : State), canonical s = true ∧
      epoch = (getPort s p).epoch ∧ (getEngine s p e.val).job = some j ∧ j.kind = 2 ∧ jobToHost j = false ∧ j.released
      = false ∧ ok = true ∧ data.length = j.count) ∧
    (∃ (p : Port) (e : Fin 8) (ok : Bool) (epoch : Nat) (j : DmaJob) (s : State), epoch = (getPort s p).epoch ∧
      (getEngine s p e.val).job = some j ∧ j.kind < 3 ∧ jobToHost j = false ∧ j.released = false ∧ ok = false) ∧
    (∃ (p : Port) (epoch : Nat) (s : State), epoch ≠ (getPort s p).epoch) ∧
    (∃ (p : Port) (e : Fin 8) (epoch : Nat) (j : DmaJob) (s : State), epoch = (getPort s p).epoch ∧ (getEngine s p
      e.val).job = some j ∧ j.kind < 3 ∧ jobToHost j = false ∧ j.released = true) :=
  ⟨⟨.a, 2, { State.reset with portA := { dma := [(2, { enable := true })] } }, by decide +kernel⟩,
   ⟨.a, 2, { number := 0, kind := 2, flags := 1, object := 0, count := 4, hostAddr := 4096, offset := 64, slot := 0 },
    { State.reset with
      portA := { dma := [(2, { enable := true, tail := 1, taken := 1, job := some { number := 0, kind := 2, flags := 1, object := 0, count := 4, hostAddr := 4096, offset := 64, slot := 0 } })] } },
    by decide +kernel⟩,
   ⟨.a, 2, State.reset, by decide +kernel⟩,
   ⟨.a, 2, ([9, 1, 0, 0] ++ le 4 64 ++ le 8 4096 ++ le 4 64 ++ zeros 12),
    { State.reset with portA := { dma := [(2, { enable := true, tail := 1 })] } }, by decide +kernel⟩,
   ⟨.a, 2, ([2, 1, 0, 0] ++ le 4 64 ++ le 8 4096 ++ le 4 64 ++ zeros 12),
    { State.reset with portA := { dma := [(2, { enable := true, tail := 1 })] } }, by decide +kernel⟩,
   ⟨.a, 2, { State.reset with portA := { dma := [(2, { enable := true, tail := 1 })] } }, by decide +kernel⟩,
   ⟨.a, 2, 0,
    { number := 0, kind := 2, flags := 1, object := 0, count := 4, hostAddr := 4096, offset := 64, slot := 0 },
    { State.reset with
      portA := { dma := [(2, { enable := true, tail := 1, taken := 1, job := some { number := 0, kind := 2, flags := 1, object := 0, count := 4, hostAddr := 4096, offset := 64, slot := 0 } })] } },
    by decide +kernel⟩,
   ⟨.a, 2, true, [1, 2, 3, 4], 0,
    { number := 0, kind := 2, flags := 0, object := 0, count := 4, hostAddr := 4096, offset := 64, slot := 0 },
    { State.reset with
      portA := { dma := [(2, { enable := true, tail := 1, taken := 1, job := some { number := 0, kind := 2, flags := 0, object := 0, count := 4, hostAddr := 4096, offset := 64, slot := 0 } })] } },
    by decide +kernel⟩,
   ⟨.a, 2, false, 0,
    { number := 0, kind := 2, flags := 0, object := 0, count := 4, hostAddr := 4096, offset := 64, slot := 0 },
    { State.reset with
      portA := { dma := [(2, { enable := true, tail := 1, taken := 1, job := some { number := 0, kind := 2, flags := 0, object := 0, count := 4, hostAddr := 4096, offset := 64, slot := 0 } })] } },
    by decide +kernel⟩,
   ⟨.a, 5, State.reset, by decide +kernel⟩,
   ⟨.a, 2, 0,
    { number := 0, kind := 0, flags := 0, object := 0, count := 4, hostAddr := 4096, offset := 64, slot := 0, released := true, written := 2 },
    { State.reset with
      portA := { dma := [(2, { enable := true, tail := 1, taken := 1, job := some { number := 0, kind := 0, flags := 0, object := 0, count := 4, hostAddr := 4096, offset := 64, slot := 0, released := true, written := 2 } })] } },
    by decide +kernel⟩⟩

theorem witness_FirmwareCommandsComplete :
    (∃ s, Takes defFwStatus s) ∧
    (∃ s, Takes defFwInstall s) ∧
    (∃ s, Takes defFwConfirm s) ∧
    (∃ s, TakesWhen defFwRevert (fun s _ => s.fw.resetDue = false ∧ s.fw.cold = false) s) ∧
    (∃ s, TakesWhen defFwRevert (fun s _ => s.fw.cold = true) s) ∧
    (∃ s, Takes defFwLock s) ∧
    (∃ s, Takes defFwUnlock s) ∧
    (∃ s, Takes defFwPolicy s) ∧
    (∃ s, TakesWhen defFwSave (fun s _ => s.fw.saveInterval = false) s) ∧
    (∃ s, TakesWhen defFwSave (fun s _ => s.fw.saveInterval = true) s) ∧
    (∃ s, Takes defFwHostData s) :=
  ⟨⟨posted defFwStatus ([]) 0 State.reset, takes⟩,
   ⟨posted defFwInstall ([0, 0, 0, 0] ++ le 4 320 ++ zeros 8) 0 ({ State.reset with
      fuses := Memory.writeBytes [(0x1FD, 32)] 0x120 (sha256 (pkKey factoryPackage)),
      fw := { State.reset.fw with fuseMap := Memory.writeBytes [(0x1FD, 32)] 0x120 (sha256 (pkKey factoryPackage)) },
      store := { State.reset.store with mem := Memory.writeBytes [] (stagingBase .a) factoryPackage } }), takes⟩,
   ⟨posted defFwConfirm (le 4 (pkVersion factoryPackage) ++ zeros 0) 0 ({ State.reset with
      fw := { State.reset.fw with running := some 0, header := factoryPackage, state := .awaitConfirm } }), takes⟩,
   ⟨posted defFwRevert ([]) 0 ({ State.reset with
      fw := { State.reset.fw with running := some 0, header := factoryPackage, state := .awaitConfirm } }),
    takesWhen⟩,
   ⟨posted defFwRevert ([]) 0 ({ State.reset with
      fw := { State.reset.fw with running := some 0, header := factoryPackage, state := .awaitConfirm, cold := true } }),
    takesWhen⟩,
   ⟨posted defFwLock (le 8 1 ++ le 8 2) 0 State.reset, takes⟩,
   ⟨posted defFwUnlock (le 8 1 ++ le 8 2) 0 ({ State.reset with
      flash := { State.reset.flash with locked := true, lockDigest := sha256 (le 8 1 ++ le 8 2) } }), takes⟩,
   ⟨posted defFwPolicy (le 2 60 ++ zeros 2) 0 State.reset, takes⟩,
   ⟨posted defFwSave (zeros 16) 0 State.reset, takesWhen⟩,
   ⟨posted defFwSave (zeros 16) 0 ({ State.reset with fw := { State.reset.fw with saveInterval := true } }),
    takesWhen⟩,
   ⟨posted defFwHostData (le 4 64 ++ zeros 4) 0
    ({ State.reset with fw := { State.reset.fw with snapshot := some { host := [1, 2, 3, 4] } } }), takes⟩⟩

theorem witness_FirmwareEventsComplete :
    (∃ (k : Nat) (g : Nat) (pk : Bytes) (s : State), s.fw.install = some (k, g, pk)) ∧
    (∃ (k : Nat) (s : State), s.fw.stages = [k] ∧ s.fw.plan = .activate) ∧
    (∃ (k : Nat) (j : Nat) (rest : List Nat) (s : State), s.fw.stages = k :: j :: rest ∧ 1 ≤ k ∧ 1 ≤ j ∧ k ≠ j ∧
      stageSkipped s j = false) ∧
    (∃ (k : Nat) (rest : List Nat) (s : State), s.fw.plan = .activate ∧ s.fw.stages = k :: rest) ∧
    (∃ (pass : Bool) (s : State), s.fw.state = .selfCheck ∧ pass = true) ∧
    (∃ (pass : Bool) (s : State), s.fw.state = .selfCheck ∧ pass = false) ∧
    (∃ (s : State), s.fw.state = .awaitConfirm ∧ s.fw.cold = false ∧ s.fw.resetDue = false) ∧
    (∃ (s : State), s.fw.state = .awaitConfirm ∧ s.fw.cold = true) ∧
    (∃ (s : State), s.fw.saveInterval = true ∧ s.fw.waitingSave = none) ∧
    (∃ (x : Snapshot) (s : State), s.fw.saveInterval = true ∧ s.fw.waitingSave = some x) :=
  ⟨⟨1, 0, factoryPackage, { State.reset with
      fw := { State.reset.fw with install := some (1, 0, factoryPackage), state := .installing } },
    by decide +kernel⟩,
   ⟨2, { State.reset with
      fw := { State.reset.fw with running := some 0, header := factoryPackage, stages := [2], plan := .activate, target := 1, targetHeader := factoryPackage, state := .activating } },
    by decide +kernel⟩,
   ⟨1, 2, [3], { State.reset with
      fw := { State.reset.fw with running := some 0, header := factoryPackage, stages := [1, 2, 3], plan := .activate, target := 1, targetHeader := factoryPackage, state := .activating, versions := [1, 1, 1, 1] } },
    by decide +kernel⟩,
   ⟨2, [3], { State.reset with
      fw := { State.reset.fw with running := some 0, header := factoryPackage, stages := [2, 3], plan := .activate, target := 1, targetHeader := factoryPackage, state := .activating, replaced := [1] } },
    by decide +kernel⟩,
   ⟨true, { State.reset with
      fw := { State.reset.fw with running := some 0, header := factoryPackage, state := .selfCheck } },
    by decide +kernel⟩,
   ⟨false, { State.reset with
      fw := { State.reset.fw with running := some 0, header := factoryPackage, state := .selfCheck } },
    by decide +kernel⟩,
   ⟨{ State.reset with
      fw := { State.reset.fw with running := some 0, header := factoryPackage, state := .awaitConfirm } },
    by decide +kernel⟩,
   ⟨{ State.reset with
      fw := { State.reset.fw with running := some 0, header := factoryPackage, state := .awaitConfirm, cold := true } },
    by decide +kernel⟩,
   ⟨{ State.reset with fw := { State.reset.fw with saveInterval := true } }, by decide +kernel⟩,
   ⟨{ seq := 2, host := [7] }, { State.reset with
      fw := { State.reset.fw with saveInterval := true, waitingSave := some { seq := 2, host := [7] } } },
    by decide +kernel⟩⟩

theorem witness_ResetAndStartComplete :
    (∃ (s : State), s.island.powered = true) ∧
    (∃ (s : State), s.island.powered = false) ∧
    (∃ (ok : Bool) (ok0 : Bool) (s : State), s.fw.phase = .rom ∧ ok = true ∧ s.flash.trial = none ∧ s.flash.confirmed
      = some 0 ∧ slotPasses s 0 ok0 = true) ∧
    (∃ (ok : Bool) (ok1 : Bool) (s : State), s.fw.phase = .rom ∧ ok = true ∧ s.flash.trial = some 1 ∧ s.flash.bootOnce
      = true ∧ slotPasses s 1 ok1 = true) ∧
    (∃ (ok : Bool) (ok0 : Bool) (s : State), s.fw.phase = .rom ∧ ok = true ∧ s.flash.trial = some 1 ∧ s.flash.bootOnce
      = false ∧ s.flash.confirmed = some 0 ∧ slotPasses s 0 ok0 = true) ∧
    (∃ (ok : Bool) (ok0 : Bool) (ok1 : Bool) (s : State), s.fw.phase = .rom ∧ (ok = false ∨ (slotPasses s 0 ok0 =
      false ∧ slotPasses s 1 ok1 = false)) ∧ portBootDisabled s = false ∧ s.fw.straps.portA = true) ∧
    (∃ (p : Port) (s : State), s.fw.phase = .portWait p ∧ u32 (storeRead s (startBlockAt p) 32) 0 ≠ 0x5742) ∧
    (∃ (p : Port) (s : State), canonical s = true ∧ s.fw.phase = .portWait p ∧ u32 (storeRead s (startBlockAt p) 32) 0
      = 0x5742) ∧
    (∃ (s : State), s.fw.phase = .foreman) ∧
    (∃ (s : State), s.fw.phase = .foreman ∧ bootSnapshot s = none ∧ s.spares = 0) :=
  ⟨⟨State.reset, by decide +kernel⟩,
   ⟨{ State.reset with island := { powered := false } }, by decide +kernel⟩,
   ⟨true, true, { State.reset with fw := { State.reset.fw with phase := .rom } }, by decide +kernel⟩,
   ⟨true, true, { State.reset with
      fw := { State.reset.fw with phase := .rom },
      flash := { State.reset.flash with trial := some 1, bootOnce := true, slot1 := { valid := true, package := factoryPackage } } },
    by decide +kernel⟩,
   ⟨true, true, { State.reset with
      fw := { State.reset.fw with phase := .rom }, flash := { State.reset.flash with trial := some 1 } },
    by decide +kernel⟩,
   ⟨false, true, true, { State.reset with fw := { State.reset.fw with phase := .rom } }, by decide +kernel⟩,
   ⟨.a, { State.reset with fw := { State.reset.fw with phase := .portWait .a } }, by decide +kernel⟩,
   ⟨.a, { State.reset with
      fw := { State.reset.fw with phase := .portWait .a },
      store := { State.reset.store with mem := Memory.writeBytes [] (startBlockAt .a) (le 4 0x5742 ++ zeros 28) } },
    by decide +kernel⟩,
   ⟨{ State.reset with fw := { State.reset.fw with phase := .foreman } }, by decide +kernel⟩,
   ⟨{ State.reset with fw := { State.reset.fw with phase := .foreman }, spares := 0 }, by decide +kernel⟩⟩

theorem witness_FuseRowsComplete :
    (∃ s, Takes defFuseRead s) ∧
    (∃ (stuck : Option (Fin 4096)) (s : State), TakesWhen (defFuseProgram (stuck.map (·.val))) (fun _ _ => stuck =
      none) s) ∧
    (∃ (stuck : Option (Fin 4096)) (k : Fin 4096) (s : State), TakesWhen (defFuseProgram (stuck.map (·.val))) (fun s c
      => stuck = some k ∧ (k.val ∈ bitsOf (fieldOff (u8 c.p 0)) (fuseValue c) ∨ k.val = doneBit (u8 c.p 0)) ∧ bit
      (burnedByte s (k.val / 8)) (k.val % 8) = false) s) ∧
    (∃ s, Takes defFuseLock s) ∧
    (∃ s, Takes defFuseStandby s) ∧
    (∃ s, Takes defFuseNote s) :=
  ⟨⟨posted defFuseRead ([]) 0 State.reset, takes⟩,
   ⟨none, posted (defFuseProgram ((none : Option (Fin 4096)).map (·.val))) ([0, 0, 0, 0, 0, 0, 0, 0] ++ [0x34, 0x12,
    0, 0]) 0 ({ State.reset with fuseSense := true }), takesWhen⟩,
   ⟨(some 0x802), 0x802, posted (defFuseProgram (((some 0x802) : Option (Fin 4096)).map (·.val))) ([0, 0, 0, 0, 0, 0,
    0, 0] ++ [0x34, 0x12, 0, 0]) 0 ({ State.reset with fuseSense := true }), takesWhen⟩,
   ⟨posted defFuseLock (le 4 0x4B434F4C) 0 ({ State.reset with fuseSense := true }), takes⟩,
   ⟨posted defFuseStandby (zeros 136) 0 State.reset, takes⟩,
   ⟨posted defFuseNote ([]) 0 State.reset, takes⟩⟩
/-! ### FW.ACTIVATE: its check asks whether a signature verifies, which is a free value (log entry 2) -/

/-- A package in the other slot, signed under the fused key. -/
def updatable (mode : Nat) : State :=
  posted defFwActivate [BitVec.ofNat 8 mode, 0, 0, 0] 0 { State.reset with
    fuses := Memory.writeBytes [(0x1FD, 32)] 0x120 (sha256 (pkKey factoryPackage))
    flash := { State.reset.flash with slot1 := { valid := true, written := true, package := factoryPackage } }
    fw := { State.reset.fw with
      running := some 0, header := factoryPackage
      fuseMap := Memory.writeBytes [(0x1FD, 32)] 0x120 (sha256 (pkKey factoryPackage)) } }

theorem activateResult_updatable (mode : Nat) (hm : mode = 0 ∨ mode = 1) (h : signatureOk factoryPackage = true) :
    activateResult (takeDoorbell (updatable mode) 0) mode = 1 := by
  have p : (getFwSlot (takeDoorbell (updatable mode) 0) (otherSlot (takeDoorbell (updatable mode) 0))).package =
      factoryPackage := rfl
  have r : headerResult (takeDoorbell (updatable mode) 0) factoryPackage = 1 := by
    rcases hm with rfl | rfl <;> decide +kernel
  have q : hitlessOk (takeDoorbell (updatable mode) 0) factoryPackage = true := by
    rcases hm with rfl | rfl <;> decide +kernel
  simp [activateResult, p, r, h, q]

theorem takes_updatable (mode : Nat) (hm : mode = 0 ∨ mode = 1) (h : signatureOk factoryPackage = true) :
    Takes defFwActivate (updatable mode) := by
  have a := activateResult_updatable mode hm h
  have v : verdict defFwActivate (takeDoorbell (updatable mode) 0) (readCmd (updatable mode) 0) = none := by
    have u : u8 (readCmd (updatable mode) 0).p 0 = mode := by rcases hm with rfl | rfl <;> decide +kernel
    have hc : defFwActivate.check (takeDoorbell (updatable mode) 0) (readCmd (updatable mode) 0) = none := by
      have z : zeroAt (readCmd (updatable mode) 0).p 1 3 = true := by rcases hm with rfl | rfl <;> decide +kernel
      have w : slotRuns (takeDoorbell (updatable mode) 0) (otherSlot (takeDoorbell (updatable mode) 0)) = true := rfl
      have l : decide (mode ≤ 1) = true := by rcases hm with rfl | rfl <;> rfl
      simp only [defFwActivate, u, z, w, a, l, need, firstOf, if_true, beq_self_eq_true]
    have hh : headNack defFwActivate (takeDoorbell (updatable mode) 0) (readCmd (updatable mode) 0) = none := by
      rcases hm with rfl | rfl <;> decide +kernel
    have hs : bit (readCmd (updatable mode) 0).flags 0 = false := by rcases hm with rfl | rfl <;> decide +kernel
    have ha : defFwActivate.admission (takeDoorbell (updatable mode) 0) (readCmd (updatable mode) 0) = none := by
      rcases hm with rfl | rfl <;> decide +kernel
    simp [verdict, hh, hc, hs, ha, need, firstOf]
  refine ⟨?_, ?_, v, ?_, ?_⟩
  · apply canonical_iff; rcases hm with rfl | rfl <;> decide +kernel
  · rcases hm with rfl | rfl <;> decide +kernel
  · rcases hm with rfl | rfl <;> decide +kernel
  · rcases hm with rfl | rfl <;> decide +kernel

/-- For a package whose signature verifies: a cold trial and a hitless activation (R527, R533). -/
theorem witness_FirmwareCommandsComplete_activate (h : signatureOk factoryPackage = true) :
    (∃ s, Takes defFwActivate s ∧ u8 (readCmd s 0).p 0 = 1) ∧
    (∃ s, Takes defFwActivate s ∧ u8 (readCmd s 0).p 0 = 0 ∧ s.fw.resetDue = false) :=
  ⟨⟨updatable 1, takes_updatable 1 (.inr rfl) h, by decide +kernel⟩,
   ⟨updatable 0, takes_updatable 0 (.inl rfl) h, by decide +kernel⟩⟩

/-! ### The general statements and the frames -/

theorem witness_StepRunsTheFrontCommand :
    (∃ (c : Instr) (rest : List Instr) (s : State), s.pending = c :: rest) ∧ ∃ s : State, s.pending = [] :=
  ⟨⟨.sysNop 0, [], { State.reset with pending := [.sysNop 0] }, rfl⟩, ⟨State.reset, rfl⟩⟩

/-- Every step answers: here the one that burns a fuse. -/
theorem witness_steps : ∃ s t, MemoryCanonical s ∧ step s = .next t ∧ bit (burnedByte s 0x1FD) 5 = true :=
  have ⟨t, h⟩ := step_next { State.reset with fuses := [(0x1FD, 32)], pending := [.fuseLock 0] }
  ⟨_, t, canonical_iff (by decide +kernel), h, by decide +kernel⟩

/-- Every row of every frame answers a next state, from reset on. -/
theorem witness_frames (i : Instr) : ∃ t, exec i State.reset = .next t := exec_next i _

theorem witness_RefusedCommandsChangeNothing :
    (∃ s n, MemoryCanonical s ∧ Refused defLaneStatus 0 s n ∧ ∀ x c, defLaneStatus.refused x c = x) ∧
    (∃ s, MemoryCanonical s ∧ takeable s 0 defSysNop.opcode = true ∧ (getChan s 0).written = true ∧ s.updating = false ∧
      s.fuseSense = false ∧ 128 ≤ (readCmd s 0).flags) :=
  ⟨⟨posted defLaneStatus (le 4 0xFFFF) 0 State.reset, { status := stBAD_ARGUMENT, field := 32 },
    canonical_iff (by decide +kernel), by unfold Refused; decide +kernel, fun _ _ => rfl⟩,
   ⟨posted defSysNop [] 128 State.reset, canonical_iff (by decide +kernel), by decide +kernel⟩⟩

theorem witness_ConditionalCommandsChangeNothing :
    (∃ d s, MemoryCanonical s ∧ takeable s 0 d.opcode = true ∧ headNack d (takeDoorbell s 0) (readCmd s 0) = none ∧
      d.check (takeDoorbell s 0) (readCmd s 0) = none ∧ bit (readCmd s 0).flags 0 = true ∧ (readCmd s 0).expected ≠ s.fm.gen ∧
      ∀ x c, d.refused x c = x) ∧
    (∃ d s, MemoryCanonical s ∧ takeable s 0 d.opcode = true ∧ verdict d (takeDoorbell s 0) (readCmd s 0) = none ∧
      (readCmd s 0).validate = true) ∧
    (∃ d s, MemoryCanonical s ∧ takeable s 0 d.opcode = true ∧ verdict d (takeDoorbell s 0) (readCmd s 0) = none ∧
      (readCmd s 0).validate = false ∧ d.timing (takeDoorbell s 0) (readCmd s 0) = .late ∧ (readCmd s 0).strict = true ∧
      ∀ x c, d.missed x c = x) :=
  ⟨⟨defReferenceTimeSource, postedWith defReferenceTimeSource [4, 0, 0, 0] 1 9 0 State.reset, canonical_iff (by decide +kernel), by decide +kernel,
    by decide +kernel, by decide +kernel, by decide +kernel, by decide +kernel, fun _ _ => rfl⟩,
   ⟨defReferenceTimeSource, posted defReferenceTimeSource [4, 0, 0, 0] 64 State.reset, canonical_iff (by decide +kernel),
    by decide +kernel⟩,
   ⟨{ defSysNop with flags := 8, timing := fun _ _ => .late },
    posted { defSysNop with flags := 8, timing := fun _ _ => .late } [] 8 State.reset, canonical_iff (by decide +kernel),
    by decide +kernel, by decide +kernel, by decide +kernel, rfl, by decide +kernel, fun _ _ => rfl⟩⟩

theorem witness_CompletionWritesThenSignals :
    (∃ (s : State) (ch : Nat), MemoryCanonical s ∧ (getChan s ch).cplIrq = false) ∧
    (∃ (s : State) (ch : Nat) (p : Port) (v : Nat), (getChan s ch).cplIrq = true ∧ (getChan s ch).handed = false ∧ (getChan s ch).rangBy = p ∧
      (getSem s ch).owner = some p ∧ (getChan s ch).cplVector = v ∧ (getMsix s p v).masked = false ∧
      msixAddr (getMsix s p v) ≠ 0) :=
  ⟨⟨State.reset, 0, canonical_iff (by decide +kernel), rfl⟩,
   ⟨{ State.reset with
      channels := [(2, { cplIrq := true, cplVector := 31 })], sems := [(2, { owner := some .a })]
      portA := { msix := [(31, { addrLo := 64, masked := false })] } }, 2, .a, 31, by decide +kernel⟩⟩

/-- A port whose ring is enabled, with one setting of the overflow class. -/
def listening (setting : Nat) (producer : BitVec 32) : State := { State.reset with
  portA := { ring := { enable := true, producer := producer } }
  eventsA := { settings := [(eventSource 0x11 3, setting), (eventSource 0x107 0, setting)]
               windows := [(eventSource 0x11 3, { source := eventSource 0x11 3 })] } }

theorem witness_EventsReachThePort :
    (∃ s : State, (getPort s .a).ring.enable = false) ∧
    (∃ s : State, (getPort s .a).ring.enable = true ∧ bit (settingOf s .a (eventSource 0x107 0)) 0 = true ∧
      bits (settingOf s .a (eventSource 0x107 0)) 7 2 = 0 ∧ ringFull (getPort s .a).ring = true) ∧
    (∃ s : State, (getPort s .a).ring.enable = true ∧ bit (settingOf s .a (eventSource 0x107 0)) 0 = true ∧
      bits (settingOf s .a (eventSource 0x107 0)) 7 2 = 0 ∧ ringFull (getPort s .a).ring = false) ∧
    (∃ s : State, (getPort s .a).ring.enable = true ∧ bit (settingOf s .a (eventSource 0x11 3)) 0 = true ∧
      bits (settingOf s .a (eventSource 0x11 3)) 7 2 ≠ 0 ∧ neverCoalesced 0x11 = false ∧
      Tab.has (getCounts s .a).windows (eventSource 0x11 3) = true) :=
  ⟨⟨State.reset, rfl⟩, ⟨listening 1 4096#32, by decide +kernel⟩, ⟨listening 1 4095#32, by decide +kernel⟩,
   ⟨listening 5 0, by decide +kernel⟩⟩

theorem witness_ChangesAreJournalled : ∃ s : State, s.fm.journal.length ≤ journalKeep := ⟨State.reset, by decide +kernel⟩

theorem witness_AcquireTakesAFreeCellOnly :
    (∃ (cell : Fin 64) (s : State), (getSem s cell.val).owner = none) ∧
    (∃ (cell : Fin 64) (s : State), (getSem s cell.val).owner ≠ none) :=
  ⟨⟨63, State.reset, rfl⟩, ⟨63, { State.reset with sems := [(63, { owner := some .b })] }, by decide +kernel⟩⟩

theorem witness_OnlyTheOwnerUsesAChannel :
    (∃ (ch : Fin 32) (s : State), (getSem s ch.val).owner ≠ some .a) ∧
    (∃ off : Nat, 0x2000 ≤ off ∧ off < 0x2800) ∧ (∃ off : Nat, 0x20000 ≤ off ∧ off < 0x40000) :=
  ⟨⟨31, { State.reset with sems := [(31, { owner := some .b })] }, by decide +kernel⟩, ⟨0x27FF, by decide⟩, ⟨0x3FFFF, by decide⟩⟩

/-- Requests of two reservations and of a best-effort master on pseudo-channel 0; the second reservation has its credit. -/
def asking : State := { State.reset with
  store := { State.reset.store with
    requests := [⟨.bestEffort 1, 0⟩, ⟨.source 5, 0⟩, ⟨.output 3, 0⟩, ⟨.output 3, 256⟩]
    credit := [(.output 3, { bytes := 256 })] } }

theorem witness_StoreEventsComplete_order :
    (∃ i : Nat, i < 6) ∧ (∃ a b : Nat, a / 16384 = b / 16384 ∧ a / 256 ≠ b / 256) ∧
    nextRequest asking 0 = some ⟨.output 3, 0⟩ ∧ nextRequest asking 7 = none :=
  ⟨⟨5, by decide⟩, ⟨16383, 0, by decide⟩, by decide +kernel⟩

theorem witness_AudioEventsComplete_sequence :
    (∃ (f : Bytes) (n : Nat), n % (audioSequence f).1 = 0) ∧ (∃ (f : Bytes) (n : Nat), audioFrameNumber f n < (audioSequence f).1) ∧
    (∃ (f : Bytes) (n : Nat), audioFrameNumber f n = (audioSequence f).1) ∧ (∃ f : Bytes, fmtScan f ≠ 1 ∧ fmtRate f = 4) :=
  ⟨⟨hd.set 4 4, 5, by decide +kernel⟩, ⟨hd.set 4 4, 3, by decide +kernel⟩, ⟨hd.set 4 4, 4, by decide +kernel⟩,
   ⟨hd.set 4 4, by decide +kernel⟩⟩

/-! ### Ill-formed commands -/

theorem test_wf_bufferWrite : (Instr.mailboxBufferWrite .a 0 4095 [1, 2]).wf = false := rfl
theorem test_wf_doorbell : (Instr.doorbell .a 0 4294967296).wf = false := rfl
theorem test_wf_registerWrite : (Instr.registerWrite .a 0x40000 0 true).wf = false := rfl
theorem test_wf_descriptor : (Instr.dmaJobTake .a 0 [1, 2, 3]).wf = false := rfl
theorem test_wf_link : (Instr.linkTrained .a 5 2).wf = false ∧ (Instr.linkTrained .a 4 3).wf = false := ⟨rfl, rfl⟩
theorem test_wf_windowRead : (Instr.windowRead .a 0 0x0FFFFFFF 2).wf = false := rfl
theorem test_wf_windowWrite : (Instr.windowWrite .a 0 0 [] 0).wf = false := rfl
theorem test_wf_prbsRead : (Instr.lanePrbsRead 0 3 4).wf = false := rfl
theorem test_wf_prbsLost : (Instr.lanePrbsSyncLost 0 3 4).wf = false := rfl
theorem test_wf_measured :
    (Instr.sourceFrameStart 5 { measured := [1], pidScan := none, pid := none, pidDisagrees := false, skewed := false }).wf
      = false := rfl
theorem test_wf_ancPacket :
    (Instr.ancPacket 5 { line := 9, place := 0, checksumOk := true, fits := true, words := [1, 2, 3], kind := .other }).wf
      = false := rfl
theorem test_wf_underrun : (Instr.outputUnderrun 3 8192 false 0).wf = false := rfl
theorem test_wf_portFrame : (Instr.audioPortFrame 0 0 (List.replicate 17 0)).wf = false := rfl
theorem test_wf_sample : (Instr.railSample 0 4294967296).wf = false := rfl

/-! ### Values the manual writes out -/

/-- 1080p50 has 1,125 lines, TL = 17.78 µs and TF = 20 ms (R7's worked example). -/
theorem test_raster : totalLines hd = 1125 ∧ frameNs hd = 20000000 ∧ linesNs hd 1 = 17777 := by decide +kernel

/-- 1080PsF25 has TF = 40 ms (R7). -/
theorem test_psf : frameNs ((hd.set 4 3).set 5 2) = 40000000 := by decide +kernel

/-- Without a payload ID the contract's SCAN tells PsF from interlaced (R139): the raster of 1080i50 under a contract of
1080PsF25 is 1080PsF25, RATE counting frames (R132). -/
theorem test_psf_by_contract :
    measuredFormat (((contract 2).set 8 3).set 9 2)
      { measured := hd.set 5 1, pidScan := none, pid := none, pidDisagrees := false, skewed := false } =
        (hd.set 4 3).set 5 2 := by decide +kernel

/-- Line 7 of 1080p begins 106.67 µs into the frame (07, the stage-race salvo). -/
theorem test_switch_line : linesNs hd (switchLine hd - 1) = 106666 := by decide +kernel

/-- A frame of host graphics has 5,529,600 bytes (02, the worked transfer). -/
theorem test_frame_bytes : frameBytes hd = 5529600 := by decide +kernel

/-- The ¼ level of a 1080 source takes 414,720 bytes (05, proxies). -/
theorem test_proxy_level : proxyLevel hd 4 = 414720 := by decide +kernel

/-- The stamp 0x10 seen at count 0x0000_0005_FFFF_FFF0 is 0x0000_0006_0000_0010 (15, the worked wrap). -/
theorem test_stamp_wrap : extend 0x5FFFFFFF0 0x10 = 0x600000010 := by decide

/-- The digest of "abc" (FIPS 180-4, which R523 names). -/
theorem test_sha256 : sha256 [0x61, 0x62, 0x63] =
    [0xBA, 0x78, 0x16, 0xBF, 0x8F, 0x01, 0xCF, 0xEA, 0x41, 0x41, 0x40, 0xDE, 0x5D, 0xAE, 0x22, 0x23, 0xB0, 0x03, 0x61,
     0xA3, 0x96, 0x17, 0x7A, 0x9C, 0xB4, 0x10, 0xFF, 0x61, 0xF2, 0x00, 0x15, 0xAD] := by decide +kernel

/-- The clock domains the manual counts (R29). -/
theorem test_clock_domains : clockDomains = 204 := by decide

/-- BAR0 0x0000 of a 1288 reads STEPPING 0xB0 and PRODUCT 0x1288 (02, the identity registers). -/
theorem test_identity : readBar0 State.reset .a 0 = 0xB0001288#32 := by decide +kernel

/-- Job 41 ends and DMA_DONE becomes 42 (02, the worked transfer). -/
theorem test_dma_done :
    (match exec (.dmaJobEnd .a 0 true ⟨[1, 2, 3, 4], 0, []⟩) { State.reset with
        portA := { dma := [(0, {
          enable := true, tail := 42, head := 41, taken := 42, done := 41
          job := some { number := 41, kind := 2, flags := 0, object := 0, count := 4, hostAddr := 4096, offset := 64, slot := 0 } })] } } with
      | .next t => (getEngine t .a 0).done
      | _ => 0) = 42 := by decide +kernel

/-- SYS.NOP is answered OK with its payload (R97): channel 0 is DONE, STATUS 0, and the payload stands at offset 32. -/
theorem test_nop :
    (match exec (.sysNop 0) (posted defSysNop [1, 2, 3] 0 State.reset) with
      | .next t => ((getChan t 0).state, bufRead (getChan t 0) 2 2, bufRead (getChan t 0) 32 3)
      | _ => (.idle, [], [])) = (.done, [0, 0], [1, 2, 3]) := by decide +kernel

/-- A command that waits is the one that runs, and the queue keeps the rest. -/
theorem test_queue :
    (match step { State.reset with pending := [.pwrWarnChange true, .pwrWarnChange false] } with
      | .next t => (t.pwrWarn, t.pending)
      | _ => (false, [])) = (true, [.pwrWarnChange false]) := by decide +kernel

/-- A FILL layer of OPACITY `op` over the whole of a 1920 × 1080 canvas, and Ashlar 0 with one such layer on output 0. -/
def fillLayer (op colour : Nat) : Bytes :=
  [1, 3, 0, BitVec.ofNat 8 op] ++ zeros 4 ++ le 2 1920 ++ le 2 1080 ++ zeros 24 ++ le 4 colour ++ zeros 8

def filling (op : Nat) : State := { State.reset with
  outputs := [(0, { committed := outCfg 0 })]
  ashlars := [(0, { enabled := true, layers := [(1, fillLayer op (940 + 1024 * 512 + 1048576 * 512))] })] }

theorem witness_OpaqueFillHidesWhatIsBelow :
    (getAshlar (filling 255) 0).layers = [] ++ [(1, fillLayer 255 (940 + 1024 * 512 + 1048576 * 512))] ∧
      (10 < fmtHeight (canvasOf (filling 255) 0) ∧ 10 < fmtWidth (canvasOf (filling 255) 0)) ∧
      composed (filling 255) 0 0 10 10 = ⟨940 * 64, 512 * 64, 512 * 64⟩ := by decide +kernel

/-- A fill of OPACITY 0 shows the black canvas (R146, R315). -/
theorem test_clear_fill : composed (filling 0) 0 0 10 10 = ⟨64 * 64, 512 * 64, 512 * 64⟩ := by decide +kernel

/-- BLEND at q = 32 is the mean of two 10-bit codes, and the code leaves as it entered (R257, R266, R273). -/
theorem test_blend : leaveCode 10 (blendCode 32 (enterCode 10 100) (enterCode 10 300)) = 200 := by decide +kernel

/-- The manual's totals of supply, ground and reserved balls (R562). -/
theorem test_ball_totals :
    ([.vss, .vddCore, .vddSram, .vddMem, .vppMem, .avddLane, .avttLane, .avddPll, .avddRef, .vddio18, .vddio33,
        .vstby] : List SupplyRail).map railBalls = [1812, 337, 50, 232, 16, 192, 134, 56, 8, 42, 4, 4] ∧
      (allBalls.filter (· == .reserved)).length = 12 ∧ allBalls.length = 3721 := by decide +kernel

/-- The manual's three worked positions (R560). -/
theorem test_ball_positions :
    ballAt 21 7 = .positive (.sdiIn 42) ∧ ballName 21 7 = "AB7" ∧ ballAt 45 57 = .negative (.sdiOut 100) ∧
      ballName 45 57 = "BG57" ∧ ballAt 53 31 = .single (.gpio 37) ∧ ballName 53 31 = "BT31" := by decide +kernel

/-- Every signal position of the LVCMOS field stands where its row and column say (R560). -/
theorem test_lvcmos_places :
    ∀ q ∈ List.range 175, ballAt (lvcmosPlace q).1 (lvcmosPlace q).2 = lvcmosSignal q := by decide +kernel

end Sys2Proof.Machine
end

section
/-! ## Control ports (02): the laws of the port, event and mailbox operations

What a write of one port's tables leaves, what a signal or an event gives a port, what semaphores and channels answer. -/

namespace Sys2Proof.Machine

/-! ### Reset -/

theorem memoryCanonical_reset : MemoryCanonical State.reset :=
  ⟨rfl, rfl, rfl, fun _ h => nomatch h⟩

theorem settingOf_reset (p : Port) (i : Nat) : settingOf State.reset p i = if errorSource i then 1 else 0 := by
  cases p <;> rfl

/-- Settles O2: at device reset every table is empty, so that each unit stands at its reset value. -/
theorem resetState : Obligations.ResetState := by
  refine ⟨⟨memoryCanonical_reset, rfl, rfl, rfl, rfl⟩, fun c => ⟨rfl, rfl, rfl, rfl, rfl⟩, fun p => ?_, settingOf_reset⟩
  cases p <;> exact ⟨rfl, rfl, rfl, rfl, fun e => ⟨rfl, rfl⟩⟩

/-! ### Capture registers (R45) -/

theorem ofNat_lowWord (n : Nat) : BitVec.ofNat 32 (lowWord n) = BitVec.ofNat 32 n :=
  BitVec.eq_of_toNat_eq (by simp [lowWord])

theorem ofNat_highWord (n : Nat) : BitVec.ofNat 32 (highWord n) = BitVec.ofNat 32 (n / 4294967296) :=
  BitVec.eq_of_toNat_eq (by simp [highWord])

theorem readBar0_genLo (s : State) (p : Port) : readBar0 s p 0x0020 = BitVec.ofNat 32 s.fm.gen := by
  simp [readBar0, readStatus, ofNat_lowWord]

theorem readBar0_genHi (s : State) (p : Port) :
    readBar0 s p 0x0024 = BitVec.ofNat 32 ((getPort s p).genCapture / 4294967296) := by
  simp [readBar0, readStatus, ofNat_highWord]

theorem readBar0_jseqLo (s : State) (p : Port) : readBar0 s p 0x0028 = BitVec.ofNat 32 s.fm.jseq := by
  simp [readBar0, readStatus, ofNat_lowWord]

theorem readBar0_jseqHi (s : State) (p : Port) :
    readBar0 s p 0x002C = BitVec.ofNat 32 ((getPort s p).jseqCapture / 4294967296) := by
  simp [readBar0, readStatus, ofNat_highWord]

/-- Settles O49: a read of a low half puts the whole value in the reading port's capture, which the high half returns. -/
theorem captureRegistersHold : Obligations.CaptureRegistersHold := by
  refine ⟨fun p s => ⟨_, rfl, ?_⟩, fun p s => ⟨_, rfl, ?_⟩, fun p s => ?_⟩
  · simp [readBar0_genHi]
  · simp [readBar0_jseqHi]
  · exact ⟨readBar0_genLo s p, readBar0_jseqLo s p, readBar0_genHi s p, readBar0_jseqHi s p⟩

/-! ### Semaphores (R47-R49) -/

@[simp] theorem resetChCtl_sems (s : State) (cell : Nat) : (resetChCtl s cell).sems = s.sems := by
  unfold resetChCtl; split <;> simp

@[simp] theorem resetChCtl_tieFirst (s : State) (cell : Nat) : (resetChCtl s cell).tieFirst = s.tieFirst := by
  unfold resetChCtl; split <;> simp

theorem acquire_held (s : State) (p : Port) (cell : Nat) (tag : BitVec 16) (h : (getSem s cell).owner ≠ none) :
    acquire s p cell tag = s := by
  obtain ⟨q, hq⟩ := Option.ne_none_iff_exists'.mp h
  simp [acquire, hq]

/-- The cell of a successful ACQUIRE (R48). -/
theorem acquire_free (s : State) (p : Port) (cell : Nat) (tag : BitVec 16) (h : (getSem s cell).owner = none) (j : Nat) :
    getSem (acquire s p cell tag) j =
      if j = cell then { owner := some p, tag := tag, acqCount := ((getSem s cell).acqCount + 1) % 256 } else getSem s j := by
  simp only [acquire, h]
  split <;> simp [getSem, setSem, Tab.get_set]

theorem acquire_tieFirst (s : State) (p : Port) (cell : Nat) (tag : BitVec 16) :
    (acquire s p cell tag).tieFirst = s.tieFirst := by
  unfold acquire
  simp only
  split
  · rfl
  · split <;> simp

theorem exec_semAcquire_held (p : Port) (cell : Fin 64) (tag : BitVec 16) (rival : Option (BitVec 16)) (s : State)
    (h : (getSem s cell.val).owner ≠ none) : exec (.semAcquire p cell tag rival) s = .next s := by
  cases rival with
  | none => simp [exec, execSemAcquire, acquire_held s _ _ _ h]
  | some r =>
    have hsome : (getSem s cell.val).owner.isNone = false := by simpa [Option.isNone_eq_false_iff, Option.isSome_iff_ne_none] using h
    simp [exec, execSemAcquire, acquire_held s _ _ _ h, hsome]

theorem exec_semAcquire_alone (p : Port) (cell : Fin 64) (tag : BitVec 16) (s : State)
    (h : (getSem s cell.val).owner = none) :
    ∃ t, exec (.semAcquire p cell tag none) s = .next t ∧
      getSem t cell.val = { owner := some p, tag := tag, acqCount := ((getSem s cell.val).acqCount + 1) % 256 } ∧
      t.tieFirst = s.tieFirst ∧ ∀ j, j ≠ cell.val → getSem t j = getSem s j := by
  refine ⟨_, rfl, ?_, acquire_tieFirst _ _ _ _, fun j hj => ?_⟩
  · rw [acquire_free s p _ tag h, if_pos rfl]
  · rw [acquire_free s p _ tag h, if_neg hj]

/-- Of two ACQUIREs in one cycle the port that lost the previous tie takes the cell, and the second finds it held (R48). -/
theorem exec_semAcquire_tie (p : Port) (cell : Fin 64) (tag r : BitVec 16) (s : State)
    (h : (getSem s cell.val).owner = none) :
    ∃ t, exec (.semAcquire p cell tag (some r)) s = .next t ∧
      getSem t cell.val =
        { owner := some s.tieFirst, tag := if s.tieFirst = p then tag else r
          acqCount := ((getSem s cell.val).acqCount + 1) % 256 } ∧
      t.tieFirst = s.tieFirst.peer ∧ ∀ j, j ≠ cell.val → getSem t j = getSem s j := by
  have hone := acquire_free s s.tieFirst cell.val (if s.tieFirst = p then tag else r) h
  have htwo := acquire_held (acquire s s.tieFirst cell.val (if s.tieFirst = p then tag else r)) s.tieFirst.peer cell.val
    (if s.tieFirst = p then r else tag) (by simp [hone])
  refine ⟨{ acquire s s.tieFirst cell.val (if s.tieFirst = p then tag else r) with tieFirst := s.tieFirst.peer },
    ?_, ?_, rfl, fun j hj => ?_⟩
  · simp [exec, execSemAcquire, htwo, h]
  · exact (hone cell.val).trans (if_pos rfl)
  · exact (hone j).trans (if_neg hj)

/-- Settles O50, from what one ACQUIRE does to a free and to a held cell. -/
theorem acquireTakesAFreeCellOnly : Obligations.AcquireTakesAFreeCellOnly :=
  ⟨exec_semAcquire_alone, exec_semAcquire_tie, exec_semAcquire_held, rfl⟩

end Sys2Proof.Machine
end

section
/-! ## Messages and events toward a port (R56, R57, R503-R508) -/

namespace Sys2Proof.Machine

/-! ### Reads and writes of a port's parts -/

@[simp] theorem getPort_setCounts (s : State) (p q : Port) (v : EventCounts) :
    getPort (setCounts s p v) q = getPort s q := by cases p <;> cases q <;> rfl

@[simp] theorem getCounts_setPort (s : State) (p q : Port) (v : PortState) :
    getCounts (setPort s p v) q = getCounts s q := by cases p <;> cases q <;> rfl

@[simp] theorem getPort_setChan (s : State) (c : Nat) (v : Channel) (q : Port) :
    getPort (setChan s c v) q = getPort s q := by cases q <;> rfl

@[simp] theorem setPort_getPort (s : State) (p : Port) : setPort s p (getPort s p) = s := by cases p <;> rfl

@[simp] theorem setCounts_getCounts (s : State) (p : Port) : setCounts s p (getCounts s p) = s := by cases p <;> rfl

@[simp] theorem setPort_setPort (s : State) (p : Port) (v w : PortState) :
    setPort (setPort s p v) p w = setPort s p w := by cases p <;> rfl

@[simp] theorem setCounts_setCounts (s : State) (p : Port) (v w : EventCounts) :
    setCounts (setCounts s p v) p w = setCounts s p w := by cases p <;> rfl

/-- A port that sends nothing more and keeps its ring and table stands. -/
theorem setPort_silent (s : State) (p : Port) :
    setPort s p { getPort s p with toHost := (getPort s p).toHost ++ [] } = s := by
  rw [List.append_nil]
  exact setPort_getPort s p

@[simp] theorem getSem_setChan (s : State) (c j : Nat) (v : Channel) : getSem (setChan s c v) j = getSem s j := rfl

theorem setPort_setCounts (s : State) (p : Port) (v : PortState) (k : EventCounts) :
    setPort (setCounts s p k) p v = setCounts (setPort s p v) p k := by cases p <;> rfl

/-! ### Messages (R57) -/

theorem sendMsix_unmasked (s : State) (p : Port) (v : Nat) (ha : msixAddr (getMsix s p v) ≠ 0)
    (hm : (getMsix s p v).masked = false) :
    sendMsix s p v = emit s p (.msix v (msixAddr (getMsix s p v)) (getMsix s p v).data.toNat) := by
  simp [sendMsix, ha, hm]

/-- A signal reaches the port's MSI-X table and what goes to its host, and nothing else. -/
theorem sendMsix_eq (s : State) (p : Port) (v : Nat) :
    ∃ m l, sendMsix s p v =
      setPort s p { getPort s p with msix := m, toHost := (getPort s p).toHost ++ l } := by
  unfold sendMsix
  simp only
  split
  · exact ⟨(getPort s p).msix, [], (setPort_silent s p).symm⟩
  · split
    · exact ⟨_, [], by simp [setMsix]; rfl⟩
    · exact ⟨(getPort s p).msix, _, rfl⟩

/-- The signal of a ring reaches its moderation beside what a message reaches (R55). -/
theorem signalRing_eq (s : State) (p : Port) :
    ∃ running held m l, signalRing s p =
      setPort s p { getPort s p with
        ring := { (getPort s p).ring with timerRunning := running, messagePending := held }
        msix := m, toHost := (getPort s p).toHost ++ l } := by
  unfold signalRing
  simp only
  split
  · obtain ⟨m, l, h⟩ := sendMsix_eq s p (getPort s p).ring.vector
    exact ⟨_, _, m, l, h⟩
  · split
    · exact ⟨_, _, _, [], by rw [List.append_nil]⟩
    · obtain ⟨m, l, h⟩ := sendMsix_eq
        (setPort s p { getPort s p with ring := { (getPort s p).ring with timerRunning := true } }) p
        (getPort s p).ring.vector
      refine ⟨true, (getPort s p).ring.messagePending, m, l, ?_⟩
      rw [h]
      simp

/-! ### Records (R56, R508) -/

/-- A record written to a ring with room: it goes to the host at PRODUCER, which advances, and messages follow it. -/
theorem writeRecord_eq (s : State) (p : Port) (rec : Bytes) (urgent : Bool) :
    ∃ running held m l, writeRecord s p rec urgent =
      setCounts (setPort s p { getPort s p with
        ring := { (getPort s p).ring with
          producer := (getPort s p).ring.producer + 1#32, timerRunning := running, messagePending := held }
        msix := m
        toHost := (getPort s p).toHost ++ ToHost.write (ringAddr (getPort s p).ring (getPort s p).ring.producer) rec :: l })
        p { getCounts s p with written := (getCounts s p).written + 1 } := by
  unfold writeRecord
  simp only
  split
  · obtain ⟨m, l, h⟩ := sendMsix_eq _ p _
    rw [h]
    exact ⟨(getPort s p).ring.timerRunning, (getPort s p).ring.messagePending, m, l, by simp [emit, setPort_setCounts]⟩
  · obtain ⟨running, held, m, l, h⟩ := signalRing_eq _ p
    rw [h]
    exact ⟨running, held, m, l, by simp [emit, setPort_setCounts]⟩

/-- What a port hears of messages and events: its ring, its MSI-X table, what goes to its host and its counters. -/
def Told (p : Port) (s t : State) : Prop :=
  ∃ r m l k, t =
    setCounts (setPort s p { getPort s p with ring := r, msix := m, toHost := (getPort s p).toHost ++ l }) p k

theorem Told.refl (p : Port) (s : State) : Told p s s :=
  ⟨(getPort s p).ring, (getPort s p).msix, [], getCounts s p, by rw [setPort_silent, setCounts_getCounts]⟩

theorem Told.trans {p : Port} {s t u : State} (hst : Told p s t) (htu : Told p t u) : Told p s u := by
  obtain ⟨r, m, l, k, rfl⟩ := hst
  obtain ⟨r', m', l', k', rfl⟩ := htu
  exact ⟨r', m', l ++ l', k', by simp [setPort_setCounts]⟩

theorem sendMsix_told (s : State) (p : Port) (v : Nat) : Told p s (sendMsix s p v) := by
  obtain ⟨m, l, h⟩ := sendMsix_eq s p v
  exact ⟨(getPort s p).ring, m, l, getCounts s p, by rw [h, ← getCounts_setPort, setCounts_getCounts]⟩

theorem writeRecord_told (s : State) (p : Port) (rec : Bytes) (urgent : Bool) : Told p s (writeRecord s p rec urgent) := by
  obtain ⟨running, held, m, l, h⟩ := writeRecord_eq s p rec urgent
  exact ⟨_, m, _, _, h⟩

theorem setCounts_told (s : State) (p : Port) (k : EventCounts) : Told p s (setCounts s p k) :=
  ⟨(getPort s p).ring, (getPort s p).msix, [], k, by rw [setPort_silent]⟩

theorem deliver_told (s : State) (p : Port) (src time : Nat) (rec : Bytes) (urgent : Bool) :
    Told p s (deliver s p src time rec urgent) := by
  unfold deliver
  split
  · exact setCounts_told _ _ _
  · exact writeRecord_told _ _ _ _

/-! ### Events (R505, R507) -/

theorem raiseOn_off (s : State) (p : Port) (cls inst aux : Nat) (data : Bytes)
    (h : (getPort s p).ring.enable = false ∨ bit (settingOf s p (eventSource cls inst)) 0 = false) :
    raiseOn s p cls inst aux data = s := by
  unfold raiseOn
  exact if_pos (by simpa using h)

theorem raiseOn_deliver (s : State) (p : Port) (cls inst aux : Nat) (data : Bytes)
    (hr : (getPort s p).ring.enable = true) (hs : bit (settingOf s p (eventSource cls inst)) 0 = true)
    (hc : bits (settingOf s p (eventSource cls inst)) 7 2 = 0 ∨ neverCoalesced cls = true) :
    raiseOn s p cls inst aux data =
      deliver s p (eventSource cls inst) s.now (eventRecord cls inst s.now aux data)
        (bit (settingOf s p (eventSource cls inst)) 1) := by
  unfold raiseOn
  simp only [hr, hs, Bool.not_true, Bool.or_self, Bool.false_eq_true, if_false]
  rw [if_pos hc]

/-- Inside an open window the event is counted and kept as the window's last. -/
theorem raiseOn_suppressed (s : State) (p : Port) (cls inst aux : Nat) (data : Bytes)
    (hr : (getPort s p).ring.enable = true) (hs : bit (settingOf s p (eventSource cls inst)) 0 = true)
    (hc : bits (settingOf s p (eventSource cls inst)) 7 2 ≠ 0) (hn : neverCoalesced cls = false)
    (hw : Tab.has (getCounts s p).windows (eventSource cls inst) = true) :
    ∃ last, raiseOn s p cls inst aux data =
      setCounts s p { getCounts s p with
        windows := Tab.set (getCounts s p).windows (eventSource cls inst)
          { Tab.get (getCounts s p).windows (eventSource cls inst) { source := eventSource cls inst } with
            suppressed := (Tab.get (getCounts s p).windows (eventSource cls inst)
              { source := eventSource cls inst }).suppressed + 1
            last := last } } := by
  unfold raiseOn
  simp only [hr, hs, hn, hw, Bool.not_true, Bool.or_self, Bool.false_eq_true, if_false, or_false, if_true]
  rw [if_neg hc]
  exact ⟨_, rfl⟩

/-- An event toward one port tells that port alone. -/
theorem raiseOn_told (s : State) (p : Port) (cls inst aux : Nat) (data : Bytes) :
    Told p s (raiseOn s p cls inst aux data) := by
  unfold raiseOn
  simp only
  split
  · exact Told.refl p s
  · split
    · exact deliver_told _ _ _ _ _ _
    · split
      · exact setCounts_told _ _ _
      · exact (setCounts_told _ _ _).trans (deliver_told _ _ _ _ _ _)

theorem deliver_full (s : State) (p : Port) (src time : Nat) (rec : Bytes) (urgent : Bool)
    (h : ringFull (getPort s p).ring = true) :
    ∃ earliest errors errorsSince, deliver s p src time rec urgent =
      setCounts s p { getCounts s p with
        lost := (getCounts s p).lost + 1, lostSince := (getCounts s p).lostSince + 1, lastLost := time
        firstLost := earliest, errorLost := errors, errorLostSince := errorsSince } := by
  unfold deliver
  rw [if_pos h]
  exact ⟨_, _, _, rfl⟩

theorem deliver_room (s : State) (p : Port) (src time : Nat) (rec : Bytes) (urgent : Bool)
    (h : ringFull (getPort s p).ring = false) : deliver s p src time rec urgent = writeRecord s p rec urgent := by
  unfold deliver
  rw [if_neg (by simp [h])]

/-- What telling a port leaves: the other port and its counters, the channels and the Foreman. -/
theorem Told.leaves {p : Port} {s t : State} (h : Told p s t) :
    getPort t p.peer = getPort s p.peer ∧ getCounts t p.peer = getCounts s p.peer ∧ t.channels = s.channels ∧ t.fm = s.fm := by
  obtain ⟨r, m, l, k, rfl⟩ := h
  simp

/-- Settles O47, a clause for each branch of an event's way to a port. -/
theorem eventsReachThePort : Obligations.EventsReachThePort := by
  refine ⟨fun p cls inst aux data s h => raiseOn_off s p cls inst aux data h,
    fun p cls inst aux data s hr hs hc hf => ?lost, fun p cls inst aux data s hr hs hc hf => ?written,
    fun p cls inst aux data s hr hs hc hn hw => ?suppressed,
    fun p cls inst aux data s => (raiseOn_told s p cls inst aux data).leaves⟩
  case lost =>
    rw [raiseOn_deliver s p cls inst aux data hr hs hc]
    obtain ⟨earliest, errors, errorsSince, h⟩ := deliver_full s p (eventSource cls inst) s.now
      (eventRecord cls inst s.now aux data) (bit (settingOf s p (eventSource cls inst)) 1) hf
    rw [h]
    simp
  case written =>
    rw [raiseOn_deliver s p cls inst aux data hr hs hc, deliver_room _ _ _ _ _ _ hf]
    obtain ⟨running, held, m, l, h⟩ := writeRecord_eq s p (eventRecord cls inst s.now aux data)
      (bit (settingOf s p (eventSource cls inst)) 1)
    rw [h]
    exact ⟨by simp, by simp, l, by simp⟩
  case suppressed =>
    obtain ⟨last, h⟩ := raiseOn_suppressed s p cls inst aux data hr hs hc hn hw
    rw [h]
    simp

/-! ### Completions (R54) -/

theorem complete_quiet (s : State) (ch : Nat) (r : Reply)
    (h : (getChan s ch).cplIrq = false ∨ (getChan s ch).handed = true ∨ (getSem s ch).owner ≠ some (getChan s ch).rangBy) :
    ∃ c, complete s ch r = setChan s ch c := by
  unfold complete
  simp only
  rw [if_neg]
  · exact ⟨_, rfl⟩
  · simp only [Bool.and_eq_true, Bool.not_eq_true', beq_iff_eq, not_and]
    intro hi ho
    rcases h with h | h | h <;> simp_all

theorem complete_signals (s : State) (ch : Nat) (r : Reply) (hi : (getChan s ch).cplIrq = true)
    (hh : (getChan s ch).handed = false) (ho : (getSem s ch).owner = some (getChan s ch).rangBy) :
    ∃ c, complete s ch r = sendMsix (setChan s ch c) (getChan s ch).rangBy (getChan s ch).cplVector := by
  unfold complete
  simp only
  rw [if_pos]
  · exact ⟨_, rfl⟩
  · simpa [hi, hh] using ho

/-- Settles O46: the response stands whatever is signalled, and the message goes exactly on the condition of R54. -/
theorem completionWritesThenSignals : Obligations.CompletionWritesThenSignals := by
  refine ⟨fun s ch r w => ?response, fun s ch r h => ?quiet, fun s ch r p v hi hh hp ho hv hm ha => ?signal⟩
  case response =>
    exact ⟨complete_answered s s ch r (getChan_wf s w ch) rfl, fun k hk => complete_other s ch k r hk, complete_fm s ch r⟩
  case quiet =>
    obtain ⟨c, h⟩ := complete_quiet s ch r h
    simp [h]
  case signal =>
    subst hp hv
    obtain ⟨c, h⟩ := complete_signals s ch r hi hh ho
    have he : getMsix (setChan s ch c) (getChan s ch).rangBy = getMsix s (getChan s ch).rangBy := by
      funext v; simp [getMsix]
    rw [h, sendMsix_unmasked _ _ _ (by rwa [he]) (by rwa [he]), he]
    simp [emit]

end Sys2Proof.Machine
end

section
/-! ## Mailbox channels (R49-R54, R67, R73, R86) -/

namespace Sys2Proof.Machine

theorem Told.sems {p : Port} {s t : State} (h : Told p s t) : t.sems = s.sems := by
  obtain ⟨r, m, l, k, rfl⟩ := h
  simp

/-! ### RELEASE (R49) -/

theorem resetChCtl_ctl (s : State) (cell : Nat) (h : cell < 32) :
    (getChan (resetChCtl s cell) cell).cplIrq = false ∧ (getChan (resetChCtl s cell) cell).cplVector = 0 := by
  simp [resetChCtl, h]

theorem release_not_owner (s : State) (p : Port) (cell : Nat) (h : (getSem s cell).owner ≠ some p) :
    release s p cell = s := if_neg h

theorem release_owner (s : State) (p : Port) (cell : Nat) (h : (getSem s cell).owner = some p) :
    release s p cell = freeCell s p cell 0 := if_pos h

/-- A freed cell tells the port that did not hold it (R49). -/
theorem freeCell_told (s : State) (p : Port) (cell cause : Nat) :
    Told p.peer (resetChCtl (setSem s cell { getSem s cell with owner := none, tag := 0 }) cell)
      (freeCell s p cell cause) := raiseOn_told _ _ _ _ _ _

theorem getSem_freeCell (s : State) (p : Port) (cell cause j : Nat) :
    getSem (freeCell s p cell cause) j =
      if j = cell then { getSem s cell with owner := none, tag := 0 } else getSem s j := by
  rw [getSem_of_sems (freeCell_told s p cell cause).sems]
  simp [getSem, setSem, Tab.get_set]

theorem freeCell_ctl (s : State) (p : Port) (cell cause : Nat) (h : cell < 32) :
    (getChan (freeCell s p cell cause) cell).cplIrq = false ∧ (getChan (freeCell s p cell cause) cell).cplVector = 0 := by
  obtain ⟨-, -, hchannels, -⟩ := (freeCell_told s p cell cause).leaves
  rw [getChan_of_channels hchannels]
  exact resetChCtl_ctl _ cell h

/-! ### Refusals (R51, R53) -/

theorem rejectReason_not_owner (s : State) (p : Port) (ch : Nat) (h : (getSem s ch).owner ≠ some p) :
    rejectReason s p ch ≠ 0 := by
  unfold rejectReason
  cases ho : (getSem s ch).owner with
  | none => simp
  | some q =>
    have hq : q ≠ p := fun e => h (by rw [ho, e])
    simp [hq]

@[simp] theorem getChan_reject_self (s : State) (ch why : Nat) :
    getChan (reject s ch why) ch =
      { getChan s ch with rejects := satInc 32 (getChan s ch).rejects, lastReject := why } := getChan_setChan_self _ _ _

theorem reject_other (s : State) (ch why : Nat) : OtherChannels s (reject s ch why) ch :=
  fun k hk => getChan_setChan_other s ch k _ hk

theorem exec_mailboxBufferWrite_refused (p : Port) (ch : Fin 32) (off : Nat) (data : Bytes) (s : State)
    (h : rejectReason s p ch.val ≠ 0) :
    exec (.mailboxBufferWrite p ch off data) s = .next (reject s ch.val (rejectReason s p ch.val)) := if_pos h

theorem exec_mailboxBufferWrite_accepted (p : Port) (ch : Fin 32) (off : Nat) (data : Bytes) (s : State)
    (h : rejectReason s p ch.val = 0) (hoff : off + data.length ≤ 4096) :
    exec (.mailboxBufferWrite p ch off data) s =
      .next (setChan s ch.val { bufWrite (getChan s ch.val) off data with written := true }) := by
  have hwhole : data.take (4096 - off) = data := List.take_of_length_le (by omega)
  simp [exec, execMailboxBufferWrite, h, hwhole]

/-! ### Doorbells (R53, R67, R76) -/

theorem exec_doorbell_stale (p : Port) (ch : Fin 32) (epoch : Nat) (s : State) (h : epoch ≠ (getPort s p).epoch) :
    exec (.doorbell p ch epoch) s =
      .next (setPort s p { getPort s p with stale := satInc 32 (getPort s p).stale }) := if_pos h

theorem exec_doorbell_refused (p : Port) (ch : Fin 32) (epoch : Nat) (s : State) (he : epoch = (getPort s p).epoch)
    (h : rejectReason s p ch.val ≠ 0) :
    exec (.doorbell p ch epoch) s = .next (reject s ch.val (rejectReason s p ch.val)) := by
  simp [exec, execDoorbell, he, h]

/-- An accepted doorbell: the channel is POSTED, and the doorbell the newest of the queue. -/
def rung (s : State) (p : Port) (ch : Nat) : State :=
  onFm (setChan s ch { getChan s ch with state := .posted, rangBy := p, handed := false })
    fun f => { f with doorbells := f.doorbells ++ [ch] }

theorem exec_doorbell_accepted (p : Port) (ch : Fin 32) (epoch : Nat) (s : State) (he : epoch = (getPort s p).epoch)
    (h : rejectReason s p ch.val = 0) :
    exec (.doorbell p ch epoch) s = .next (answerUnknown (rung s p ch.val) ch.val) := by
  simp [exec, execDoorbell, he, h, rung]

@[simp] theorem getChan_rung_self (s : State) (p : Port) (ch : Nat) :
    getChan (rung s p ch) ch = { getChan s ch with state := .posted, rangBy := p, handed := false } :=
  getChan_setChan_self s ch _

theorem rung_other (s : State) (p : Port) (ch : Nat) : OtherChannels s (rung s p ch) ch :=
  fun k hk => getChan_setChan_other s ch k _ hk

theorem answerUnknown_known (s : State) (ch : Nat)
    (h : knownOpcodes.contains (u16 (bufRead (getChan s ch) 0 2) 0) = true) : answerUnknown s ch = s := by
  unfold answerUnknown
  simp only [h]
  exact if_pos (by simp)

/-- An opcode of no command is answered BAD_OPCODE when its doorbell is the oldest (R70). -/
theorem answerUnknown_answers (s : State) (ch : Nat) (hready : s.ready = true) (hup : s.updating = false)
    (hstate : (getChan s ch).state = .posted) (hwritten : (getChan s ch).written = true)
    (hop : knownOpcodes.contains (u16 (bufRead (getChan s ch) 0 2) 0) = false) (hhead : s.fm.doorbells.head? = some ch) :
    answerUnknown s ch = complete (takeDoorbell s ch) ch (nackReply s { status := stBAD_OPCODE }) := by
  simp only [answerUnknown, hready, hup, hstate, hwritten, hop, hhead]
  simp

/-! ### Awaited completions (R86) -/

theorem exec_awaitedCompletion_ready (ch : Fin 32) (s : State) (w : Waiting) (hup : s.updating = false)
    (hw : (getChan s ch.val).waiting = some w) (hr : w.ready = true) :
    exec (.awaitedCompletion ch) s = .next (complete s ch.val w.reply) := by
  simp [exec, execAwaitedCompletion, hup, hw, hr]

theorem exec_awaitedCompletion_idle (ch : Fin 32) (s : State) (w : Waiting) (hw : (getChan s ch.val).waiting = some w)
    (h : w.ready = false ∨ s.updating = true) : exec (.awaitedCompletion ch) s = .next s := by
  rcases h with h | h
  · cases hup : s.updating <;> simp [exec, execAwaitedCompletion, hup, hw, h]
  · simp [exec, execAwaitedCompletion, h]

/-! ### The obligations -/

theorem mailboxBufferWrite_accepted (p : Port) (ch : Fin 32) (off : Nat) (data : Bytes) :
    Leads (.mailboxBufferWrite p ch off data)
      (fun s => MemoryCanonical s ∧ rejectReason s p ch.val = 0 ∧ off + data.length ≤ 4096)
      fun s t => (getChan t ch.val).written = true ∧ (getChan t ch.val).state = (getChan s ch.val).state ∧
        bufRead (getChan t ch.val) off data.length = data ∧
        (∀ a, a < off ∨ off + data.length ≤ a →
          Memory.read (getChan t ch.val).buffer a = Memory.read (getChan s ch.val).buffer a) ∧
        OtherChannels s t ch.val := by
  intro s ⟨hmem, hr, hoff⟩
  have hwf := getChan_wf s hmem ch.val
  refine ⟨_, exec_mailboxBufferWrite_accepted p ch off data s hr hoff, ?_⟩
  refine ⟨by simp, by simp [bufWrite], ?_, fun a ha => ?_, fun k hk => getChan_setChan_other s _ k _ hk⟩
  · simpa [bufRead, bufWrite] using Memory.readBytes_writeBytes (getChan s ch.val).buffer off data hwf
  · simp only [getChan_setChan_self, bufWrite]
    rw [Memory.read_writeBytes _ off a data hwf, if_neg (by omega)]

theorem doorbell_unknown (p : Port) (ch : Fin 32) (epoch : Nat) :
    Leads (.doorbell p ch epoch)
      (fun s => MemoryCanonical s ∧ epoch = (getPort s p).epoch ∧ rejectReason s p ch.val = 0 ∧ s.fm.doorbells = [] ∧
        s.ready = true ∧ s.updating = false ∧ (getChan s ch.val).written = true ∧
        knownOpcodes.contains (u16 (bufRead (getChan s ch.val) 0 2) 0) = false)
      fun s t => Answered t (readCmd s ch.val) stBAD_OPCODE s.fm.gen none (nackBytes { status := stBAD_OPCODE }) ∧
        OtherChannels s t ch.val := by
  intro s ⟨hmem, he, hr, hbells, hready, hup, hwritten, hop⟩
  have hanswer := answerUnknown_answers (rung s p ch.val) ch.val hready hup (by simp) (by simpa using hwritten)
    (by simpa [bufRead] using hop) (by simp [rung, hbells])
  refine ⟨_, exec_doorbell_accepted p ch epoch s he hr, ?_⟩
  rw [hanswer]
  constructor
  · exact complete_answered s (takeDoorbell (rung s p ch.val) ch.val) ch.val (nackReply (rung s p ch.val) _)
      (getChan_wf s hmem ch.val) (by rw [getChan_of_channels (takeDoorbell_channels _ _)]; simp)
  · intro k hk
    rw [complete_other _ _ _ _ hk, getChan_of_channels (takeDoorbell_channels _ _)]
    exact rung_other s p ch.val k hk

/-- Settles O37: each clause is the outcome of one row on the states of one branch of its rule. -/
theorem mailboxRowsComplete : Obligations.MailboxRowsComplete := by
  refine ⟨fun p cell tag rival s h => ?alone, fun p cell tag rival s h => ?held, fun p cell tag rival r s h => ?tie,
    fun p cell s h => ?released, fun p cell s h => ⟨_, rfl, release_not_owner s p cell.val h⟩,
    mailboxBufferWrite_accepted,
    fun p ch off data s h =>
      ⟨_, exec_mailboxBufferWrite_refused p ch off data s h, getChan_reject_self _ _ _, reject_other _ _ _⟩,
    fun p ch epoch s h => ⟨_, exec_doorbell_stale p ch epoch s h, by simp⟩,
    fun p ch epoch s ⟨he, hr⟩ =>
      ⟨_, exec_doorbell_refused p ch epoch s he hr, getChan_reject_self _ _ _, rfl⟩,
    fun p ch epoch s h => ?known, doorbell_unknown, fun ch w s h => ?due,
    fun ch w s ⟨hw, h⟩ => ⟨s, exec_awaitedCompletion_idle ch s w hw h, rfl⟩⟩
  case alone =>
    obtain ⟨hfree, rfl⟩ := h
    exact exec_semAcquire_alone p cell tag s hfree
  case held =>
    exact ⟨s, exec_semAcquire_held p cell tag rival s (Option.isSome_iff_ne_none.mp h), rfl⟩
  case tie =>
    obtain ⟨hfree, rfl⟩ := h
    obtain ⟨t, ht, hcell, htie, -⟩ := exec_semAcquire_tie p cell tag r s hfree
    exact ⟨t, ht, by rw [hcell], by rw [hcell], htie⟩
  case released =>
    refine ⟨_, rfl, ?_⟩
    rw [release_owner s p cell.val h]
    exact ⟨by simp [getSem_freeCell], freeCell_ctl s p cell.val 0, fun j hj => by simp [getSem_freeCell, hj]⟩
  case known =>
    obtain ⟨he, hr, hop⟩ := h
    refine ⟨_, exec_doorbell_accepted p ch epoch s he hr, ?_⟩
    rw [answerUnknown_known _ _ (by simpa [bufRead] using hop)]
    exact ⟨getChan_rung_self s p ch.val, rfl, rung_other s p ch.val⟩
  case due =>
    obtain ⟨hmem, hup, hw, hr⟩ := h
    exact ⟨_, exec_awaitedCompletion_ready ch s w hup hw hr,
      complete_answered s s ch.val w.reply (getChan_wf s hmem ch.val) rfl, by rw [complete_chan],
      fun k hk => complete_other s ch.val k w.reply hk, complete_fm s ch.val w.reply⟩

/-! ### The channel registers at both ports (R50, R51) -/

theorem readBar0_buffer (s : State) (p : Port) (off : Nat) (h : 0x20000 ≤ off ∧ off < 0x40000) :
    readBar0 s p off = BitVec.ofNat 32 (u32 (readBuffers s (off - 0x20000) 4) 0) := by
  unfold readBar0
  simp only
  rw [if_pos h]

theorem readBar0_channel (s : State) (p : Port) (off : Nat) (h : 0x2000 ≤ off ∧ off < 0x2800) :
    readBar0 s p off = BitVec.ofNat 32 (if off % 4 ≠ 0 then 0 else readChan s (off - 0x2000)) := by
  unfold readBar0
  simp only
  rw [if_neg (by omega), if_neg (c := off < 0x200) (by omega), if_neg (c := 0x1000 ≤ off ∧ off < 0x1200) (by omega),
    if_pos h]

theorem writeBar0_chCtl_not_owner (s : State) (p : Port) (ch : Fin 32) (d : BitVec 32)
    (h : (getSem s ch.val).owner ≠ some p) : writeBar0 s p (0x2004 + 64 * ch.val) d = s := by
  have hch : (0x2004 + 64 * ch.val - 0x2000) / 64 = ch.val := by omega
  unfold writeBar0
  simp only
  rw [if_neg (by omega), if_pos (by omega), hch, if_neg (fun e => h e.2)]

/-- Settles O51: a write or doorbell of a port that is not the owner is refused or ignored, and reads of the channel
regions do not look at the port. -/
theorem onlyTheOwnerUsesAChannel : Obligations.OnlyTheOwnerUsesAChannel := by
  refine ⟨fun p ch off data s h => ?buffer, fun p ch d full s h => ?ctl, fun p ch epoch s h => ?doorbell,
    fun s off h => ?read⟩
  case buffer =>
    exact ⟨_, exec_mailboxBufferWrite_refused p ch off data s (rejectReason_not_owner s p ch.val h), by simp⟩
  case ctl =>
    have hnext : exec (.registerWrite p (0x2004 + 64 * ch.val) d full) s = .next s := by
      simp only [exec, execRegisterWrite, writeBar0_chCtl_not_owner s p ch d h, ite_self]
    exact ⟨s, hnext, rfl⟩
  case doorbell =>
    by_cases he : epoch = (getPort s p).epoch
    · exact ⟨_, exec_doorbell_refused p ch epoch s he (rejectReason_not_owner s p ch.val h), by simp, by simp, rfl⟩
    · refine ⟨_, exec_doorbell_stale p ch epoch s he, ?_⟩
      simp [getChan]
  case read =>
    rcases h with h | h
    · rw [readBar0_channel s .a off h, readBar0_channel s .b off h]
    · rw [readBar0_buffer s .a off h, readBar0_buffer s .b off h]

end Sys2Proof.Machine
end

section
/-! ## Host DMA engines (R58-R62)

What the operations under a job leave alone: writes to slots and benches change the store, signals change what goes to the
hosts, and the retirement of a job changes sources, channels and the Foreman. -/

namespace Sys2Proof.Machine

/-! ### Engines -/

theorem getEngine_setEngine (s : State) (p q : Port) (e k : Nat) (v : DmaEngine) :
    getEngine (setEngine s p e v) q k = if q = p ∧ k = e then v else getEngine s q k := by
  cases p <;> cases q <;> simp [getEngine, setEngine, getPort, setPort, Tab.get_set]

@[simp] theorem getEngine_setEngine_self (s : State) (p : Port) (e : Nat) (v : DmaEngine) :
    getEngine (setEngine s p e v) p e = v := by
  simp [getEngine_setEngine]

@[simp] theorem getEngine_emit (s : State) (p q : Port) (e : Nat) (x : ToHost) :
    getEngine (emit s p x) q e = getEngine s q e := by
  cases p <;> cases q <;> rfl

@[simp] theorem setEngine_store (s : State) (p : Port) (e : Nat) (v : DmaEngine) : (setEngine s p e v).store = s.store := by
  simp [setEngine]

@[simp] theorem setEngine_toHost (s : State) (p q : Port) (e : Nat) (v : DmaEngine) :
    (getPort (setEngine s p e v) q).toHost = (getPort s q).toHost := by
  cases p <;> cases q <;> rfl

@[simp] theorem emit_store (s : State) (p : Port) (x : ToHost) : (emit s p x).store = s.store := by simp [emit]

@[simp] theorem emit_toHost (s : State) (p : Port) (x : ToHost) :
    (getPort (emit s p x) p).toHost = (getPort s p).toHost ++ [x] := by simp [emit]

/-- The checks of a job read captures and benches, and no engine (R60). -/
theorem jobCheck_setEngine (s : State) (p q : Port) (e : Nat) (v : DmaEngine) (j : DmaJob) (d : Bytes) :
    jobCheck (setEngine s p e v) q j d = jobCheck s q j d := by cases p <;> rfl

/-! ### What changes the store alone -/

/-- Only the frame store differs. -/
def StoreOnly (s t : State) : Prop := ∃ st, t = { s with store := st }

theorem StoreOnly.refl (s : State) : StoreOnly s s := ⟨s.store, rfl⟩

theorem StoreOnly.trans {s t u : State} (hst : StoreOnly s t) (htu : StoreOnly t u) : StoreOnly s u := by
  obtain ⟨a, rfl⟩ := hst
  obtain ⟨b, rfl⟩ := htu
  exact ⟨b, rfl⟩

theorem StoreOnly.getPort {s t : State} (h : StoreOnly s t) (p : Port) : getPort t p = getPort s p := by
  obtain ⟨st, rfl⟩ := h
  cases p <;> rfl

theorem StoreOnly.getEngine {s t : State} (h : StoreOnly s t) (p : Port) (e : Nat) : getEngine t p e = getEngine s p e := by
  simp [Machine.getEngine, h.getPort]

theorem benchWrite_storeOnly (s : State) (b : Bench) (x : Nat) (data : Bytes) : StoreOnly s (benchWrite s b x data) := by
  induction data generalizing s x with
  | nil => exact StoreOnly.refl s
  | cons v data ih =>
    refine StoreOnly.trans ?_ (ih _ _)
    split
    · exact ⟨_, rfl⟩
    · exact StoreOnly.refl s

theorem slotWrite_storeOnly (s : State) (b : Bench) (i off : Nat) (data : Bytes) :
    StoreOnly s (slotWrite s b i off data) := benchWrite_storeOnly _ _ _ _

theorem setBench_storeOnly (s : State) (k : Nat) (b : Bench) : StoreOnly s (setBench s k b) := ⟨_, rfl⟩

theorem relax_storeOnly (s : State) (k i : Nat) : StoreOnly s (relax s k i) := by
  unfold relax
  split
  · exact StoreOnly.refl s
  · simp only
    split
    · exact (slotWrite_storeOnly _ _ _ _ _).trans (setBench_storeOnly _ _ _)
    · exact StoreOnly.refl s

theorem settleBench_storeOnly (s : State) (k : Nat) : StoreOnly s (settleBench s k) := by
  unfold settleBench
  split
  · exact StoreOnly.refl s
  · exact iteInduction (fun _ => ⟨_, rfl⟩) fun _ => setBench_storeOnly _ _ _

theorem jobHold_storeOnly (s : State) (j : DmaJob) : StoreOnly s (jobHold s j) := by
  unfold jobHold holdSlot
  split
  · split
    · exact StoreOnly.refl s
    · exact setBench_storeOnly _ _ _
  · exact StoreOnly.refl s

theorem jobUnhold_storeOnly (s : State) (j : DmaJob) : StoreOnly s (jobUnhold s j) := by
  unfold jobUnhold unholdSlot
  split
  · split
    · exact StoreOnly.refl s
    · exact ((setBench_storeOnly _ _ _).trans (relax_storeOnly _ _ _)).trans (settleBench_storeOnly _ _)
  · exact StoreOnly.refl s

theorem jobStore_staging (s : State) (p : Port) (j : DmaJob) (data : Bytes) (h : j.kind = 2) :
    jobStore s p j data = storeWrite s (stagingBase p + j.offset) data := by
  simp [jobStore, h]

theorem jobStore_storeOnly (s : State) (p : Port) (j : DmaJob) (data : Bytes) : StoreOnly s (jobStore s p j data) := by
  unfold jobStore
  split
  · exact ⟨_, rfl⟩
  · split
    · exact slotWrite_storeOnly _ _ _ _ _
    · exact StoreOnly.refl s

/-! ### Writes keep the store's canonical form -/

theorem benchWrite_wf (s : State) (b : Bench) (x : Nat) (data : Bytes) (w : Memory.wf s.store.mem = true) :
    Memory.wf (benchWrite s b x data).store.mem = true := by
  induction data generalizing s x with
  | nil => exact w
  | cons v data ih =>
    apply ih
    split
    · exact Memory.writeBytes_wf _ _ _ w
    · exact w

theorem jobStore_wf (s : State) (p : Port) (j : DmaJob) (data : Bytes) (w : Memory.wf s.store.mem = true) :
    Memory.wf (jobStore s p j data).store.mem = true := by
  unfold jobStore
  split
  · exact Memory.writeBytes_wf _ _ _ w
  · split
    · exact benchWrite_wf _ _ _ _ w
    · exact w

/-! ### What signals the hosts -/

/-- The bytes of the store and every engine stand, and what goes to each host only grows. -/
structure Signals (s t : State) : Prop where
  mem : t.store.mem = s.store.mem
  dma : ∀ q, (getPort t q).dma = (getPort s q).dma
  toHost : ∀ q, ∃ l, (getPort t q).toHost = (getPort s q).toHost ++ l

theorem Signals.of_ports {s t : State} (hmem : t.store.mem = s.store.mem) (h : ∀ q, getPort t q = getPort s q) :
    Signals s t where
  mem := hmem
  dma q := by rw [h]
  toHost q := ⟨[], by rw [h, List.append_nil]⟩

theorem Signals.of_store {s : State} {st : Store} (h : st.mem = s.store.mem) : Signals s { s with store := st } :=
  Signals.of_ports h (StoreOnly.getPort ⟨st, rfl⟩)

theorem Signals.trans {s t u : State} (hst : Signals s t) (htu : Signals t u) : Signals s u where
  mem := htu.mem.trans hst.mem
  dma q := (htu.dma q).trans (hst.dma q)
  toHost q := by
    obtain ⟨l, hl⟩ := hst.toHost q
    obtain ⟨l', hl'⟩ := htu.toHost q
    exact ⟨l ++ l', by rw [hl', hl, List.append_assoc]⟩

theorem Signals.getEngine {s t : State} (h : Signals s t) (p : Port) (e : Nat) : getEngine t p e = getEngine s p e := by
  simp [Machine.getEngine, h.dma p]

theorem Told.store {p : Port} {s t : State} (h : Told p s t) : t.store = s.store := by
  obtain ⟨r, m, l, k, rfl⟩ := h
  simp

theorem Told.dma {p : Port} {s t : State} (h : Told p s t) (q : Port) : (getPort t q).dma = (getPort s q).dma := by
  obtain ⟨r, m, l, k, rfl⟩ := h
  cases p <;> cases q <;> rfl

/-- The told port's link grows, and the other's stands. -/
theorem Told.toHost {p : Port} {s t : State} (h : Told p s t) (q : Port) :
    ∃ l, (getPort t q).toHost = (getPort s q).toHost ++ l := by
  obtain ⟨r, m, l, k, rfl⟩ := h
  cases p <;> cases q
  · exact ⟨l, rfl⟩
  · exact ⟨[], (List.append_nil _).symm⟩
  · exact ⟨[], (List.append_nil _).symm⟩
  · exact ⟨l, rfl⟩

theorem Told.signals {p : Port} {s t : State} (h : Told p s t) : Signals s t :=
  ⟨by rw [h.store], h.dma, h.toHost⟩

theorem raise_signals (s : State) (cls inst : Nat) (data : Bytes) (aux : Nat) : Signals s (raise s cls inst data aux) :=
  (raiseOn_told s .a cls inst aux data).signals.trans (raiseOn_told _ .b cls inst aux data).signals

theorem fireNotifies_signals (s : State) : Signals s (fireNotifies s) := by
  unfold fireNotifies
  exact List.foldlRecOn (motive := Signals s) _ _ (Signals.of_store rfl)
    fun t ht n _ => ht.trans (raise_signals t _ _ _ _)

theorem fireJob_signals (s : State) (p : Port) (e n : Nat) : Signals s (fireJob s p e n) := by
  unfold fireJob
  refine Signals.trans ?_ (fireNotifies_signals _)
  exact Signals.of_store rfl

/-! ### What the retirement of a job changes (R136) -/

/-- Only sources, channels and the Foreman differ. -/
def Retired (s t : State) : Prop := ∃ a f c, t = { s with sources := a, fm := f, channels := c }

theorem Retired.refl (s : State) : Retired s s := ⟨s.sources, s.fm, s.channels, rfl⟩

theorem Retired.trans {s t u : State} (hst : Retired s t) (htu : Retired t u) : Retired s u := by
  obtain ⟨a, f, c, rfl⟩ := hst
  obtain ⟨a', f', c', rfl⟩ := htu
  exact ⟨a', f', c', rfl⟩

theorem Retired.getPort {s t : State} (h : Retired s t) (p : Port) : getPort t p = getPort s p := by
  obtain ⟨a, f, c, rfl⟩ := h
  cases p <;> rfl

theorem Retired.store {s t : State} (h : Retired s t) : t.store = s.store := by
  obtain ⟨a, f, c, rfl⟩ := h
  rfl

theorem Retired.signals {s t : State} (h : Retired s t) : Signals s t := Signals.of_ports (by rw [h.store]) h.getPort

theorem wake_retired (s : State) (w : WaitFor) (eff : Option Nat) : Retired s (wake s w eff) := by
  unfold wake
  refine Retired.trans (t := _) ?_ ⟨_, _, _, rfl⟩
  cases eff with
  | none => exact Retired.refl s
  | some v =>
    exact List.foldlRecOn (motive := Retired s) _ _ (Retired.refl s) fun t ht g _ => ht.trans ⟨_, _, _, rfl⟩

theorem setSource_retired (s : State) (i : Nat) (v : Source) : Retired s (setSource s i v) := ⟨_, _, _, rfl⟩

theorem boundaryPassed_retired (s : State) (i : Nat) : Retired s (boundaryPassed s i) := by
  unfold boundaryPassed
  exact iteInduction (fun _ => Retired.refl s) fun _ => Retired.trans (setSource_retired s i _) (wake_retired _ _ _)

theorem retireJob_retired (s : State) (order : Nat) : Retired s (retireJob s order) := by
  unfold retireJob
  exact List.foldlRecOn (motive := Retired s) _ _ ⟨_, _, _, rfl⟩ fun t ht i _ => ht.trans (boundaryPassed_retired t i)

/-! ### The end of a job (R61, R62) -/

/-- The registers of an engine whose job has ended: a status other than DONE halts it. -/
def jobEnded (x : DmaEngine) (status : Nat) : DmaEngine :=
  if status = jobDONE then { x with job := none, done := x.done + 1, head := x.head + 1#32 }
  else { x with job := none, done := x.done + 1, head := x.head + 1#32, halted := true, lastError := status, enable := false }

/-- The write-back into the descriptor of a job that has ended. -/
def writeBack (x : DmaEngine) (j : DmaJob) (status remaining : Nat) : ToHost :=
  .write (descriptorAddr x j.number + 24) (le 2 status ++ zeros 2 ++ le 4 remaining)

/-- A job ends in four steps: the write-back, the engine's registers, the sources that waited for it, the message. -/
theorem finishJob_steps (s : State) (p : Port) (e : Nat) (j : DmaJob) (status remaining : Nat) :
    ∃ u, Retired (setEngine (emit s p (writeBack (getEngine s p e) j status remaining)) p e
        (jobEnded (getEngine s p e) status)) u ∧
      Told p u (finishJob s p e j status remaining) := by
  refine ⟨retireJob _ j.order, retireJob_retired _ _, ?_⟩
  unfold finishJob
  simp only
  have hregs : ({ getEngine s p e with
      job := none, done := (getEngine s p e).done + 1, head := (getEngine s p e).head + 1#32
      halted := if status == jobDONE then (getEngine s p e).halted else true
      lastError := if status == jobDONE then (getEngine s p e).lastError else status
      enable := if status == jobDONE then (getEngine s p e).enable else false } : DmaEngine) =
      jobEnded (getEngine s p e) status := by
    by_cases h : status = jobDONE <;> simp [jobEnded, h]
  rw [hregs]
  split
  · exact sendMsix_told _ _ _
  · exact Told.refl _ _

theorem finishJob_engine (s : State) (p : Port) (e : Nat) (j : DmaJob) (status remaining : Nat) :
    getEngine (finishJob s p e j status remaining) p e = jobEnded (getEngine s p e) status := by
  obtain ⟨u, hu, ht⟩ := finishJob_steps s p e j status remaining
  rw [ht.signals.getEngine, hu.signals.getEngine, getEngine_setEngine_self]

theorem finishJob_store (s : State) (p : Port) (e : Nat) (j : DmaJob) (status remaining : Nat) :
    (finishJob s p e j status remaining).store = s.store := by
  obtain ⟨u, hu, ht⟩ := finishJob_steps s p e j status remaining
  rw [ht.store, hu.store]
  simp

theorem finishJob_toHost (s : State) (p : Port) (e : Nat) (j : DmaJob) (status remaining : Nat) :
    ∃ k, (getPort (finishJob s p e j status remaining) p).toHost =
      (getPort s p).toHost ++ writeBack (getEngine s p e) j status remaining :: k := by
  obtain ⟨u, hu, ht⟩ := finishJob_steps s p e j status remaining
  obtain ⟨k, hk⟩ := ht.toHost p
  exact ⟨k, by rw [hk, hu.getPort]; simp⟩

/-! ### The rows of a job -/

theorem abortJob_idle (s : State) (p : Port) (e : Nat) (data : Bytes) (h : (getEngine s p e).job = none) :
    abortJob s p e data = setEngine s p e { getEngine s p e with enable := false } := by
  simp [abortJob, h]

theorem abortJob_running (s : State) (p : Port) (e : Nat) (data : Bytes) (j : DmaJob)
    (h : (getEngine s p e).job = some j) :
    ∃ u n, StoreOnly s u ∧ abortJob s p e data = finishJob u p e j jobABORTED n := by
  unfold abortJob
  simp only [h]
  exact ⟨_, _, StoreOnly.trans (iteInduction (fun _ => StoreOnly.refl s) fun _ => jobStore_storeOnly _ _ _ _)
    (jobUnhold_storeOnly _ j), rfl⟩

theorem mayTake_idle {x : DmaEngine} (h : mayTake x = true) : x.job = none := by
  simp only [mayTake, Bool.and_eq_true, Option.isNone_iff_eq_none] at h
  obtain ⟨⟨-, hidle⟩, -⟩ := h
  exact hidle

theorem takeJob_idle (s : State) (p : Port) (e : Nat) (d : Bytes) (h : mayTake (getEngine s p e) = false) :
    takeJob s p e d = s := by
  simp [takeJob, h]

theorem takeJob_refused (s : State) (p : Port) (e : Nat) (d : Bytes) (h : mayTake (getEngine s p e) = true)
    (hc : jobCheck s p (jobOf (getEngine s p e).taken d) d ≠ jobDONE) :
    takeJob s p e d =
      finishJob (setEngine s p e { getEngine s p e with taken := (getEngine s p e).taken + 1 }) p e
        (jobOf (getEngine s p e).taken d) (jobCheck s p (jobOf (getEngine s p e).taken d) d)
        (jobOf (getEngine s p e).taken d).count := by
  simp [takeJob, h, jobCheck_setEngine, hc]

/-- A job that is taken runs, bound to its slot's frame and with its place in the order of jobs (R60, R384). -/
theorem takeJob_runs (s : State) (p : Port) (e : Nat) (d : Bytes) (h : mayTake (getEngine s p e) = true)
    (hc : jobCheck s p (jobOf (getEngine s p e).taken d) d = jobDONE) :
    ∃ frame order, getEngine (takeJob s p e d) p e =
      { getEngine s p e with
        taken := (getEngine s p e).taken + 1
        job := some { jobOf (getEngine s p e).taken d with frame := frame, order := order } } := by
  have hnumbered : ∀ v st, getEngine { setEngine s p e v with store := st } p e = v := fun v st =>
    (StoreOnly.getEngine ⟨st, rfl⟩ p e).trans (getEngine_setEngine_self s p e v)
  simp only [takeJob, h, jobCheck_setEngine, hc, Bool.not_true, Bool.false_eq_true, if_false, ne_eq, not_true_eq_false,
    (jobHold_storeOnly _ _).getEngine, getEngine_setEngine_self, hnumbered]
  exact ⟨_, _, rfl⟩

theorem failFetch_engine (s : State) (p : Port) (e : Nat) (h : mayTake (getEngine s p e) = true) :
    getEngine (failFetch s p e) p e =
      { getEngine s p e with enable := false, halted := true, lastError := jobHOST_MEMORY } := by
  simp only [failFetch, h, Bool.not_true, Bool.false_eq_true, if_false]
  rw [(sendMsix_told _ p _).signals.getEngine, getEngine_setEngine_self]

/-! ### Bytes of running jobs (R60) -/

/-- The job of `x`'s engine has written the bytes of `x`. -/
def landOne (s : State) (x : Landed) (j : DmaJob) : State :=
  jobStore
    (setEngine s x.port x.engine
      { getEngine s x.port x.engine with job := some { j with written := (x.data.take j.count).length } })
    x.port j (x.data.take j.count)

/-- A job lands its bytes unless it reads the device, writes no slot, or has lost its frame. -/
theorem landMoved_cons (s : State) (x : Landed) (landed : List Landed) :
    landMoved s (x :: landed) = landMoved s landed ∨
    ∃ j, (getEngine s x.port x.engine).job = some j ∧ ¬(jobToHost j = true ∨ 1 < j.kind ∨ j.released = true) ∧
      landMoved s (x :: landed) = landMoved (landOne s x j) landed := by
  simp only [landMoved]
  split
  next j hj =>
    split
    next => exact .inl rfl
    next hlands => exact .inr ⟨j, hj, hlands, rfl⟩
  next => exact .inl rfl

theorem landOne_getEngine (s : State) (x : Landed) (j : DmaJob) (p : Port) (e : Nat) :
    getEngine (landOne s x j) p e =
      if p = x.port ∧ e = x.engine then
        { getEngine s x.port x.engine with job := some { j with written := (x.data.take j.count).length } }
      else getEngine s p e := by
  rw [landOne, (jobStore_storeOnly _ _ _ _).getEngine, getEngine_setEngine]

theorem landOne_toHost (s : State) (x : Landed) (j : DmaJob) (q : Port) :
    (getPort (landOne s x j) q).toHost = (getPort s q).toHost := by
  rw [landOne, (jobStore_storeOnly _ _ _ _).getPort, setEngine_toHost]

theorem landMoved_toHost (s : State) (landed : List Landed) (q : Port) :
    (getPort (landMoved s landed) q).toHost = (getPort s q).toHost := by
  induction landed generalizing s with
  | nil => rfl
  | cons x landed ih =>
    rcases landMoved_cons s x landed with hskip | ⟨j, -, -, hland⟩
    · rw [hskip, ih]
    · rw [hland, ih, landOne_toHost]

/-- Of a running job only the count of bytes written moves, and not even that when it lands nothing in a slot. -/
theorem landMoved_getEngine (s : State) (landed : List Landed) (p : Port) (e : Nat) (j : DmaJob)
    (h : (getEngine s p e).job = some j) :
    ∃ n, getEngine (landMoved s landed) p e = { getEngine s p e with job := some { j with written := n } } ∧
      (jobToHost j = true ∨ 1 < j.kind ∨ j.released = true → n = j.written) := by
  induction landed generalizing s j with
  | nil => exact ⟨j.written, by simp [landMoved, ← h], fun _ => rfl⟩
  | cons x landed ih =>
    rcases landMoved_cons s x landed with hskip | ⟨y, hy, hlands, hland⟩
    · rw [hskip]
      exact ih s j h
    · rw [hland]
      have hone := landOne_getEngine s x y p e
      by_cases hx : p = x.port ∧ e = x.engine
      · rw [if_pos hx] at hone
        obtain ⟨rfl, rfl⟩ := hx
        obtain rfl : j = y := Option.some.inj (h.symm.trans hy)
        obtain ⟨n, hn, -⟩ := ih (landOne s x j) { j with written := (x.data.take j.count).length } (by rw [hone])
        exact ⟨n, by rw [hn, hone], fun hkept => absurd hkept hlands⟩
      · rw [if_neg hx] at hone
        obtain ⟨n, hn, hkept⟩ := ih (landOne s x y) j (by rw [hone, h])
        exact ⟨n, by rw [hn, hone], hkept⟩

theorem landMoved_kept (s : State) (landed : List Landed) (p : Port) (e : Nat) (j : DmaJob)
    (h : (getEngine s p e).job = some j) (hj : jobToHost j = true ∨ 1 < j.kind ∨ j.released = true) :
    getEngine (landMoved s landed) p e = getEngine s p e := by
  obtain ⟨n, hn, hkept⟩ := landMoved_getEngine s landed p e j h
  rw [hn, hkept hj, ← h]

theorem landMoved_wf (s : State) (landed : List Landed) (w : Memory.wf s.store.mem = true) :
    Memory.wf (landMoved s landed).store.mem = true := by
  induction landed generalizing s with
  | nil => exact w
  | cons x landed ih =>
    rcases landMoved_cons s x landed with hskip | ⟨j, -, -, hland⟩
    · rw [hskip]
      exact ih s w
    · rw [hland]
      exact ih _ (jobStore_wf _ _ _ _ (by simpa using w))

/-! ### DMA_JOB_END (R61) -/

theorem exec_dmaJobEnd_stale (p : Port) (e : Fin 8) (ok : Bool) (x : JobEnd) (s : State)
    (h : x.epoch ≠ (getPort s p).epoch) :
    exec (.dmaJobEnd p e ok x) s =
      .next (setPort s p { getPort s p with stale := satInc 32 (getPort s p).stale }) := if_pos h

theorem exec_dmaJobEnd_current (p : Port) (e : Fin 8) (ok : Bool) (x : JobEnd) (s : State)
    (h : x.epoch = (getPort s p).epoch) :
    exec (.dmaJobEnd p e ok x) s = .next (endJob (landMoved s x.landed) p e ok x.data) := if_neg (by simp [h])

section EndJob

variable (s : State) (p : Port) (e : Nat) (ok : Bool) (data : Bytes) (j : DmaJob)

theorem endJob_toHost (hj : (getEngine s p e).job = some j) (hkind : j.kind < 3) (hdir : jobToHost j = true) :
    ∃ u v, StoreOnly (emit s p (.write j.hostAddr (jobFetch s p j j.count))) u ∧ Signals u v ∧
      endJob s p e ok data = finishJob v p e j jobDONE 0 := by
  have h3 : j.kind ≠ 3 := by omega
  refine ⟨_, _, jobUnhold_storeOnly _ j, fireJob_signals _ p e j.number, ?_⟩
  simp [endJob, hj, h3, hdir]

theorem endJob_released (hj : (getEngine s p e).job = some j) (hkind : j.kind < 3) (hdir : jobToHost j = false)
    (hrel : j.released = true) :
    endJob s p e ok data = finishJob s p e j jobSLOT_STATE (j.count - j.written) := by
  have h3 : j.kind ≠ 3 := by omega
  simp [endJob, hj, h3, hdir, hrel]

theorem endJob_hostMemory (hj : (getEngine s p e).job = some j) (hkind : j.kind < 3) (hdir : jobToHost j = false)
    (hrel : j.released = false) (hok : ok = false) :
    ∃ u n, StoreOnly s u ∧ endJob s p e ok data = finishJob u p e j jobHOST_MEMORY n := by
  have h3 : j.kind ≠ 3 := by omega
  refine ⟨_, j.count - (data.take j.count).length, jobStore_storeOnly s p j (data.take j.count), ?_⟩
  simp [endJob, hj, h3, hdir, hrel, hok]

theorem endJob_staging (hj : (getEngine s p e).job = some j) (hkind : j.kind = 2) (hdir : jobToHost j = false)
    (hrel : j.released = false) (hok : ok = true) (hlen : data.length = j.count) :
    ∃ u, Signals (storeWrite s (stagingBase p + j.offset) data) u ∧
      endJob s p e ok data = finishJob u p e j jobDONE 0 := by
  have hwhole : data.take j.count = data := List.take_of_length_le (by omega)
  refine ⟨_, fireJob_signals _ p e j.number, ?_⟩
  simp [endJob, hj, hkind, hdir, hrel, hok, hwhole, hlen, jobStore_staging]

end EndJob

/-! ### DMA_CTL -/

theorem dmaCtl_fields (v : Fin 32) :
    bit (BitVec.ofNat 32 (1 + 256 * v.val)).toNat 0 = true ∧ bit (BitVec.ofNat 32 (1 + 256 * v.val)).toNat 1 = false ∧
      bits (BitVec.ofNat 32 (1 + 256 * v.val)).toNat 12 8 = v.val := by
  have hn : (BitVec.ofNat 32 (1 + 256 * v.val)).toNat = 1 + 256 * v.val := by
    rw [BitVec.toNat_ofNat]; omega
  simp only [hn, bit, bits, beq_iff_eq, beq_eq_false_iff_ne]
  omega

theorem dmaEnable_engine (s : State) (p : Port) (e : Nat) (vector : Fin 32) :
    getEngine (writeDmaCtl s p e (BitVec.ofNat 32 (1 + 256 * vector.val)) []) p e =
      { getEngine s p e with
        enable := true, vector := vector.val
        halted := if (getEngine s p e).enable then (getEngine s p e).halted else false } := by
  obtain ⟨henable, habort, hvector⟩ := dmaCtl_fields vector
  simp only [writeDmaCtl, henable, habort, hvector, Bool.false_eq_true, if_false, getEngine_setEngine_self]
  cases (getEngine s p e).enable <;> rfl

theorem writeTail_engine (s : State) (p : Port) (e : Nat) (tail : BitVec 32) :
    getEngine (writeTail s p e tail) p e =
      { getEngine s p e with
        tail := if 2 ^ ringLog (getEngine s p e) < (tail - (getEngine s p e).head).toNat then (getEngine s p e).tail
          else tail } := by
  unfold writeTail
  simp only
  split
  · rfl
  · rw [getEngine_setEngine_self]

/-! ### The clauses of DMA_JOB_END -/

theorem dmaJobEnd_toHost (p : Port) (e : Fin 8) (ok : Bool) (data : Bytes) (epoch : Nat) (landed : List Landed)
    (j : DmaJob) (s : State) (he : epoch = (getPort s p).epoch) (hj : (getEngine s p e.val).job = some j)
    (hkind : j.kind < 3) (hdir : jobToHost j = true) :
    ∃ t, exec (.dmaJobEnd p e ok ⟨data, epoch, landed⟩) s = .next t ∧
      getEngine t p e.val = jobEnded (getEngine s p e.val) jobDONE ∧ ∃ l k, (getPort t p).toHost =
        (getPort s p).toHost ++ ToHost.write j.hostAddr (jobFetch (landMoved s landed) p j j.count) :: l ++
          writeBack (getEngine s p e.val) j jobDONE 0 :: k := by
  have hkept := landMoved_kept s landed p e.val j hj (.inl hdir)
  obtain ⟨u, v, hu, hv, hend⟩ := endJob_toHost (landMoved s landed) p e.val ok data j (by rw [hkept, hj]) hkind hdir
  have hengine : getEngine v p e.val = getEngine s p e.val := by
    rw [hv.getEngine, hu.getEngine, getEngine_emit, hkept]
  obtain ⟨l, hl⟩ := hv.toHost p
  obtain ⟨k, hk⟩ := finishJob_toHost v p e.val j jobDONE 0
  refine ⟨_, exec_dmaJobEnd_current p e ok ⟨data, epoch, landed⟩ s he, ?_⟩
  simp only
  rw [hend, finishJob_engine, hengine, hk, hl, hu.getPort, emit_toHost, landMoved_toHost, hengine]
  exact ⟨rfl, l, k, by simp⟩

theorem dmaJobEnd_staging (p : Port) (e : Fin 8) (data : Bytes) (epoch : Nat) (landed : List Landed)
    (j : DmaJob) (s : State) (hmem : MemoryCanonical s) (he : epoch = (getPort s p).epoch)
    (hj : (getEngine s p e.val).job = some j) (hkind : j.kind = 2) (hdir : jobToHost j = false)
    (hrel : j.released = false) (hlen : data.length = j.count) :
    ∃ t, exec (.dmaJobEnd p e true ⟨data, epoch, landed⟩) s = .next t ∧
      getEngine t p e.val = jobEnded (getEngine s p e.val) jobDONE ∧
      storeRead t (stagingBase p + j.offset) j.count = data ∧
      ∀ a, a < stagingBase p + j.offset ∨ stagingBase p + j.offset + j.count ≤ a →
        Memory.read t.store.mem a = Memory.read (landMoved s landed).store.mem a := by
  have hwf := landMoved_wf s landed hmem.1
  have hkept := landMoved_kept s landed p e.val j hj (.inr (.inl (by omega)))
  have hwrite : StoreOnly (landMoved s landed) (storeWrite (landMoved s landed) (stagingBase p + j.offset) data) := ⟨_, rfl⟩
  obtain ⟨u, hu, hend⟩ := endJob_staging (landMoved s landed) p e.val true data j (by rw [hkept, hj]) hkind hdir hrel rfl hlen
  refine ⟨_, exec_dmaJobEnd_current p e true ⟨data, epoch, landed⟩ s he, ?_⟩
  simp only
  rw [hend, storeRead, finishJob_store, finishJob_engine, hu.mem, hu.getEngine, hwrite.getEngine, hkept, ← hlen]
  refine ⟨rfl, Memory.readBytes_writeBytes _ _ _ hwf, fun a ha => ?_⟩
  exact (Memory.read_writeBytes _ _ a data hwf).trans (if_neg (by omega))

theorem dmaJobEnd_hostMemory (p : Port) (e : Fin 8) (data : Bytes) (epoch : Nat) (landed : List Landed)
    (j : DmaJob) (s : State) (he : epoch = (getPort s p).epoch) (hj : (getEngine s p e.val).job = some j)
    (hkind : j.kind < 3) (hdir : jobToHost j = false) (hrel : j.released = false) :
    ∃ t, exec (.dmaJobEnd p e false ⟨data, epoch, landed⟩) s = .next t ∧
      getEngine t p e.val = jobEnded (getEngine s p e.val) jobHOST_MEMORY := by
  obtain ⟨n, hn, -⟩ := landMoved_getEngine s landed p e.val j hj
  obtain ⟨u, m, hu, hend⟩ := endJob_hostMemory (landMoved s landed) p e.val false data { j with written := n }
    (by rw [hn]) hkind hdir hrel rfl
  refine ⟨_, exec_dmaJobEnd_current p e false ⟨data, epoch, landed⟩ s he, ?_⟩
  simp only
  rw [hend, finishJob_engine, hu.getEngine, hn]
  rfl

theorem dmaJobEnd_released (p : Port) (e : Fin 8) (ok : Bool) (data : Bytes) (epoch : Nat) (landed : List Landed)
    (j : DmaJob) (s : State) (he : epoch = (getPort s p).epoch) (hj : (getEngine s p e.val).job = some j)
    (hkind : j.kind < 3) (hdir : jobToHost j = false) (hrel : j.released = true) :
    ∃ t, exec (.dmaJobEnd p e ok ⟨data, epoch, landed⟩) s = .next t ∧
      getEngine t p e.val = jobEnded (getEngine s p e.val) jobSLOT_STATE ∧ ∃ k, (getPort t p).toHost =
        (getPort s p).toHost ++ writeBack (getEngine s p e.val) j jobSLOT_STATE (j.count - j.written) :: k := by
  have hkept := landMoved_kept s landed p e.val j hj (.inr (.inr hrel))
  refine ⟨_, exec_dmaJobEnd_current p e ok ⟨data, epoch, landed⟩ s he, ?_⟩
  simp only
  rw [endJob_released _ p e.val ok data j (by rw [hkept, hj]) hkind hdir hrel, finishJob_engine, hkept]
  obtain ⟨k, hk⟩ := finishJob_toHost (landMoved s landed) p e.val j jobSLOT_STATE (j.count - j.written)
  exact ⟨rfl, k, by rw [hk, landMoved_toHost, hkept]⟩

/-- Settles O39: each clause is one branch of a row, and every ended job ends by `finishJob`. -/
theorem dmaRowsComplete : Obligations.DmaRowsComplete := by
  refine ⟨fun p e vector s _ => ⟨_, rfl, dmaEnable_engine s p e.val vector⟩,
    fun p e tail s _ => ⟨_, rfl, writeTail_engine s p e.val tail⟩,
    fun p e moved s h => ⟨_, rfl, ?abortIdle⟩, fun p e moved j s h => ⟨_, rfl, ?abortRunning⟩,
    fun p e d s h => ⟨_, rfl, takeJob_idle s p e.val d h⟩, fun p e d s h => ⟨_, rfl, ?takeRefused⟩,
    fun p e d s h => ⟨_, rfl, ?takeRuns⟩, fun p e s h => ⟨_, rfl, failFetch_engine s p e.val h⟩,
    fun p e ok data epoch landed j s h => ?toHost, fun p e ok data epoch landed j s h => ?staging,
    fun p e ok data epoch landed j s h => ?hostMemory,
    fun p e ok data epoch landed s h => ⟨_, exec_dmaJobEnd_stale p e ok ⟨data, epoch, landed⟩ s h, by simp⟩,
    fun p e ok data epoch landed j s h => ?released⟩
  case abortIdle =>
    rw [abortJob_idle s p e.val moved h]
    exact getEngine_setEngine_self s p e.val _
  case abortRunning =>
    obtain ⟨u, n, hu, habort⟩ := abortJob_running s p e.val moved j h
    rw [habort, finishJob_engine, hu.getEngine]
    rfl
  case takeRefused =>
    obtain ⟨htake, hcheck⟩ := h
    rw [takeJob_refused s p e.val d htake hcheck]
    exact ⟨by simp [finishJob_engine, jobEnded, hcheck, mayTake_idle htake], by simp [finishJob_store]⟩
  case takeRuns =>
    obtain ⟨htake, hcheck⟩ := h
    obtain ⟨frame, order, hengine⟩ := takeJob_runs s p e.val d htake hcheck
    rw [hengine]
    exact ⟨rfl, rfl, rfl⟩
  case toHost =>
    obtain ⟨he, hj, hkind, hdir⟩ := h
    exact dmaJobEnd_toHost p e ok data epoch landed j s he hj hkind hdir
  case staging =>
    obtain ⟨hmem, he, hj, hkind, hdir, hrel, rfl, hlen⟩ := h
    exact dmaJobEnd_staging p e data epoch landed j s hmem he hj hkind hdir hrel hlen
  case hostMemory =>
    obtain ⟨he, hj, hkind, hdir, hrel, rfl⟩ := h
    exact dmaJobEnd_hostMemory p e data epoch landed j s he hj hkind hdir hrel
  case released =>
    obtain ⟨he, hj, hkind, hdir, hrel⟩ := h
    exact dmaJobEnd_released p e ok data epoch landed j s he hj hkind hdir hrel

end Sys2Proof.Machine
end
